-- ==== Sys2Proof/Word.lean ====
section
/-! DEFINITION. The byte, which is the only bit-level word of the manual (00 Numbering: "The byte layouts of
the loop frames are the only bit-level matter in the manual"). Every other quantity is a number. -/

namespace Sys2Proof

/-- One byte of a loop frame (R160, R162). -/
abbrev Byte := BitVec 8

end Sys2Proof
end

