-- ==== Sys2Proof/Config.lean ====
section
/-! DEFINITION. The free values: what the manual leaves open. Each is opaque, so that nothing can be proved of
its value; what a statement says of the model holds for every value of it. -/

namespace Sys2Proof

/-- The number of milliseconds reported for a remaining time of `t` units of 0.01 ms that is no whole number of
milliseconds. The manual reports remaining times in ms (R38, R116, R157, R187) and states no rounding (log 5). -/
opaque Config.partMs (t : Nat) : Nat

/-- The two bytes that carry a value of contents outside −32768 to +65535 (R162 gives each value two bytes;
R157's anti-cycle timer and R116's demand draw can be larger) (log 6). -/
opaque Config.wideValue (v : Int) : BitVec 16

/-- The blind capacity of a record whose structural load gives none (R10 names no default for it) (log 7). -/
opaque Config.blindDefault : Fin 10001

/-- Whether a marker carries the marker number after its advance (true) or before it (false): R169 says only that the
number is advanced for each marker sent (log 8). -/
opaque Config.markerCarriesNext : Bool

/-- Whether the forward marker of a paired round takes its number before the reverse one: R172 says only that the
two are sent together (log 8). -/
opaque Config.pairedForwardFirst : Bool

end Sys2Proof
end

