-- ==== Sys2Proof/Machine/Table.lean ====
section
/-! DEFINITION. A table of a fixed number of records, numbered from 0: how the model holds the manual's numbered
records (resources, points, holders, channels, …). Reading a number the table does not have gives the record type's
default, and writing one changes nothing; the rules answer such numbers before a table is touched. -/

namespace Sys2Proof.Machine

/-- `n` records of type `α`, in number order. -/
structure Table (n : Nat) (α : Type) where
  data : List α
  size : data.length = n
deriving DecidableEq, Repr

/-- Every record the same: the table after a reset. -/
def Table.all (n : Nat) {α : Type} (x : α) : Table n α :=
  ⟨List.replicate n x, List.length_replicate⟩

/-- Record number `i`. -/
def Table.get {n : Nat} {α : Type} [Inhabited α] (t : Table n α) (i : Nat) : α :=
  t.data.getD i default

/-- The table with record `i` replaced. -/
def Table.set {n : Nat} {α : Type} (t : Table n α) (i : Nat) (x : α) : Table n α :=
  ⟨t.data.set i x, by rw [List.length_set]; exact t.size⟩

/-- The table with every record changed by `f`. -/
def Table.map {n : Nat} {α : Type} (f : α → α) (t : Table n α) : Table n α :=
  ⟨t.data.map f, by rw [List.length_map]; exact t.size⟩

/-- The table whose record `i` is `f i`. -/
def Table.build (n : Nat) {α : Type} (f : Nat → α) : Table n α :=
  ⟨(List.range n).map f, by rw [List.length_map, List.length_range]⟩

/-- The lowest record number of `0 … n−1` that satisfies `p`. -/
def lowest (n : Nat) (p : Nat → Bool) : Option Nat :=
  (List.range n).find? p

end Sys2Proof.Machine
end

