-- ==== Sys2Proof/Syntax.lean ====
section
/-! DEFINITION. The commands: one constructor of `Instr` for each row of spec/opcode_table.json, with the operands the
numbered rules give it. A frame that a ring input receives is given whole (`RxFrame`); a DEMAND item and a MANAGE
operation are given with the fields of their frame that the rules read. -/

namespace Sys2Proof

/-- The two counter-rotating rings; also their inputs and outputs at the arbiter (R166). -/
inductive Ring where
  | forward | reverse
deriving DecidableEq, Repr, Inhabited

/-- A level of standing on a resource (R62, R43). -/
inductive Level where
  | shared | exclusive
deriving DecidableEq, Repr, Inhabited

/-- A valid frame of one class arriving at a ring input (R159, R160): the class is the command's. -/
structure RxFrame where
  input   : Ring
  dest    : Nat
  src     : Nat
  seq     : Nat
  payload : List Byte
deriving DecidableEq, Repr, Inhabited

/-- A frame of source 0 coming home (R163 step 1, R166). -/
structure OwnFrame where
  input   : Ring
  dest    : Nat
  cls     : Nat
  seq     : Nat
  payload : List Byte
deriving DecidableEq, Repr, Inhabited

/-- The payload of a MARKER frame (R162). -/
structure MarkerFrame where
  number      : Nat
  sentOn      : Ring
  hops        : Nat
  forwardWrap : Option Nat
  reverseWrap : Option Nat
deriving DecidableEq, Repr, Inhabited

/-- The DEMAND frame an item belongs to, and the item's place in it: `first` when no item of the frame was taken
before it, `last` when nothing of the payload follows it (R42, R43; log 4). -/
structure DemandCtx where
  input : Ring
  src   : Nat
  seq   : Nat
  first : Bool
  last  : Bool
deriving DecidableEq, Repr, Inhabited

/-- The fixed part and the optional parts of a DEMAND item, its operation and commit part apart (R43). -/
structure DemandItem where
  resource : Nat
  cls      : Nat
  weight   : Nat
  q        : Nat
  floor    : Option Nat
  fallback : Option Nat
deriving DecidableEq, Repr, Inhabited

/-- The MANAGE frame that carries an operation to address 0 (R164, R196). -/
structure ManageCtx where
  input : Ring
  src   : Nat
  seq   : Nat
deriving DecidableEq, Repr, Inhabited

/-- The part byte of a LOAD or a REPLY: part number in bits 6–0, last-part mark in bit 7 (R162). -/
structure PartMark where
  number : Nat
  last   : Bool
deriving DecidableEq, Repr, Inhabited

/-- The commands, in the order of spec/opcode_table.json. -/
inductive Instr where
  /-- HARD_RESET (R202). -/
  | hardReset
  /-- DROP_INVALID_FRAME (R159). -/
  | dropInvalidFrame
  /-- FRAME_FORWARD (R164, R165): a frame of class code `cls` whose content no block takes. -/
  | frameForward (cls : Nat) (fr : RxFrame)
  /-- OWN_FRAME_STRIP (R166). -/
  | ownFrameStrip (fr : OwnFrame)
  /-- MARKER_RETURN (R169): a marker arriving at a ring input. -/
  | markerReturn (input : Ring) (m : MarkerFrame)
  /-- SAMPLE (R27). -/
  | sample (fr : RxFrame)
  /-- STATUS_FRAME (R131). -/
  | statusFrame (fr : RxFrame)
  /-- INTERCEPT (R167): a COMMAND frame. -/
  | intercept (fr : RxFrame)
  /-- ACQUIRE_SHARED (R67). -/
  | acquireShared (d : DemandCtx) (it : DemandItem)
  /-- ACQUIRE_EXCLUSIVE (R68). -/
  | acquireExclusive (d : DemandCtx) (it : DemandItem)
  /-- UPGRADE (R70). -/
  | upgrade (d : DemandCtx) (it : DemandItem)
  /-- DOWNGRADE (R71). -/
  | downgrade (d : DemandCtx) (it : DemandItem)
  /-- REFRESH (R72). -/
  | refresh (d : DemandCtx) (it : DemandItem)
  /-- RELEASE (R73). -/
  | release (d : DemandCtx) (it : DemandItem)
  /-- YIELD_DONE (R74). -/
  | yieldDone (d : DemandCtx) (it : DemandItem)
  /-- RESERVE (R59). -/
  | reserve (d : DemandCtx) (it : DemandItem)
  /-- COMMIT_IF (R60), with its commit part. -/
  | commitIf (d : DemandCtx) (it : DemandItem) (level : Level) (generation : Nat)
  /-- BAD_ITEM (R44): an item whose operation code is none of the nine. -/
  | badItem (d : DemandCtx) (it : DemandItem)
  /-- MALFORMED (R43): the remainder of a payload; `d.first` when the payload holds no whole item. -/
  | malformed (d : DemandCtx)
  /-- LOAD (R200): table, index and class codes, part, and the bytes of contents this frame carries (R162). -/
  | load (m : ManageCtx) (table index cls : Nat) (part : PartMark) (contents : List Byte)
  /-- READ (R196). -/
  | read (m : ManageCtx) (table index : Nat)
  /-- STATUS (R196). -/
  | status (m : ManageCtx) (item index : Nat)
  /-- START (R199). -/
  | start (m : ManageCtx)
  /-- RESTART (R202). -/
  | restart (m : ManageCtx)
  /-- ENTER_CONFIG (R202). -/
  | enterConfig (m : ManageCtx)
  /-- HOLD_CHANNEL (R137). -/
  | holdChannel (m : ManageCtx) (n : Nat)
  /-- FREE_CHANNEL (R138). -/
  | freeChannel (m : ManageCtx) (n : Nat)
  /-- RETURN_STATION (R185). -/
  | returnStation (m : ManageCtx) (address : Nat)
  /-- CLEAR_SEQUENCE (R154). -/
  | clearSequence (m : ManageCtx) (n : Nat)
  /-- CLEAR_ALERT (R191). -/
  | clearAlert (m : ManageCtx) (category index : Nat)
  /-- ACK_OLDEST (R191). -/
  | ackOldest (m : ManageCtx)
  /-- CLEAR_COUNTS (R194). -/
  | clearCounts (m : ManageCtx)
  /-- CLEAR_LOOP (R174). -/
  | clearLoop (m : ManageCtx)
  /-- PROBE (R83): the kind's code, resource, client and quantity. -/
  | probe (m : ManageCtx) (kind resource client quantity : Nat)
  /-- BAD_OPERATION (R196): the operation code that names nothing, or whose operands are too short. -/
  | badOperation (m : ManageCtx) (op : Nat)
  /-- EVICT (R85): the head of the probe queue executes. -/
  | evict
  /-- EVICT_ALL (R85). -/
  | evictAll
  /-- DEMOTE (R86). -/
  | demote
  /-- FREEZE (R86). -/
  | freeze
  /-- THAW (R86). -/
  | thaw
  /-- CAP (R87). -/
  | cap
  /-- UNCAP (R87). -/
  | uncap
  /-- STALE_TIMER_EXPIRY (R33) of a point. -/
  | staleTimerExpiry (point : Nat)
  /-- LEASE_EXPIRY (R50) of a holder. -/
  | leaseExpiry (resource client : Nat)
  /-- YIELD_TIMER_EXPIRY (R79) of a revocation record. -/
  | yieldTimerExpiry (record : Nat)
  /-- PASS_START (R92). -/
  | passStart
  /-- PASS_COMPLETION (R109). -/
  | passCompletion
  /-- RAMP_EXPIRY (R129) of a channel. -/
  | rampExpiry (channel : Nat)
  /-- ACK_TIMEOUT (R132) of a channel. -/
  | ackTimeout (channel : Nat)
  /-- REFRESH_TIMER_EXPIRY (R133) of a channel. -/
  | refreshTimerExpiry (channel : Nat)
  /-- WATCH_EXPIRY (R149) of a slot. -/
  | watchExpiry (slot : Nat)
  /-- STOP_DELAY_EXPIRY (R151) of a slot. -/
  | stopDelayExpiry (slot : Nat)
  /-- ANTI_CYCLE_EXPIRY (R153) of a slot. -/
  | antiCycleExpiry (slot : Nat)
  /-- MARKER_TIMER_EXPIRY (R170). -/
  | markerTimerExpiry
  /-- RETURN_WATCH_EXPIRY (R171) of a ring's outstanding marker. -/
  | returnWatchExpiry (ring : Ring)
  /-- SILENCE_EXPIRY (R181) of a station record. -/
  | silenceExpiry (record : Nat)
  /-- POLL_TIMEOUT (R182) of a station record. -/
  | pollTimeout (record : Nat)
deriving DecidableEq, Repr

end Sys2Proof
end

