-- ==== Sys2Proof/Machine/State.lean ====
section
/-! DEFINITION. The state of the arbiter, block by block as 00_scope.md lists the blocks, and its values after a hard
reset. Plain data only. Quantities are numbers in the manual's units (00 Quantities and their ranges). -/

namespace Sys2Proof.Machine

/-- Why the part would stop: the manual names nothing that stops it, so there is no fault (safe: nothing is cut
short). -/
inductive Fault where
deriving DecidableEq, Repr

/-- Why the model gives a command no outcome. -/
inductive Refusal where
  /-- An arm of `exec` without a meaning yet; raised by Dispatch only (safe). -/
  | notModelled (mnemonic : String)
deriving DecidableEq, Repr

/-! ## Timers and the time base -/

/-- A timer (00 Events and timers): stopped, running until the clock reads `deadline`, or suspended with `remaining`
units of 0.01 ms left (log 1). -/
inductive Timer where
  | stopped
  | running (deadline : Nat)
  | suspended (remaining : Nat)
deriving DecidableEq, Repr, Inhabited

/-! ## LPU: loop state and markers (chapter 8) -/

/-- The loop states of section 8.3, in the order of their alert indices. -/
inductive LoopState where
  | forward | reverse | wrapBoth | wrapFwd | wrapRev | down
deriving DecidableEq, Repr, Inhabited

/-- The role of an outstanding marker (R169). -/
inductive MarkerRole where
  | regular | recovery | paired
deriving DecidableEq, Repr, Inhabited

/-- An outstanding marker of a ring (R169). -/
structure Outstanding where
  number : Nat
  role   : MarkerRole
  sentAt : Nat
  watch  : Timer
deriving DecidableEq, Repr, Inhabited

/-- A paired round in progress (R172): how each marker ended, and the state it then indicated. -/
structure PairedRound where
  forwardEnd : Option (Option LoopState)
  reverseEnd : Option (Option LoopState)
deriving DecidableEq, Repr, Inhabited

/-- The Loop Port Unit (R166, R169 to R174, R177). -/
structure Lpu where
  loop          : LoopState
  missCount     : Nat
  recoveryCount : Nat
  markerTimer   : Timer
  markerNumber  : Nat
  forwardMarker : Option Outstanding
  reverseMarker : Option Outstanding
  round         : Option PairedRound
  markerPeriod  : Nat
  returnLimit   : Nat
  presentTrip   : Option Nat
  minTrip       : Option Nat
  maxTrip       : Option Nat
  lastHops      : Option Nat
  forwardWrap   : Option Nat
  reverseWrap   : Option Nat
deriving DecidableEq, Repr

/-! ## FSU: intercept table (R168) -/

/-- A mapping of an intercept entry. -/
structure Mapping where
  output   : Nat
  resource : Nat
  scale    : Nat
deriving DecidableEq, Repr, Inhabited

/-- A loaded intercept entry. -/
structure Intercept where
  source      : Nat
  destination : Nat
  mappings    : List Mapping
deriving DecidableEq, Repr, Inhabited

/-- The Frame Steering Unit: 16 entries, each empty or loaded. -/
structure Fsu where
  entries : Table 16 (Option Intercept)
deriving DecidableEq, Repr

/-! ## STM: stations (chapter 9) -/

inductive Role where
  | sensor | actuator | client | manager | other
deriving DecidableEq, Repr, Inhabited

/-- The standing of a station (R178). -/
inductive StationState where
  | absent | online | polling (n : Nat) | faulty
deriving DecidableEq, Repr, Inhabited

/-- A loaded station record (R178). -/
structure Station where
  address      : Nat
  role         : Role
  silenceLimit : Nat
  state        : StationState
  silenceTimer : Timer
  pollTimer    : Timer
  retryCount   : Nat
  heard        : Bool
deriving DecidableEq, Repr, Inhabited

inductive ReturnMode where
  | auto | manual | halt
deriving DecidableEq, Repr, Inhabited

/-- The Station Monitor: station table and settings (R178, R179). -/
structure Stm where
  stations    : Table 30 (Option Station)
  pollTimeout : Nat
  retryLimit  : Nat
  returnMode  : ReturnMode
deriving DecidableEq, Repr

/-! ## PST: points (chapter 2) -/

inductive Quality where
  | none | fresh | held | stale | substituted
deriving DecidableEq, Repr, Inhabited

/-- The substitute of a point, when it has one (R22, R34). -/
inductive Substitute where
  | fixed (value : Int)
  | point (p : Nat) (fallback : Int)
deriving DecidableEq, Repr, Inhabited

/-- A candidate awaiting confirmation (R30). -/
structure Candidate where
  value : Int
  count : Nat
deriving DecidableEq, Repr, Inhabited

/-- A point record: the loaded fields and the kept fields of R22. `source` is (station, slot), absent when unmapped. -/
structure Point where
  source     : Option (Nat × Nat) := none
  lo         : Int := -32768
  hi         : Int := 32767
  substitute : Option Substitute := none
  step       : Nat := 0
  confirm    : Nat := 3
  staleLimit : Nat := 1000
  quality    : Quality := .none
  accepted   : Option Int := none
  candidate  : Option Candidate := none
  staleTimer : Timer := .stopped
deriving DecidableEq, Repr, Inhabited

/-- The Point Store: 48 point records. -/
structure Pst where
  points : Table 48 Point
deriving DecidableEq, Repr

/-! ## CAU: resources (chapter 1) -/

inductive ResKind where
  | unused | plain | parent | child
deriving DecidableEq, Repr, Inhabited

/-- A breakpoint of a curve (R4, R6). -/
structure Breakpoint where
  x : Int
  y : Nat
deriving DecidableEq, Repr, Inhabited

/-- The mode of a binding with the fields of the mode (R6). -/
inductive BindingMode where
  | level (curve : List Breakpoint)
  | split (client : Nat)
deriving DecidableEq, Repr, Inhabited

/-- A binding of a resource to a channel (R6). -/
structure Binding where
  channel : Nat
  mode    : BindingMode
  loss    : Nat
deriving DecidableEq, Repr, Inhabited

/-- A resource record (R1): a field the kind does not carry is absent. -/
structure Resource where
  kind         : ResKind := .unused
  parent       : Option Nat := none
  draw         : Option Nat := none
  curve        : List Breakpoint := []
  input        : Option Nat := none
  blind        : Option Nat := none
  limitPoint   : Option Nat := none
  bindings     : List Binding := []
  slot         : Option Nat := none
  yieldTimeout : Option Nat := none
  probeCap     : Option Nat := none
deriving DecidableEq, Repr, Inhabited

inductive BaseSource where
  | curve | blind
deriving DecidableEq, Repr, Inhabited

/-- What bound the capacity (R20). -/
inductive BoundBy where
  | none | derate | limit | limitStale | cap | gate
deriving DecidableEq, Repr, Inhabited

/-- A capacity report (R20). -/
structure Report where
  computed     : Bool := false
  baseSource   : Option BaseSource := none
  base         : Nat := 0
  availability : Nat := 0
  derating     : Option Nat := none
  effective    : Nat := 0
  boundBy      : BoundBy := .none
deriving DecidableEq, Repr, Inhabited

/-- The Capacity Unit: 12 resource records and their reports. -/
structure Cau where
  resources : Table 12 Resource
  reports   : Table 12 Report
deriving DecidableEq, Repr

/-! ## Notices (R82) -/

/-- The reasons of DENIED (R82). -/
inductive Reason where
  | badItem | malformed | notRunning | halted | badResource | frozen | contended | notHeld | yielding | evicted
deriving DecidableEq, Repr, Inhabited

/-- What revoked a holder (R76). -/
inductive Cause where
  | request | probe
deriving DecidableEq, Repr, Inhabited

/-- The kinds of notice and their fields (R82); the level of GRANTED is absent for NONE. -/
inductive NoticeKind where
  | granted (level : Option Level) (quantity : Nat)
  | queued (target : Level)
  | denied (reason : Reason)
  | busy
  | reserved (generation : Nat)
  | commitFailed
  | revoked (grant yieldTimeout : Nat) (cause : Cause)
  | lapsed (keptAtFallback : Bool)
deriving DecidableEq, Repr, Inhabited

/-- A notice names its resource (R82). -/
structure Notice where
  resource : Nat
  kind     : NoticeKind
deriving DecidableEq, Repr, Inhabited

/-! ## DIN: clients, PRF (chapter 3) -/

inductive LapsePolicy where
  | release | fallback
deriving DecidableEq, Repr, Inhabited

/-- A loaded client entry (R40). -/
structure ClientEntry where
  station       : Nat
  policy        : LapsePolicy
  defaultClass  : Nat
  defaultWeight : Nat
  leasePeriod   : Nat
deriving DecidableEq, Repr, Inhabited

/-- A client: its entry when loaded, its reservation (resource, generation) and its lapse-alert mark (R40, R59, R51). -/
structure Client where
  entry       : Option ClientEntry := none
  reservation : Option (Nat × Nat) := none
  lapseAlert  : Bool := false
deriving DecidableEq, Repr, Inhabited

/-- An entry of the Pending Request File (R54). -/
structure PrfEntry where
  client   : Nat
  resource : Nat
  target   : Level
deriving DecidableEq, Repr, Inhabited

/-- The Demand Intake; `draft` holds the notices of the DEMAND frame under way (R42, log 4). -/
structure Din where
  clients : Table 3 Client
  prf     : List PrfEntry
  draft   : List Notice
deriving DecidableEq, Repr

/-! ## GTB: holders, revocation, probes (chapter 4) -/

/-- The six holder states (R63). -/
inductive HolderState where
  | none | waiting | shared | upgrading | exclusive | yielding
deriving DecidableEq, Repr, Inhabited

/-- A holder entry (R62), with the lease timer and lapsed mark that the DIN keeps for it (R49, R51). The field values
given here are the NONE values. -/
structure Holder where
  state    : HolderState := .none
  target   : Option Level := none
  q        : Nat := 0
  f        : Nat := 0
  fallback : Option Nat := none
  cls      : Nat := 3
  weight   : Nat := 1
  g        : Nat := 0
  lease    : Timer := .stopped
  lapsed   : Bool := false
deriving DecidableEq, Repr, Inhabited

inductive RampMark where
  | pass | settle | clear
deriving DecidableEq, Repr, Inhabited

/-- A live revocation record (R76); `passSeen` says that a pass has started since the revocation (R78). -/
structure Revocation where
  resource : Nat
  client   : Nat
  grant    : Nat
  cause    : Cause
  ramp     : RampMark
  notice   : Bool
  timer    : Timer
  passSeen : Bool
deriving DecidableEq, Repr, Inhabited

inductive ProbeKind where
  | evict | evictAll | demote | freeze | thaw | cap | uncap
deriving DecidableEq, Repr, Inhabited

/-- A queued probe (R83). -/
structure Probe where
  kind     : ProbeKind
  resource : Nat
  client   : Nat
  quantity : Nat
  seq      : Nat
deriving DecidableEq, Repr, Inhabited

/-- The holders of one resource, by client. -/
structure Holders where
  drive : Holder := {}
  pack  : Holder := {}
  cab   : Holder := {}
deriving DecidableEq, Repr, Inhabited

/-- The Grant Table. -/
structure Gtb where
  holders     : Table 12 Holders
  generations : Table 12 Nat
  frozen      : Table 12 Bool
  records     : Table 8 (Option Revocation)
  probes      : List Probe
deriving DecidableEq, Repr

/-! ## ALE: the pass (chapter 5) -/

/-- A latched claim (R95, R96). -/
structure Claim where
  level    : Level
  q        : Nat
  f        : Nat
  cls      : Nat
  weight   : Nat
  departed : Bool
deriving DecidableEq, Repr, Inhabited

/-- What a pass latches of one record and its holders (R94, R95): absent for UNUSED. -/
structure LatchedRecord where
  kind     : ResKind := .unused
  capacity : Nat := 0
  parent   : Option Nat := none
  draw     : Nat := 100
  drive    : Option Claim := none
  pack     : Option Claim := none
  cab      : Option Claim := none
deriving DecidableEq, Repr, Inhabited

/-- The results of the last completed pass for one record (R116). -/
structure PassResult where
  latched    : Option Nat := none
  total      : Nat := 0
  demandDraw : Nat := 0
  cutClass   : Option Nat := none
deriving DecidableEq, Repr, Inhabited

/-- The Allocation Engine: IN-PASS exactly when `pass` is present (R92, R117). -/
structure Ale where
  passTimer  : Timer
  passPeriod : Nat
  pass       : Option (Table 12 LatchedRecord)
  results    : Table 12 PassResult
deriving DecidableEq, Repr

/-! ## CHU: channels (chapter 6) -/

inductive ChannelKind where
  | pump | fan | valve | compressor | heater
deriving DecidableEq, Repr, Inhabited

/-- The state of a loaded channel (R119); an unloaded one is IDLE. -/
inductive ChannelState where
  | active | held | faulted
deriving DecidableEq, Repr, Inhabited

inductive FaultCause where
  | status | ackTimeout | station
deriving DecidableEq, Repr, Inhabited

/-- The handshake of a channel (R119). -/
inductive Handshake where
  | clear
  | awaiting (seq setting retries : Nat)
deriving DecidableEq, Repr, Inhabited

/-- A loaded channel record: the loaded fields of R118 and the kept fields of R119. `current` is absent for UNKNOWN. -/
structure Channel where
  kind           : ChannelKind
  station        : Nat
  output         : Nat
  characteristic : Option (List Nat)
  minRun         : Nat
  slew           : Nat
  rampInterval   : Nat
  tolerance      : Nat
  ackLimit       : Nat
  refreshPeriod  : Nat
  state          : ChannelState := .held
  hold           : Bool := false
  cause          : Option FaultCause := none
  current        : Option Nat := none
  target         : Nat := 0
  split          : Nat := 0
  seqMin         : Nat := 0
  handshake      : Handshake := .clear
  cmdSeq         : Nat := 0
  lastActual     : Option Nat := none
  rampTimer      : Timer := .stopped
  ackTimer       : Timer := .stopped
  refreshTimer   : Timer := .stopped
deriving DecidableEq, Repr, Inhabited

/-- The stored results of one resource (R123). -/
structure StoredResult where
  total : Nat := 0
  drive : Nat := 0
  pack  : Nat := 0
  cab   : Nat := 0
deriving DecidableEq, Repr, Inhabited

/-- The Channel Units. -/
structure Chu where
  channels : Table 16 (Option Channel)
  store    : Table 12 StoredResult
deriving DecidableEq, Repr

/-! ## SSU: sequence slots (chapter 7) -/

/-- A step of a slot (R143); `limit` in seconds. -/
structure Step where
  channel : Nat
  run     : Nat
  limit   : Nat
deriving DecidableEq, Repr, Inhabited

/-- The state of a loaded slot (R144); steps are numbered from 1. -/
inductive SlotState where
  | stopped
  | starting (i : Nat)
  | running
  | stopping (i : Nat)
  | failed
deriving DecidableEq, Repr, Inhabited

/-- A loaded slot (R143, R144); times in seconds. -/
structure Slot where
  resource       : Nat
  steps          : List Step
  stopDelay      : Nat
  antiCycle      : Nat
  state          : SlotState := .stopped
  watch          : Timer := .stopped
  stopDelayTimer : Timer := .stopped
  antiCycleTimer : Timer := .stopped
  claimSum       : Nat := 0
deriving DecidableEq, Repr, Inhabited

/-- The Start/Stop Sequence Unit. -/
structure Ssu where
  slots : Table 4 (Option Slot)
deriving DecidableEq, Repr

/-! ## ALC: alerts and counts (chapter 10) -/

/-- An alert number (R189). -/
structure AlertNo where
  category : Nat
  index    : Nat
deriving DecidableEq, Repr, Inhabited

/-- The Alert List and Counts. -/
structure Alc where
  alerts   : List AlertNo
  overflow : Nat
  counts   : Table 20 Nat
deriving DecidableEq, Repr

/-! ## MGU: part state (chapter 11) -/

inductive PartState where
  | config | run | halted
deriving DecidableEq, Repr, Inhabited

/-- The LOAD parts held (R162): what they name, the number the next part must carry, and their bytes. -/
structure HeldParts where
  table : Nat
  index : Nat
  cls   : Nat
  next  : Nat
  bytes : List Byte
deriving DecidableEq, Repr, Inhabited

/-- The Management Unit. -/
structure Mgu where
  part    : PartState
  manager : Nat
  held    : Option HeldParts
deriving DecidableEq, Repr

/-! ## Frames sent -/

/-- A field item of contents (R162): the field number and its values; no values for an absent field. -/
structure FieldItem where
  field  : Nat
  values : List Int
deriving DecidableEq, Repr, Inhabited

/-- The status of a REPLY (R196). -/
inductive Status where
  | done | wrongState | badIndex | badValue | busy
  | invalidTables (table index : Nat)
deriving DecidableEq, Repr, Inhabited

/-- A REPLY: the operation answered, the status and the contents (R162, R196). -/
structure Reply where
  op       : Nat
  status   : Status
  contents : List FieldItem := []
deriving DecidableEq, Repr, Inhabited

/-- What a frame leaving the arbiter carries (R161, R162). `relay` is a frame forwarded, or an own frame relayed, byte
for byte as received (R159, R166). -/
inductive Body where
  | command (seq output setting : Nat)
  | notice (seq : Nat) (unsolicited : Bool) (notices : List Notice)
  | reply (seq : Nat) (r : Reply)
  | poll
  | marker (m : MarkerFrame)
  | alert (entries : List AlertNo) (overflow : Nat)
  | relay (src cls seq : Nat) (payload : List Byte)
deriving DecidableEq, Repr

/-- A frame handed to a ring output. -/
structure TxFrame where
  ring : Ring
  dest : Nat
  body : Body
deriving DecidableEq, Repr

/-! ## The whole part -/

/-- The state of the arbiter: the clock (in 0.01 ms, log 1), the twelve blocks' state, the frames sent, oldest first
(log 2), and the queue of waiting commands. -/
structure State where
  now     : Nat
  lpu     : Lpu
  fsu     : Fsu
  stm     : Stm
  pst     : Pst
  cau     : Cau
  din     : Din
  gtb     : Gtb
  ale     : Ale
  chu     : Chu
  ssu     : Ssu
  alc     : Alc
  mgu     : Mgu
  sent    : List TxFrame
  pending : List Instr
deriving DecidableEq, Repr

/-- The state after a hard reset: R21, R39, R61, R90, R117, R142, R158, R168, R177, R188, R195, R202. The marker
timer is started with 100 ms (R169, R177). -/
def State.reset : State where
  now := 0
  lpu :=
    { loop := .forward, missCount := 0, recoveryCount := 0, markerTimer := .running 10000, markerNumber := 0,
      forwardMarker := none, reverseMarker := none, round := none, markerPeriod := 100, returnLimit := 20,
      presentTrip := none, minTrip := none, maxTrip := none, lastHops := none, forwardWrap := none,
      reverseWrap := none }
  fsu := { entries := Table.all 16 none }
  stm := { stations := Table.all 30 none, pollTimeout := 20, retryLimit := 5, returnMode := .auto }
  pst := { points := Table.all 48 {} }
  cau := { resources := Table.all 12 {}, reports := Table.all 12 {} }
  din := { clients := Table.all 3 {}, prf := [], draft := [] }
  gtb :=
    { holders := Table.all 12 {}, generations := Table.all 12 0, frozen := Table.all 12 false,
      records := Table.all 8 none, probes := [] }
  ale := { passTimer := .stopped, passPeriod := 250, pass := none, results := Table.all 12 {} }
  chu := { channels := Table.all 16 none, store := Table.all 12 {} }
  ssu := { slots := Table.all 4 none }
  alc := { alerts := [], overflow := 0, counts := Table.all 20 0 }
  mgu := { part := .config, manager := 1, held := none }
  sent := []
  pending := []

end Sys2Proof.Machine
end

