-- ==== Sys2Proof/Machine/Ops.lean ====
section
/-! DEFINITION. The named operations over the state that every block uses: timers, records, event counts, alerts,
frames sent and notices. -/

namespace Sys2Proof.Machine

/-! ## Timers (00 Events and timers; log 1) -/

/-- A timer started now with a time in milliseconds. -/
def Timer.start (now ms : Nat) : Timer := .running (now + 100 * ms)

/-- A timer started now, where a time of 0 leaves it stopped (R133, R153). -/
def Timer.startUnlessZero (now ms : Nat) : Timer :=
  if ms = 0 then .stopped else Timer.start now ms

/-- A running timer suspended with its remaining time (R49, R155). -/
def Timer.suspend (now : Nat) : Timer → Timer
  | .running d => .suspended (d - now)
  | t => t

/-- A suspended timer resumed from its remaining time (R49, R155). -/
def Timer.resume (now : Nat) : Timer → Timer
  | .suspended r => .running (now + r)
  | t => t

def Timer.isRunning : Timer → Bool
  | .running _ => true
  | _ => false

/-- The time left in units of 0.01 ms; absent for a stopped timer. -/
def Timer.remaining (now : Nat) : Timer → Option Nat
  | .stopped => none
  | .running d => some (d - now)
  | .suspended r => some r

/-- The expiry of a timer: the clock has reached its deadline (log 1). Absent when the timer is not running, since only
a running timer expires. -/
def expire (t : Timer) (s : State) : Option State :=
  match t with
  | .running d => some { s with now := max s.now d }
  | _ => none

/-- A time in milliseconds as the manual reports it (log 5). -/
def reportedMs (t : Nat) : Nat :=
  if t % 100 = 0 then t / 100 else Config.partMs t

/-! ## Records -/

def State.resource (s : State) (r : Nat) : Resource := s.cau.resources.get r

def State.setResource (s : State) (r : Nat) (x : Resource) : State :=
  { s with cau.resources := s.cau.resources.set r x }

def State.point (s : State) (p : Nat) : Point := s.pst.points.get p

def State.setPoint (s : State) (p : Nat) (x : Point) : State :=
  { s with pst.points := s.pst.points.set p x }

def State.client (s : State) (c : Nat) : Client := s.din.clients.get c

def State.setClient (s : State) (c : Nat) (x : Client) : State :=
  { s with din.clients := s.din.clients.set c x }

/-- The holder of a client among a resource's holders; a client number above 2 names none. -/
def Holders.get (hs : Holders) (c : Nat) : Holder :=
  match c with
  | 0 => hs.drive
  | 1 => hs.pack
  | 2 => hs.cab
  | _ => {}

def Holders.set (hs : Holders) (c : Nat) (h : Holder) : Holders :=
  match c with
  | 0 => { hs with drive := h }
  | 1 => { hs with pack := h }
  | 2 => { hs with cab := h }
  | _ => hs

/-- The holder entry of client `c` on resource `r` (R62). -/
def State.holder (s : State) (r c : Nat) : Holder := (s.gtb.holders.get r).get c

def State.setHolder (s : State) (r c : Nat) (h : Holder) : State :=
  { s with gtb.holders := s.gtb.holders.set r ((s.gtb.holders.get r).set c h) }

def State.generation (s : State) (r : Nat) : Nat := s.gtb.generations.get r

def State.isFrozen (s : State) (r : Nat) : Bool := s.gtb.frozen.get r

def State.record (s : State) (k : Nat) : Option Revocation := s.gtb.records.get k

def State.setRecord (s : State) (k : Nat) (x : Option Revocation) : State :=
  { s with gtb.records := s.gtb.records.set k x }

/-- The claim of a client among a record's latched claims. -/
def LatchedRecord.claim (l : LatchedRecord) (c : Nat) : Option Claim :=
  match c with
  | 0 => l.drive
  | 1 => l.pack
  | 2 => l.cab
  | _ => none

def LatchedRecord.setClaim (l : LatchedRecord) (c : Nat) (x : Option Claim) : LatchedRecord :=
  match c with
  | 0 => { l with drive := x }
  | 1 => { l with pack := x }
  | 2 => { l with cab := x }
  | _ => l

/-- The stored g of a client (R123). -/
def StoredResult.g (x : StoredResult) (c : Nat) : Nat :=
  match c with
  | 0 => x.drive
  | 1 => x.pack
  | 2 => x.cab
  | _ => 0

def State.channel (s : State) (n : Nat) : Option Channel := s.chu.channels.get n

def State.setChannel (s : State) (n : Nat) (x : Option Channel) : State :=
  { s with chu.channels := s.chu.channels.set n x }

/-- A loaded channel changed by `f`; an IDLE channel ignores every event (R120). -/
def State.modifyChannel (s : State) (n : Nat) (f : Channel → Channel) : State :=
  match s.channel n with
  | none => s
  | some ch => s.setChannel n (some (f ch))

def State.slot (s : State) (k : Nat) : Option Slot := s.ssu.slots.get k

def State.setSlot (s : State) (k : Nat) (x : Option Slot) : State :=
  { s with ssu.slots := s.ssu.slots.set k x }

def State.station (s : State) (i : Nat) : Option Station := s.stm.stations.get i

def State.setStation (s : State) (i : Nat) (x : Option Station) : State :=
  { s with stm.stations := s.stm.stations.set i x }

/-- The station's record: the lowest-numbered loaded record with the address (R178). -/
def stationRecord (a : Nat) (s : State) : Option Nat :=
  lowest 30 fun i => match s.station i with
    | some st => st.address == a
    | none => false

/-- The station at an address, as its record stands. -/
def stationAt (a : Nat) (s : State) : Option Station :=
  (stationRecord a s).bind s.station

/-- Whether the station at an address is FAULTY in the station table. -/
def stationFaulty (a : Nat) (s : State) : Bool :=
  match stationAt a s with
  | some st => st.state == .faulty
  | none => false

/-- The client whose loaded entry names the station (R40); the lowest-numbered one where two do, which START
refuses (R41). -/
def clientOf (a : Nat) (s : State) : Option Nat :=
  lowest 3 fun c => match (s.client c).entry with
    | some e => e.station == a
    | none => false

/-! ## Event counts (R194) -/

/-- The event counts, in the order of the table of section 10.3. -/
inductive Count where
  | framesForwarded | crcErrors | unknownSource | unknownClass | samplesAccepted | samplesRange | samplesGlitch
  | demandItems | demandsDenied | commandsIntercepted | passes | parentCuts | floorDrops | revocations | leaseLapses
  | commandsSent | ackTimeouts | staleStatus | loopSwitches | pollsSent
deriving DecidableEq, Repr

/-- The number of an event count (section 10.3). -/
def Count.number : Count → Nat
  | .framesForwarded => 0
  | .crcErrors => 1
  | .unknownSource => 2
  | .unknownClass => 3
  | .samplesAccepted => 4
  | .samplesRange => 5
  | .samplesGlitch => 6
  | .demandItems => 7
  | .demandsDenied => 8
  | .commandsIntercepted => 9
  | .passes => 10
  | .parentCuts => 11
  | .floorDrops => 12
  | .revocations => 13
  | .leaseLapses => 14
  | .commandsSent => 15
  | .ackTimeouts => 16
  | .staleStatus => 17
  | .loopSwitches => 18
  | .pollsSent => 19

/-- The value of an event count. -/
def State.count (s : State) (c : Count) : Nat := s.alc.counts.get c.number

/-- `n` events counted, saturating at 65535 (R194). -/
def countBy (c : Count) (n : Nat) (s : State) : State :=
  { s with alc.counts := s.alc.counts.set c.number (min 65535 (s.alc.counts.get c.number + n)) }

/-- One event counted (R194). -/
def countEvent (c : Count) (s : State) : State := countBy c 1 s

/-! ## Frames sent (R166; log 2) -/

/-- The ring output that originated frames leave on (R166). -/
def originRing : LoopState → Ring
  | .forward => .forward
  | .reverse => .reverse
  | .wrapBoth => .forward
  | .wrapFwd => .forward
  | .wrapRev => .reverse
  | .down => .forward

/-- The ring output a forwarded frame leaves on, from the ring input it came by (R166). -/
def forwardRing (l : LoopState) (input : Ring) : Ring :=
  match l with
  | .wrapFwd => .forward
  | .wrapRev => .reverse
  | _ => input

/-- A frame handed to a named ring output. -/
def sendOn (ring : Ring) (dest : Nat) (body : Body) (s : State) : State :=
  { s with sent := s.sent ++ [⟨ring, dest, body⟩] }

/-- A frame originated by the arbiter, on the output R166 gives for the loop state. -/
def originate (dest : Nat) (body : Body) (s : State) : State :=
  sendOn (originRing s.lpu.loop) dest body s

/-! ## Alerts (R189, R190, R192) -/

/-- The alert categories (R189). -/
inductive AlertCategory where
  | loop | station | point | channel | sequence | yieldOverdue | lease | halt
deriving DecidableEq, Repr

def AlertCategory.number : AlertCategory → Nat
  | .loop => 1
  | .station => 2
  | .point => 3
  | .channel => 4
  | .sequence => 5
  | .yieldOverdue => 6
  | .lease => 7
  | .halt => 8

/-- The ALERT frame sent at a change of the list or of the overflow count (R192). -/
def sendAlert (s : State) : State :=
  originate 31 (.alert s.alc.alerts s.alc.overflow) s

/-- The outcome of a raise on the list and the overflow count: absent when nothing changes (R190). -/
def raiseOn (a : AlertNo) (alerts : List AlertNo) (overflow : Nat) : Option (List AlertNo × Nat) :=
  if a ∈ alerts then none
  else if alerts.length < 8 then some (alerts ++ [a], overflow)
  else if overflow < 255 then some (alerts, overflow + 1)
  else none

/-- An alert number raised (R190), with the ALERT frame of the change (R192). -/
def raiseAlert (c : AlertCategory) (index : Nat) (s : State) : State :=
  match raiseOn ⟨c.number, index⟩ s.alc.alerts s.alc.overflow with
  | none => s
  | some (l, o) => sendAlert { s with alc.alerts := l, alc.overflow := o }

/-! ## Notices (R82) -/

/-- Unsolicited notices sent to a client in one NOTICE frame: not while its station is FAULTY, and not kept (R82).
A client with an empty entry has no station to send to. -/
def notify (c : Nat) (notices : List Notice) (s : State) : State :=
  match (s.client c).entry with
  | none => s
  | some e => if stationFaulty e.station s then s else originate e.station (.notice 0 true notices) s

/-! ## Lists of record numbers -/

/-- `f` applied for each number of a list, in order. -/
def forEach (l : List Nat) (f : Nat → State → State) (s : State) : State :=
  l.foldl (fun s i => f i s) s

end Sys2Proof.Machine
end

