-- ==== Sys2Proof/Machine/Operands.lean ====
section
/-! DEFINITION. Every operand form: the entries of payloads (R160), DEMAND items (R43, R160) and their clamping (R45),
the field items of contents (R162), and the codes of names (R162, log 12). -/

namespace Sys2Proof.Machine

/-! ## Bytes -/

/-- Two bytes, high byte first (R160). -/
def be16 (hi lo : Byte) : Nat := hi.toNat * 256 + lo.toNat

/-- Sixteen bits read as two's complement (R160). -/
def signed16 (n : Nat) : Int := if n < 32768 then n else (n : Int) - 65536

/-! ## Entries of snooped payloads (R160): whole entries from the start, a short rest is ignored -/

structure SampleEntry where
  slot  : Nat
  value : Int
deriving DecidableEq, Repr

def sampleEntries : List Byte → List SampleEntry
  | s :: h :: l :: rest => ⟨s.toNat, signed16 (be16 h l)⟩ :: sampleEntries rest
  | _ => []

structure CommandEntry where
  output  : Nat
  setting : Nat
deriving DecidableEq, Repr

def commandEntries : List Byte → List CommandEntry
  | o :: h :: l :: rest => ⟨o.toNat, be16 h l⟩ :: commandEntries rest
  | _ => []

structure StatusEntry where
  output : Nat
  seq    : Nat
  fault  : Bool
  actual : Nat
deriving DecidableEq, Repr

def statusEntries : List Byte → List StatusEntry
  | o :: b :: h :: l :: rest =>
    ⟨o.toNat, b.toNat / 16, b.toNat % 2 == 1, be16 h l⟩ :: statusEntries rest
  | _ => []

/-! ## DEMAND items (R43, R160) -/

/-- The operation of an item; `bad` for a code that is none of the nine. -/
inductive ItemOp where
  | acquire (level : Level)
  | upgrade | downgrade | refresh | release | yieldDone | reserve
  | commitIf (level : Level) (generation : Nat)
  | bad
deriving DecidableEq, Repr

/-- An optional two-byte part. -/
def takeHalf (present : Bool) (bytes : List Byte) : Option (Option Nat × List Byte) :=
  match present, bytes with
  | false, rest => some (none, rest)
  | true, h :: l :: rest => some (some (be16 h l), rest)
  | true, _ => none

/-- The operation a code names, its commit part apart (R160); `none` for COMMIT-IF. -/
def plainOp (code : Nat) : Option ItemOp :=
  match code with
  | 1 => some (.acquire .shared)
  | 2 => some (.acquire .exclusive)
  | 3 => some .upgrade
  | 4 => some .downgrade
  | 5 => some .refresh
  | 6 => some .release
  | 7 => some .yieldDone
  | 8 => some .reserve
  | 9 => none
  | _ => some .bad

/-- The operation of an item, with the generation byte that COMMIT-IF alone carries (R160). -/
def takeOp (code : Nat) (exclusive : Bool) (bytes : List Byte) : Option (ItemOp × List Byte) :=
  match plainOp code, bytes with
  | some op, rest => some (op, rest)
  | none, g :: rest => some (.commitIf (if exclusive then .exclusive else .shared) g.toNat, rest)
  | none, [] => none

/-- One whole item read from the front of a payload; absent when the payload ends inside it (R43). -/
def takeItem : List Byte → Option ((ItemOp × DemandItem) × List Byte)
  | b0 :: b1 :: b2 :: qh :: ql :: rest =>
    match takeHalf (b2.toNat % 2 == 1) rest with
    | none => none
    | some (floor, rest) =>
      match takeHalf (b2.toNat / 2 % 2 == 1) rest with
      | none => none
      | some (fallback, rest) =>
        match takeOp (b0.toNat % 16) (b2.toNat / 4 % 2 == 1) rest with
        | none => none
        | some (op, rest) =>
          some ((op,
            { resource := b0.toNat / 16, cls := b1.toNat / 16 % 4, weight := b1.toNat % 16, q := be16 qh ql,
              floor := floor, fallback := fallback }), rest)
  | _ => none

/-- At most `n` whole items from the front of a payload, and what is left of it. -/
def takeItems : Nat → List Byte → List (ItemOp × DemandItem) × List Byte
  | 0, bytes => ([], bytes)
  | n + 1, bytes =>
    match takeItem bytes with
    | none => ([], bytes)
    | some (it, rest) =>
      let (more, left) := takeItems n rest
      (it :: more, left)

/-- The parameters of a holder as an item gives them (R62). -/
structure Params where
  q        : Nat
  f        : Nat
  fallback : Option Nat
  cls      : Nat
  weight   : Nat
deriving DecidableEq, Repr

/-- The clamping of an item: q and fallback to 10000, the floor to the clamped q, a weight of 0 to 1 (R45). An absent
floor stands for 0 (R43). -/
def clampItem (it : DemandItem) : Params :=
  let q := min it.q 10000
  { q := q, f := min (it.floor.getD 0) q, fallback := it.fallback.map (min · 10000), cls := it.cls,
    weight := if it.weight = 0 then 1 else it.weight }

/-- The part byte of a LOAD (R162). -/
def readPart (b : Byte) : PartMark := { number := b.toNat % 128, last := decide (128 ≤ b.toNat) }

/-! ## Contents (R162): a list of field items -/

/-- `n` values of two bytes, signed. -/
def takeValues : Nat → List Byte → Option (List Int × List Byte)
  | 0, bytes => some ([], bytes)
  | n + 1, h :: l :: rest =>
    match takeValues n rest with
    | none => none
    | some (vs, left) => some (signed16 (be16 h l) :: vs, left)
  | _ + 1, _ => none

/-- The field items of contents, with fuel for their number; absent when the contents end inside an item. -/
def takeFields : Nat → List Byte → Option (List FieldItem)
  | _, [] => some []
  | 0, _ => none
  | fuel + 1, f :: n :: rest =>
    match takeValues n.toNat rest with
    | none => none
    | some (vs, left) =>
      match takeFields fuel left with
      | none => none
      | some more => some (⟨f.toNat, vs⟩ :: more)
  | _ + 1, [_] => none

/-- The field items of the contents of a LOAD (R162, log 14). -/
def parseContents (bytes : List Byte) : Option (List FieldItem) :=
  takeFields bytes.length bytes

/-- The values a load gives for a field: the last item of that number; absent when there is none or when it gives an
absent field (R162, log 14). -/
def given (items : List FieldItem) (n : Nat) : Option (List Int) :=
  match items.reverse.find? (fun it => it.field == n) with
  | none => none
  | some it => if it.values = [] then none else some it.values

/-- Whether every item that gives values is of a field of `allowed`; an item without values gives an absent field
(R162, log 14). -/
def onlyFields (items : List FieldItem) (allowed : List Nat) : Bool :=
  items.all fun it => it.values.isEmpty || allowed.contains it.field

/-- One value from `lo` to `hi`. No value or several are refused, which is the model's choice (log 14). -/
def intIn (lo hi : Int) : List Int → Option Int
  | [v] => if lo ≤ v ∧ v ≤ hi then some v else none
  | _ => none

/-- One number from `lo` to `hi`. -/
def natIn (lo hi : Nat) (vs : List Int) : Option Nat :=
  (intIn lo hi vs).map Int.toNat

/-- One number that two bytes carry without sign: a value read as negative stands for itself plus 65536 (log 6). -/
def wideNatIn (lo hi : Nat) (vs : List Int) : Option Nat :=
  natIn lo hi (vs.map fun v => if v < 0 then v + 65536 else v)

/-- A field that takes `d` when the load does not give it, which is the default in a structural load and the present value in
a tunable one (log 14); absent when its value is refused. -/
def fieldOr {α : Type} (items : List FieldItem) (n : Nat) (d : α) (read : List Int → Option α) : Option α :=
  match given items n with
  | none => some d
  | some vs => read vs

/-- A field the load must give. -/
def required {α : Type} (items : List FieldItem) (n : Nat) (read : List Int → Option α) : Option α :=
  match given items n with
  | none => none
  | some vs => read vs

/-- An optional field: absent when the load does not give it. -/
def fieldOption {α : Type} (items : List FieldItem) (n : Nat) (read : List Int → Option α) : Option (Option α) :=
  fieldOr items n none fun vs => (read vs).map some

/-- A list preceded by the number of its members, at the front of the values. -/
def takeList (vs : List Int) : Option (List Int × List Int) :=
  match vs with
  | n :: rest => if 0 ≤ n ∧ n.toNat ≤ rest.length then some (rest.take n.toNat, rest.drop n.toNat) else none
  | [] => none

/-- A whole field that is one list preceded by the number of its members. -/
def wholeList (vs : List Int) : Option (List Int) :=
  match takeList vs with
  | some (l, []) => some l
  | _ => none

/-- Every value of a list within `lo` to `hi`. -/
def allIn (lo hi : Int) (vs : List Int) : Bool := vs.all fun v => decide (lo ≤ v ∧ v ≤ hi)

/-! ## Codes of names: the position, counting from 1, in the list of values the rule gives (R162, log 12) -/

/-- The name at a position of a list of names. -/
def nameAt {α : Type} (names : List α) (vs : List Int) : Option α :=
  match vs with
  | [v] => if 1 ≤ v then names[v.toNat - 1]? else none
  | _ => none

/-- The position of a name in its list. -/
def codeIn {α : Type} [DecidableEq α] (names : List α) (x : α) : Int :=
  ((names.findIdx (· = x) : Nat) : Int) + 1

def resKinds : List ResKind := [.unused, .plain, .parent, .child]
def roles : List Role := [.sensor, .actuator, .client, .manager, .other]
def returnModes : List ReturnMode := [.auto, .manual, .halt]
def lapsePolicies : List LapsePolicy := [.release, .fallback]
def channelKinds : List ChannelKind := [.pump, .fan, .valve, .compressor, .heater]
def qualities : List Quality := [.none, .fresh, .held, .stale, .substituted]
def boundBys : List BoundBy := [.none, .derate, .limit, .limitStale, .cap, .gate]
def baseSources : List BaseSource := [.curve, .blind]
def holderStates : List HolderState := [.none, .waiting, .shared, .upgrading, .exclusive, .yielding]
def levels : List Level := [.shared, .exclusive]
def causes : List Cause := [.request, .probe]
def rampMarks : List RampMark := [.pass, .settle, .clear]
def probeKinds : List ProbeKind := [.evict, .evictAll, .demote, .freeze, .thaw, .cap, .uncap]
def loopStates : List LoopState := [.forward, .reverse, .wrapBoth, .wrapFwd, .wrapRev, .down]
def partStates : List PartState := [.config, .run, .halted]

/-- The index of a loop state for the alert LOOP (section 8.3). -/
def LoopState.index (l : LoopState) : Nat := loopStates.findIdx (· = l)

end Sys2Proof.Machine
end

