-- ==== Sys2Proof/Machine/Curves.lean ====
section
/-! DEFINITION. Rounding and interpolation: the four ways of rounding (00 Rounding) that the rules name, the
interpolation rule R14, and the valve search of R125. -/

namespace Sys2Proof.Machine

/-- `a / b` rounded up (00 Rounding). -/
def divUp (a b : Nat) : Nat := (a + (b - 1)) / b

/-- `a / b` rounded half up, for numbers (00 Rounding). -/
def divHalfUp (a b : Nat) : Nat := (2 * a + b) / (2 * b)

/-- `p / d` rounded half away from zero, for a positive `d` (00 Rounding). -/
def divHalfAway (p : Int) (d : Nat) : Int :=
  let m := ((2 * p.natAbs + d) / (2 * d) : Nat)
  if p < 0 then -(m : Int) else m

/-- The value of a curve between two breakpoints (R14). -/
def between (a b : Breakpoint) (v : Int) : Nat :=
  ((a.y : Int) + divHalfAway (((b.y : Int) - a.y) * (v - a.x)) (b.x - a.x).toNat).toNat

/-- A curve from its breakpoint `a` on, for a `v` above `a.x` (R14): flat beyond the last breakpoint. -/
def interpolateFrom (a : Breakpoint) (rest : List Breakpoint) (v : Int) : Nat :=
  match rest with
  | [] => a.y
  | b :: more => if v ≤ b.x then between a b v else interpolateFrom b more v

/-- A curve interpolated at an input value (R14). -/
def interpolate (curve : List Breakpoint) (v : Int) : Nat :=
  match curve with
  | [] => 0
  | a :: rest => if v ≤ a.x then a.y else interpolateFrom a rest v

/-- The nine fixed positions of a valve characteristic (R118). -/
def valvePositions : List Nat := [0, 128, 256, 384, 512, 640, 768, 896, 1023]

/-- A valve characteristic as a curve over the fixed positions (R118, R125). -/
def valveCurve (characteristic : List Nat) : List Breakpoint :=
  List.zipWith (fun (x y : Nat) => (⟨x, y⟩ : Breakpoint)) valvePositions characteristic

/-- One comparison of the search of R125 after another, for the steps `b − 1` down to 0. -/
def valveSearch (curve : List Breakpoint) (fraction : Nat) : Nat → Nat → Nat
  | 0, p => p
  | b + 1, p =>
    let trial := p + 2 ^ b
    valveSearch curve fraction b (if interpolate curve trial ≤ fraction then trial else p)

/-- The position found by the ten comparisons of R125. -/
def valvePosition (characteristic : List Nat) (fraction : Nat) : Nat :=
  valveSearch (valveCurve characteristic) fraction 10 0

end Sys2Proof.Machine
end

