-- ==== Sys2Proof/Machine/Flags.lean ====
section
/-! DEFINITION. The conditions and marks the rules test: Settled and lost channels, the channel condition of a
revocation, gates, free records, and what a point reports. -/

namespace Sys2Proof.Machine

/-! ## Channels -/

/-- The absolute difference of two settings. -/
def settingDiff (a b : Nat) : Nat := (a - b) + (b - a)

/-- The Settled condition of a loaded channel (R135). -/
def Channel.settled (ch : Channel) : Bool :=
  ch.state == .active && ch.handshake == .clear &&
    match ch.current, ch.lastActual with
    | some c, some a => c == ch.target && decide (settingDiff a c ≤ ch.tolerance)
    | _, _ => false

/-- The Settled condition of a channel; an unloaded one is never Settled (R135). -/
def settled (s : State) (n : Nat) : Bool :=
  match s.channel n with
  | some ch => ch.settled
  | none => false

/-- FAULTED or IDLE: the channel is lost to its resources (R15, R120). -/
def lost (s : State) (n : Nat) : Bool :=
  match s.channel n with
  | some ch => ch.state == .faulted
  | none => true

/-- The channel condition of a resource: every bound channel Settled, FAULTED or IDLE (R78). -/
def channelCondition (s : State) (r : Nat) : Bool :=
  (s.resource r).bindings.all fun b => settled s b.channel || lost s b.channel

/-! ## Holders and revocation records -/

/-- Standing on the resource: the states that a probe or a request can revoke (R76, R84). -/
def HolderState.revocable : HolderState → Bool
  | .shared | .upgrading | .exclusive => true
  | _ => false

/-- The states in which g is 0 and a latched claim departs (R63, R96). -/
def HolderState.leaves : HolderState → Bool
  | .none | .waiting | .yielding => true
  | _ => false

/-- WAITING or UPGRADING: the holder has a PRF entry (R54). -/
def HolderState.pends : HolderState → Bool
  | .waiting | .upgrading => true
  | _ => false

/-- The other clients of a client, in ascending order. -/
def otherClients (c : Nat) : List Nat := [0, 1, 2].filter (· ≠ c)

/-- Whether some other client's holder of the resource satisfies `p`. -/
def someOther (s : State) (r c : Nat) (p : Holder → Bool) : Bool :=
  (otherClients c).any fun c' => p (s.holder r c')

/-- The live revocation records that name a resource, by number. -/
def recordsNaming (s : State) (r : Nat) : List Nat :=
  (List.range 8).filter fun k => match s.record k with
    | some v => v.resource == r
    | none => false

/-- Whether a live revocation record names the resource. -/
def recordNames (s : State) (r : Nat) : Bool := !(recordsNaming s r).isEmpty

/-- The number of free revocation records. -/
def freeRecords (s : State) : Nat :=
  ((List.range 8).filter fun k => (s.record k).isNone).length

/-- Whether `k` revocation records and a PRF entry are free (R66, R55). -/
def roomFor (s : State) (k : Nat) : Bool :=
  decide (k ≤ freeRecords s) && decide (s.din.prf.length < 8)

/-- Whether a notice mark is set on a live record that names the resource (R84). -/
def noticeMarkSet (s : State) (r : Nat) : Bool :=
  (List.range 8).any fun k => match s.record k with
    | some v => v.resource == r && v.notice
    | none => false

/-- The revocations a probe needs at this moment (R84). -/
def revocationsNeeded (s : State) (p : Probe) : Nat :=
  match p.kind with
  | .evict => if (s.holder p.resource p.client).state.revocable then 1 else 0
  | .evictAll => ([0, 1, 2].filter fun c => (s.holder p.resource c).state.revocable).length
  | _ => 0

/-- Whether a probe at the head of the queue executes (R84). -/
def probeReady (s : State) (p : Probe) : Bool :=
  !noticeMarkSet s p.resource && decide (revocationsNeeded s p ≤ freeRecords s)

/-! ## Points -/

/-- The substitute value of a point's substitute, worked out when it is read (R34). -/
def substituteValue (s : State) : Substitute → Option Int
  | .fixed v => some v
  | .point r fallback =>
    match (s.point r).quality with
    | .fresh | .held => (s.point r).accepted
    | _ => some fallback

/-- The reported value of a point (R24). -/
def reportedValue (s : State) (p : Nat) : Option Int :=
  let pt := s.point p
  match pt.quality with
  | .none => none
  | .fresh | .held | .stale => pt.accepted
  | .substituted => pt.substitute.bind (substituteValue s)

/-- The value a curve input or a limit point gives to capacity: the reported value in FRESH, HELD and SUBSTITUTED,
nothing in STALE and NONE (R13, R16). -/
def usableValue (s : State) (p : Nat) : Option Int :=
  match (s.point p).quality with
  | .fresh | .held | .substituted => reportedValue s p
  | .stale | .none => none

/-! ## Slots and stations -/

/-- Whether a resource's gate is open: it names no slot, or its slot is RUNNING (R18). -/
def gateOpen (s : State) (slot : Option Nat) : Bool :=
  match slot with
  | none => true
  | some k => match s.slot k with
    | some sl => sl.state == .running
    | none => false

/-- The number of stations FAULTY (R196, R199). -/
def faultyCount (s : State) : Nat :=
  ((List.range 30).filter fun i => match s.station i with
    | some st => st.state == .faulty
    | none => false).length

end Sys2Proof.Machine
end

