-- ==== Sys2Proof/Machine/Grants.lean ====
section
/-! DEFINITION. The Grant Table (chapter 4): changes of holder state, revocation, the freeing of records, PRF
completion, ramp marks, and the decision of every request (R67 to R75). -/

namespace Sys2Proof.Machine

/-! ## Changes of holder state (R62, R63, R64, R96) -/

/-- A holder as it enters a state: NONE takes the NONE values, WAITING and YIELDING take g 0, YIELDING stops the lease
and clears the lapsed mark, and only WAITING keeps a target level (R62, R63, R49, R51). -/
def Holder.enter (h : Holder) (st : HolderState) : Holder :=
  match st with
  | .none => {}
  | .waiting => { h with state := .waiting, g := 0 }
  | .yielding => { h with state := .yielding, target := none, g := 0, lease := .stopped, lapsed := false }
  | .shared => { h with state := .shared, target := none }
  | .upgrading => { h with state := .upgrading, target := none }
  | .exclusive => { h with state := .exclusive, target := none }

/-- A latched claim marked departed (R96); a holder without one has no mark to set. -/
def markDeparted (r c : Nat) (s : State) : State :=
  match s.ale.pass with
  | none => s
  | some t =>
    let l := t.get r
    { s with ale.pass := some (t.set r (l.setClaim c ((l.claim c).map fun x => { x with departed := true }))) }

/-- The generation of a resource moved on by 1, modulo 256 (R64). -/
def bumpGeneration (r : Nat) (s : State) : State :=
  { s with gtb.generations := s.gtb.generations.set r ((s.gtb.generations.get r + 1) % 256) }

/-- A holder moved to a state: nothing when it is there already; otherwise it enters the state, the generation moves
on, and its claim departs when it leaves its standing (R62 to R64, R96). -/
def moveHolder (r c : Nat) (st : HolderState) (s : State) : State :=
  let h := s.holder r c
  if h.state = st then s
  else
    let s := bumpGeneration r (s.setHolder r c (h.enter st))
    if st.leaves then markDeparted r c s else s

/-- The PRF entry of a holder taken out, wherever it stands (R54, R58). -/
def removePrf (r c : Nat) (s : State) : State :=
  { s with din.prf := s.din.prf.filter fun e => !(e.client == c && e.resource == r) }

/-! ## Freeing of records and PRF completion (R57, R80) -/

/-- The state a completed PRF entry gives its holder: the target level for a WAITING holder, EXCLUSIVE for an UPGRADING
one (R57). -/
def completedState (h : Holder) (target : Level) : HolderState :=
  match h.state, target with
  | .waiting, .shared => .shared
  | _, _ => .exclusive

/-- The level a state has for a notice (R82, R112): none for NONE, WAITING and YIELDING. -/
def HolderState.level : HolderState → Option Level
  | .shared | .upgrading => some .shared
  | .exclusive => some .exclusive
  | _ => Option.none

/-- The PRF entry of a resource completes when no live record names the resource (R57). The notice carries granted
quantity 0. -/
def completePrf (r : Nat) (s : State) : State :=
  if recordNames s r then s
  else match s.din.prf.find? (fun e => e.resource == r) with
    | none => s
    | some e =>
      let st := completedState (s.holder r e.client) e.target
      removePrf r e.client (notify e.client [⟨r, .granted st.level 0⟩] (moveHolder r e.client st s))

/-- A record frees: its holder becomes NONE, the record is free, and the DIN completes the resource's PRF entry if
no other record names the resource (R80). -/
def freeRecord (k : Nat) (s : State) : State :=
  match s.record k with
  | none => s
  | some v => completePrf v.resource ((moveHolder v.resource v.client .none s).setRecord k none)

/-- A record's ramp mark goes to CLEAR; the record frees if its notice mark is clear (R78, R80). -/
def rampClear (k : Nat) (s : State) : State :=
  match s.record k with
  | none => s
  | some v =>
    let s := s.setRecord k (some { v with ramp := .clear })
    if v.notice then s else freeRecord k s

/-- A record's notice mark clears and its yield timer stops; the record frees if its ramp mark is CLEAR (R79, R80). A
mark already clear is not changed again (R79). -/
def noticeClear (k : Nat) (s : State) : State :=
  match s.record k with
  | none => s
  | some v =>
    if v.notice then
      let s := s.setRecord k (some { v with notice := false, timer := .stopped })
      if v.ramp = .clear then freeRecord k s else s
    else s

/-- The live record that names a holder (R76). -/
def recordOf (s : State) (r c : Nat) : Option Nat :=
  lowest 8 fun k => match s.record k with
    | some v => v.resource == r && v.client == c
    | none => false

/-- The CHU's report that a channel became Settled, FAULTED or IDLE: every record in SETTLE of a resource bound to it
is tested again (R78, R135), in ascending record number, which is the model's choice (log 41). -/
def reportToGtb (n : Nat) (s : State) : State :=
  forEach (List.range 8) (fun k s =>
    match s.record k with
    | some v =>
      if v.ramp = .settle ∧ (s.resource v.resource).bindings.any (·.channel == n) ∧ channelCondition s v.resource
      then rampClear k s else s
    | none => s) s

/-- The ramp marks in PASS judged at a pass completion: a record that saw the pass start goes to CLEAR or SETTLE by the
channel condition (R78, R110). The records are judged in ascending number, which is the model's choice (log 41). -/
def judgePassMarks (s : State) : State :=
  forEach (List.range 8) (fun k s =>
    match s.record k with
    | some v =>
      if v.ramp = .pass ∧ v.passSeen then
        if channelCondition s v.resource then rampClear k s
        else s.setRecord k (some { v with ramp := .settle })
      else s
    | none => s) s

/-- A pass has started: every live record has seen it (R78). -/
def markPassSeen (s : State) : State :=
  { s with gtb.records := s.gtb.records.map fun x => x.map fun v => { v with passSeen := true } }

/-! ## Revocation (R77) -/

/-- The lowest-numbered free record (R77). -/
def freeRecordNo (s : State) : Option Nat := lowest 8 fun k => (s.record k).isNone

/-- A holder revoked (R77). The decisions of requests and probes have checked that a record is free. -/
def revoke (cause : Cause) (r c : Nat) (s : State) : State :=
  let g := (s.holder r c).g
  let timeout := (s.resource r).yieldTimeout.getD 5000
  let v : Revocation :=
    { resource := r, client := c, grant := g, cause := cause, ramp := .pass, notice := true,
      timer := Timer.start s.now timeout, passSeen := false }
  let s := s.setRecord ((freeRecordNo s).getD 8) (some v)
  let s := removePrf r c (moveHolder r c .yielding s)
  countEvent .revocations (notify c [⟨r, .revoked g timeout cause⟩] s)

/-- Several holders of a resource revoked, in ascending client number. -/
def revokeAll (cause : Cause) (r : Nat) (cs : List Nat) (s : State) : State :=
  forEach cs (revoke cause r) s

/-! ## Leases (R49, R51) -/

/-- A lease started or restarted with the client's lease period: the lapsed mark clears and the client's lapse-alert
mark is set (R49, R51). -/
def startLease (r c : Nat) (s : State) : State :=
  let period := ((s.client c).entry.map (·.leasePeriod)).getD 1000
  let s := s.setHolder r c { s.holder r c with lease := Timer.start s.now period, lapsed := false }
  s.setClient c { s.client c with lapseAlert := true }

/-- The parameters of an item written into the holder, together (R62). -/
def writeParams (r c : Nat) (p : Params) (s : State) : State :=
  s.setHolder r c
    { s.holder r c with q := p.q, f := p.f, fallback := p.fallback, cls := p.cls, weight := p.weight }

/-- A request taken as a REFRESH: parameters written, lease restarted, lapsed mark cleared (R69, R72). -/
def renew (r c : Nat) (p : Params) (s : State) : State := startLease r c (writeParams r c p s)

/-! ## Decisions (R67 to R75) -/

/-- A decision: the state after it and the item's notice. -/
abbrev Decision := State × NoticeKind

/-- The requester's holder becomes WAITING for a level, with a PRF entry at the tail, the item's parameters and its
lease (R54, R55, R67, R68). -/
def waitFor (level : Level) (r c : Nat) (p : Params) (s : State) : State :=
  let s := moveHolder r c .waiting s
  let s := s.setHolder r c { s.holder r c with target := some level }
  renew r c p { s with din.prf := s.din.prf ++ [⟨c, r, level⟩] }

/-- The requester's holder takes a level at once, with the item's parameters and its lease (R67, R68). -/
def takeLevel (level : Level) (r c : Nat) (p : Params) (s : State) : State :=
  renew r c p (moveHolder r c (match level with | .shared => .shared | .exclusive => .exclusive) s)

/-- Whether another holder is WAITING or UPGRADING (R67, R68, R70 test 2). -/
def pendingOther (s : State) (r c : Nat) : Bool := someOther s r c (·.state.pends)

/-- The other clients whose holders are SHARED or EXCLUSIVE, in ascending order. -/
def standingOthers (s : State) (r c : Nat) : List Nat :=
  (otherClients c).filter fun c' =>
    (s.holder r c').state == .shared || (s.holder r c').state == .exclusive

/-- Whether a claim of class `a` is strictly more urgent than every holder listed (R66). -/
def moreUrgent (s : State) (r : Nat) (a : Nat) (cs : List Nat) : Bool :=
  cs.all fun c' => decide (a < (s.holder r c').cls)

/-- ACQUIRE-SHARED from NONE (R67). -/
def acquireSharedNew (r c : Nat) (p : Params) (s : State) : Decision :=
  let exclusives := (otherClients c).filter fun c' => (s.holder r c').state == .exclusive
  if s.isFrozen r then (s, .denied .frozen)
  else if pendingOther s r c then (s, .denied .contended)
  else if exclusives = [] then (takeLevel .shared r c p s, .granted (some .shared) 0)
  else if moreUrgent s r p.cls exclusives then
    if roomFor s exclusives.length then (waitFor .shared r c p (revokeAll .request r exclusives s), .queued .shared)
    else (s, .busy)
  else (s, .denied .contended)

/-- ACQUIRE-EXCLUSIVE from NONE (R68). -/
def acquireExclusiveNew (r c : Nat) (p : Params) (s : State) : Decision :=
  let others := standingOthers s r c
  if s.isFrozen r then (s, .denied .frozen)
  else if pendingOther s r c then (s, .denied .contended)
  else if others = [] then
    if recordNames s r then
      if roomFor s 0 then (waitFor .exclusive r c p s, .queued .exclusive) else (s, .busy)
    else (takeLevel .exclusive r c p s, .granted (some .exclusive) 0)
  else if moreUrgent s r p.cls others then
    if roomFor s others.length then (waitFor .exclusive r c p (revokeAll .request r others s), .queued .exclusive)
    else (s, .busy)
  else (s, .denied .contended)

/-- The notice of a request taken as a REFRESH (R69, R72). -/
def renewNotice (h : Holder) : NoticeKind :=
  match h.state with
  | .waiting => .queued (h.target.getD .exclusive)
  | .upgrading => .queued .exclusive
  | _ => .granted h.state.level h.g

/-- ACQUIRE of either level (R67 to R69). -/
def decideAcquire (level : Level) (r c : Nat) (p : Params) (s : State) : Decision :=
  let h := s.holder r c
  match h.state with
  | .none => match level with
    | .shared => acquireSharedNew r c p s
    | .exclusive => acquireExclusiveNew r c p s
  | .yielding => (s, .denied .yielding)
  | _ => (renew r c p s, renewNotice h)

/-- UPGRADE (R70). -/
def decideUpgrade (r c : Nat) (s : State) : Decision :=
  let h := s.holder r c
  let others := (otherClients c).filter fun c' => (s.holder r c').state == .shared
  let wait (s : State) : State :=
    let s := moveHolder r c .upgrading s
    { s with din.prf := s.din.prf ++ [⟨c, r, .exclusive⟩] }
  if h.state ≠ .shared then (s, .denied .notHeld)
  else if s.isFrozen r then (s, .denied .frozen)
  else if pendingOther s r c then (s, .denied .contended)
  else if others = [] then
    if recordNames s r then
      if roomFor s 0 then (wait s, .queued .exclusive) else (s, .busy)
    else (moveHolder r c .exclusive s, .granted (some .exclusive) h.g)
  else if moreUrgent s r h.cls others then
    if roomFor s others.length then (wait (revokeAll .request r others s), .queued .exclusive) else (s, .busy)
  else (s, .denied .contended)

/-- DOWNGRADE (R71). -/
def decideDowngrade (r c : Nat) (s : State) : Decision :=
  let h := s.holder r c
  if h.state = .exclusive then (moveHolder r c .shared s, .granted (some .shared) h.g)
  else (s, .denied .notHeld)

/-- REFRESH (R72). -/
def decideRefresh (r c : Nat) (p : Params) (s : State) : Decision :=
  let h := s.holder r c
  match h.state with
  | .none | .yielding => (s, .denied .notHeld)
  | _ => (renew r c p s, renewNotice h)

/-- YIELD-DONE (R74). -/
def decideYieldDone (r c : Nat) (s : State) : Decision :=
  if (s.holder r c).state = .yielding then
    let cleared := match recordOf s r c with
      | some k => noticeClear k s
      | none => s
    (cleared, .granted none 0)
  else (s, .denied .notHeld)

/-- RELEASE (R73). -/
def decideRelease (r c : Nat) (s : State) : Decision :=
  match (s.holder r c).state with
  | .none => (s, .denied .notHeld)
  | .yielding => decideYieldDone r c s
  | _ => (moveHolder r c .none (removePrf r c s), .granted none 0)

/-- Whether the acquisition of a level would complete at once (R75). -/
def completesAtOnce (level : Level) (r c : Nat) (s : State) : Bool :=
  match (s.holder r c).state, level with
  | .none, .shared =>
    !s.isFrozen r && !pendingOther s r c && !someOther s r c (·.state == .exclusive)
  | .none, .exclusive =>
    !s.isFrozen r && !pendingOther s r c && (standingOthers s r c).isEmpty && !recordNames s r
  | .shared, .shared => true
  | .exclusive, .exclusive => true
  | _, _ => false

/-- RESERVE (R59). -/
def decideReserve (r c : Nat) (s : State) : Decision :=
  (s.setClient c { s.client c with reservation := some (r, s.generation r) }, .reserved (s.generation r))

/-- COMMIT-IF (R60): the reservation is consumed either way. -/
def decideCommitIf (level : Level) (generation : Nat) (r c : Nat) (p : Params) (s : State) : Decision :=
  let agrees := (s.client c).reservation == some (r, generation) && generation == s.generation r
  let s' := s.setClient c { s.client c with reservation := none }
  if agrees && completesAtOnce level r c s then decideAcquire level r c p s'
  else (s', .commitFailed)

end Sys2Proof.Machine
end

