-- ==== Sys2Proof/Machine/Channels.lean ====
section
/-! DEFINITION. The Channel Units (chapter 6): targets, ramp steps, the command handshake, faults and the effect of
the part state and the loop state on a channel. The reports of changes to the GTB and the SSU are in Sequences.lean. -/

namespace Sys2Proof.Machine

/-! ## Targets (R123 to R127) -/

/-- The largest of a list of settings, 0 for none. -/
def largest (l : List Nat) : Nat := l.foldl max 0

/-- The settings that the LEVEL bindings of one resource give a channel at the stored total (R124). -/
def levelSettings (s : State) (n r : Nat) : List Nat :=
  (s.resource r).bindings.filterMap fun b =>
    match b.mode with
    | .level curve => if b.channel = n then some (interpolate curve (s.chu.store.get r).total) else none
    | .split _ => none

/-- The LEVEL target of a channel (R124). -/
def levelTarget (s : State) (n : Nat) : Nat :=
  largest ((List.range 12).map fun r => largest (levelSettings s n r))

/-- The split client of a resource's SPLIT binding of a channel. -/
def splitClient (x : Resource) (n : Nat) : Option Nat :=
  x.bindings.findSome? fun b => match b.mode with
    | .split c => if b.channel = n then some c else none
    | .level _ => none

/-- The SPLIT binding that names a channel, as its resource and split client (R125). -/
def splitOf (s : State) (n : Nat) : Option (Nat × Nat) :=
  (List.range 12).findSome? fun r => (splitClient (s.resource r) n).map fun c => (r, c)

/-- The split position of a channel after a derivation (R125): kept while the resource's stored G is 0, and kept by a
channel that no SPLIT binding names. -/
def splitPosition (s : State) (n : Nat) (ch : Channel) : Nat :=
  match splitOf s n with
  | none => ch.split
  | some (r, c) =>
    let x := s.chu.store.get r
    if x.total = 0 then ch.split
    else valvePosition (ch.characteristic.getD []) (x.g c * 1000 / x.total)

/-- Step 3 of R127: a target from 1 to m − 1 becomes m on a channel already at m or above, and 0 otherwise. -/
def minimumRun (m : Nat) (current : Option Nat) (t : Nat) : Nat :=
  if 0 < m ∧ 0 < t ∧ t < m then
    match current with
    | some c => if m ≤ c then m else 0
    | none => 0
  else t

/-- A derivation of the target (R127). -/
def Channel.derive (s : State) (n : Nat) (ch : Channel) : Channel :=
  let split := splitPosition s n ch
  let binding := if (splitOf s n).isSome then split else levelTarget s n
  { ch with split := split, target := minimumRun ch.minRun ch.current (max binding ch.seqMin) }

/-- A channel derives its target, in ACTIVE and FAULTED (R126). -/
def deriveTarget (n : Nat) (s : State) : State :=
  s.modifyChannel n fun ch => if ch.state = .held then ch else ch.derive s n

/-! ## Commands (R130, R133, R134) -/

/-- A COMMAND frame sent for a channel, its record as it is after the sending: COMMANDS_SENT is counted and the
refresh timer restarted (R130, R133). -/
def transmit (n : Nat) (ch : Channel) (seq setting : Nat) (s : State) : State :=
  let s := countEvent .commandsSent (originate ch.station (.command seq ch.output setting) s)
  s.setChannel n (some { ch with refreshTimer := Timer.startUnlessZero s.now ch.refreshPeriod })

/-- A new COMMAND carrying a setting (R130); sent in DOWN it starts no ack timer (R134). -/
def sendNew (n setting : Nat) (s : State) : State :=
  match s.channel n with
  | none => s
  | some ch =>
    let seq := (ch.cmdSeq + 1) % 16
    let ack := if s.lpu.loop = .down then Timer.stopped else Timer.start s.now ch.ackLimit
    transmit n { ch with cmdSeq := seq, handshake := .awaiting seq setting 0, ackTimer := ack } seq setting s

/-- The outstanding COMMAND re-sent with the retries given (R130, R132, R134); in DOWN its ack timer is suspended. -/
def resend (n retries : Nat) (s : State) : State :=
  match s.channel n with
  | none => s
  | some ch =>
    match ch.handshake with
    | .clear => s
    | .awaiting seq setting _ =>
      let ack := if s.lpu.loop = .down then Timer.suspended (100 * ch.ackLimit) else Timer.start s.now ch.ackLimit
      transmit n { ch with handshake := .awaiting seq setting retries, ackTimer := ack } seq setting s

/-- What an ACTIVE channel does on a change of loop state (R134), the new state being in force. -/
def channelLoopChange (outOfDown : Bool) (n : Nat) (s : State) : State :=
  match s.channel n with
  | none => s
  | some ch =>
    if ch.state = .active then
      match ch.handshake with
      | .awaiting _ _ _ => resend n 0 s
      | .clear =>
        match outOfDown, ch.current with
        | true, some c => sendNew n c s
        | _, _ => s
    else s

/-- The CHU told of a change of loop state: every ACTIVE channel acts on it, in ascending number (R134). -/
def chuLoopChange (old : LoopState) (s : State) : State :=
  forEach (List.range 16) (channelLoopChange (decide (old = .down))) s

/-! ## Entry into states (R120, R128, R136, R139) -/

/-- Entry into ACTIVE: the target is derived, the ramp and refresh timers started, and an outstanding command
re-sent with retries 0 (R126, R128, R133, R136). -/
def enterActive (n : Nat) (s : State) : State :=
  let s := s.modifyChannel n fun ch =>
    { { ch with state := .active }.derive s n with
      rampTimer := Timer.start s.now ch.rampInterval
      refreshTimer := Timer.startUnlessZero s.now ch.refreshPeriod }
  resend n 0 s

/-- Entry into HELD: the ramp, ack and refresh timers are stopped (R136). -/
def Channel.enterHeld (ch : Channel) : Channel :=
  { ch with state := .held, rampTimer := .stopped, ackTimer := .stopped, refreshTimer := .stopped }

/-- Entry into FAULTED with a cause (R139). -/
def Channel.enterFaulted (ch : Channel) (cause : FaultCause) : Channel :=
  { ch with state := .faulted, cause := some cause, handshake := .clear, rampTimer := .stopped, ackTimer := .stopped,
            refreshTimer := .stopped }

/-- A channel faulted by its own doing: FAULTED with the cause, and alert CHANNEL (R139), before the reports (log 26). -/
def faultChannel (n : Nat) (cause : FaultCause) (s : State) : State :=
  raiseAlert .channel n (s.modifyChannel n (·.enterFaulted cause))

/-- The channels of a station that has been declared FAULTY: FAULTED with cause STATION, a FAULTED one unchanged
(R139). -/
def chuStationFault (a : Nat) (s : State) : State :=
  forEach (List.range 16) (fun n s => s.modifyChannel n fun ch =>
    if ch.station = a ∧ ch.state ≠ .faulted then ch.enterFaulted .station else ch) s

/-- A channel leaving HELD or FAULTED for service: fault cause absent, current setting UNKNOWN; ACTIVE when it may run,
HELD otherwise (R138, R139). -/
def returnChannel (n : Nat) (run : Bool) (s : State) : State :=
  let s := s.modifyChannel n fun ch => { ch with state := .held, cause := none, current := none, handshake := .clear }
  if run then enterActive n s else s.modifyChannel n (·.enterHeld)

/-- The channels of a station that has left FAULTY: those with cause STATION leave FAULTED (R139). -/
def chuStationReturn (a : Nat) (s : State) : State :=
  forEach (List.range 16) (fun n s =>
    match s.channel n with
    | none => s
    | some ch =>
      if ch.station = a ∧ ch.state = .faulted ∧ ch.cause = some .station then
        returnChannel n (s.mgu.part == .run && !ch.hold) s
      else s) s

/-- Entry of the part into HALTED: every ACTIVE channel becomes HELD (R136). -/
def chuHalt (s : State) : State :=
  forEach (List.range 16) (fun n s => s.modifyChannel n fun ch =>
    if ch.state = .active then ch.enterHeld else ch) s

/-- START: every HELD channel without a supervisor hold becomes ACTIVE (R136). The channels act, and re-send, in ascending
number, which is the model's choice (log 36). -/
def chuStart (s : State) : State :=
  forEach (List.range 16) (fun n s =>
    match s.channel n with
    | none => s
    | some ch => if ch.state = .held ∧ !ch.hold then enterActive n s else s) s

/-- The kept fields of a loaded channel after RESTART or a structural load (R121, R142). -/
def Channel.afterRestart (ch : Channel) : Channel :=
  { ch with state := .held, hold := false, cause := none, current := none, target := 0, split := 0, seqMin := 0,
            handshake := .clear, cmdSeq := 0, lastActual := none, rampTimer := .stopped, ackTimer := .stopped,
            refreshTimer := .stopped }

/-! ## Ramp, acknowledgement, timeout and refresh (R129, R131 to R133) -/

/-- The new current setting of a ramp step (R129). -/
def rampStep (ch : Channel) : Nat :=
  match ch.current with
  | none => ch.target
  | some c =>
    if c = ch.target then c
    else if c < ch.target then
      max (min (c + ch.slew) ch.target) ch.minRun
    else
      let x := max (c - ch.slew) ch.target
      if x < ch.minRun then 0 else x

/-- A ramp timer expiry taken by an ACTIVE channel (R128, R129): the timer restarts, the setting steps, and a COMMAND
carries a changed setting when the handshake is CLEAR. -/
def rampExpiry (n : Nat) (s : State) : State :=
  match s.channel n with
  | none => s
  | some ch =>
    let new := rampStep ch
    let s := s.setChannel n
      (some { ch with rampTimer := Timer.start s.now ch.rampInterval, current := some new })
    if ch.current ≠ some new ∧ ch.handshake = .clear then sendNew n new s else s

/-- An acknowledgement (R131): the handshake clears and the actual is recorded, above 1023 as 1023 (R160). A set fault
flag faults the channel; otherwise an ACTIVE channel whose setting has moved sends it. -/
def acknowledge (n : Nat) (ch : Channel) (sent : Nat) (e : StatusEntry) (s : State) : State :=
  let s := s.setChannel n
    (some { ch with handshake := .clear, ackTimer := .stopped, lastActual := some (min e.actual 1023) })
  if e.fault then faultChannel n .status s
  else
    match ch.state, ch.current with
    | .active, some c => if c ≠ sent then sendNew n c s else s
    | _, _ => s

/-- A STATUS entry taken by a channel according to its handshake (R131). -/
def takeStatusEntry (n : Nat) (e : StatusEntry) (s : State) : State :=
  match s.channel n with
  | none => s
  | some ch =>
    match ch.handshake with
    | .clear => s
    | .awaiting seq sent _ =>
      if e.seq = seq then acknowledge n ch sent e s else countEvent .staleStatus s

/-- The channel that takes a STATUS entry: the loaded one of the frame's source and the entry's output (R131). -/
def channelOf (s : State) (a output : Nat) : Option Nat :=
  lowest 16 fun n => match s.channel n with
    | some ch => ch.station == a && ch.output == output
    | none => false

/-- An ack timer expiry (R132). -/
def ackExpiry (n : Nat) (s : State) : State :=
  match s.channel n with
  | none => s
  | some ch =>
    match ch.handshake with
    | .clear => s
    | .awaiting _ _ retries =>
      let s := countEvent .ackTimeouts s
      if retries < 2 then resend n (retries + 1) s else faultChannel n .ackTimeout s

/-- A refresh timer expiry (R133). -/
def refreshExpiry (n : Nat) (s : State) : State :=
  match s.channel n with
  | none => s
  | some ch =>
    match ch.handshake, ch.current with
    | .clear, some c => sendNew n c s
    | _, _ => s.setChannel n (some { ch with refreshTimer := Timer.startUnlessZero s.now ch.refreshPeriod })

end Sys2Proof.Machine
end

