-- ==== Sys2Proof/Machine/Sequences.lean ====
section
/-! DEFINITION. The Start/Stop Sequence Unit (chapter 7), and the reports by which the CHU tells the GTB and the SSU what
has become of a channel (R135). -/

namespace Sys2Proof.Machine

/-! ## Minimums (R119, R144) -/

/-- The steps whose minimums a slot has placed, by the table of R144. -/
def Slot.placed (sl : Slot) : List Step :=
  match sl.state with
  | .stopped | .failed => []
  | .starting i => sl.steps.take i
  | .running => sl.steps
  | .stopping i => sl.steps.take (i - 1)

/-- The run settings that one slot places on a channel. -/
def Slot.minimumsOn (sl : Slot) (n : Nat) : List Nat :=
  (sl.placed.filter fun st => st.channel == n).map (·.run)

/-- The sequence minimum of a channel: the largest run setting any slot places on it (R119). -/
def sequenceMinimum (s : State) (n : Nat) : Nat :=
  largest ((List.range 4).map fun k => match s.slot k with
    | some sl => largest (sl.minimumsOn n)
    | none => 0)

/-- A minimum placed on or removed from a channel: an event at the channel, which takes its sequence minimum and derives
its target afresh (R144, R126). -/
def refreshMinimum (n : Nat) (s : State) : State :=
  deriveTarget n (s.modifyChannel n fun ch => { ch with seqMin := sequenceMinimum s n })

/-! ## Steps (R148, R152) -/

/-- Step number `i` of a slot; steps are numbered from 1. -/
def Slot.step (sl : Slot) (i : Nat) : Option Step :=
  if i = 0 then none else sl.steps[i - 1]?

/-- The step a slot is in, when it is STARTING or STOPPING. -/
def Slot.currentStep (sl : Slot) : Option Step :=
  match sl.state with
  | .starting i | .stopping i => sl.step i
  | _ => none

/-- Whether a channel's current setting is known and at least `run` (R148). -/
def settingAtLeast (s : State) (n run : Nat) : Bool :=
  match s.channel n with
  | some ch => match ch.current with
    | some c => decide (run ≤ c)
    | none => false
  | none => false

/-- Whether slot `k` is in a step on channel `n` and that step is complete: Settled, and in a start at its run setting or
above (R148, R152). -/
def completeOn (s : State) (k n : Nat) : Bool :=
  match s.slot k with
  | none => false
  | some sl => match sl.currentStep with
    | none => false
    | some st =>
      st.channel == n && settled s n &&
        match sl.state with
        | .starting _ => settingAtLeast s n st.run
        | _ => true

/-- The slot becomes STOPPED at the end of a stop, and its rest begins (R153). -/
def slotRests (k : Nat) (sl : Slot) (s : State) : State :=
  s.setSlot k (some
    { sl with state := .stopped, watch := .stopped, antiCycleTimer := Timer.startUnlessZero s.now (1000 * sl.antiCycle) })

/-- A slot enters a step of a start or a stop (R148, R152): the step's minimum is placed or removed, its watch started,
and its completion tested; `advance` moves on a slot whose step is complete. A channel that becomes Settled by it is
reported to the GTB and to every slot, in ascending number (R135; log 29). -/
def enterStep (advance : Nat → State → State) (k : Nat) (st : SlotState) (s : State) : State :=
  match s.slot k with
  | none => s
  | some sl =>
    let sl := { sl with state := st }
    match sl.currentStep with
    | none => s.setSlot k (some sl)
    | some step =>
      let n := step.channel
      let before := s.setSlot k (some { sl with watch := Timer.start s.now (1000 * step.limit) })
      let after := refreshMinimum n before
      let test (k : Nat) (s : State) : State := if completeOn s k n then advance k s else s
      if !settled before n && settled after n then forEach [0, 1, 2, 3] test (reportToGtb n after)
      else test k after

/-- A slot whose current step is complete moves on (R148, R152): to the next step, to RUNNING, or to STOPPED. The fuel
bounds the number of steps that complete within one event. -/
def advanceSlot : Nat → Nat → State → State
  | 0, _, s => s
  | fuel + 1, k, s =>
    match s.slot k with
    | none => s
    | some sl =>
      match sl.state with
      | .starting i =>
        if sl.steps.length ≤ i then s.setSlot k (some { sl with state := .running, watch := .stopped })
        else enterStep (advanceSlot fuel) k (.starting (i + 1)) s
      | .stopping i =>
        if i ≤ 1 then slotRests k sl s
        else enterStep (advanceSlot fuel) k (.stopping (i - 1)) s
      | _ => s

/-- More than the number of steps that can complete within one event. -/
def sequenceFuel (s : State) : Nat :=
  ((List.range 4).map fun k => match s.slot k with
    | some sl => sl.steps.length + 2
    | none => 0).sum

/-- A slot moves on from a complete step. -/
def stepDone (k : Nat) (s : State) : State := advanceSlot (sequenceFuel s) k s

/-- A slot enters a step. -/
def startStep (k : Nat) (st : SlotState) (s : State) : State := enterStep (advanceSlot (sequenceFuel s)) k st s

/-- The CHU's Settled report of a channel, taken by every slot (R135, R148, R152), in ascending slot number, which is the
model's choice (log 29). -/
def reportToSsu (n : Nat) (s : State) : State :=
  forEach [0, 1, 2, 3] (fun k s => if completeOn s k n then stepDone k s else s) s

/-- The reports of an event that has taken the channels from `before` to `s` (R135): each channel that became Settled,
FAULTED or IDLE is reported to the GTB, then each that became Settled to the SSU (log 29). -/
def reportChanges (before s : State) : State :=
  let settledNow := (List.range 16).filter fun n => !settled before n && settled s n
  let lostNow := (List.range 16).filter fun n => !lost before n && lost s n
  forEach settledNow reportToSsu (forEach ((List.range 16).filter fun n => settledNow.contains n || lostNow.contains n)
    reportToGtb s)

/-! ## Failing, stopping, aborting (R149, R151, R152) -/

/-- A slot becomes FAILED: its placed minimums are removed, its watch and stop-delay timers stopped, and alert SEQUENCE
raised (R149). The alert goes before the reports of the channels, which is the model's choice (log 29). -/
def failSlot (k : Nat) (s : State) : State :=
  match s.slot k with
  | none => s
  | some sl =>
    let failed := s.setSlot k (some { sl with state := .failed, watch := .stopped, stopDelayTimer := .stopped })
    let s' := forEach (sl.placed.map (·.channel)) refreshMinimum failed
    reportChanges s (raiseAlert .sequence k s')

/-- The abort of a start in its step `i` (R151): the step's minimum is removed with no watch, and the slot stops from
the steps it had brought up. -/
def abortStart (k i : Nat) (sl : Slot) (s : State) : State :=
  let n := ((sl.step i).map (·.channel)).getD 16
  if i ≤ 1 then reportChanges s (refreshMinimum n (slotRests k sl s))
  else
    let left := s.setSlot k (some { sl with state := .stopping (i - 1), watch := .stopped })
    let removed := reportChanges s (refreshMinimum n left)
    if (removed.slot k).map (·.state) = some (.stopping (i - 1)) then startStep k (.stopping (i - 1)) removed
    else removed

/-- A slot's stop-delay timer expires (R151). -/
def stopDelayExpired (k : Nat) (s : State) : State :=
  match s.slot k with
  | none => s
  | some sl =>
    let sl := { sl with stopDelayTimer := .stopped }
    let s := s.setSlot k (some sl)
    match sl.state with
    | .running => startStep k (.stopping sl.steps.length) s
    | .starting i => abortStart k i sl s
    | _ => s

/-! ## The pass start (R147) -/

/-- What a slot does with its claim sum at a pass start (R147). -/
def slotPassStart (k : Nat) (claimSum : Nat) (s : State) : State :=
  match s.slot k with
  | none => s
  | some sl =>
    let sl := { sl with claimSum := claimSum }
    let s := s.setSlot k (some sl)
    match sl.state with
    | .stopped =>
      if 0 < claimSum ∧ !sl.antiCycleTimer.isRunning then startStep k (.starting 1) s else s
    | .starting _ | .running =>
      if 0 < claimSum then s.setSlot k (some { sl with stopDelayTimer := .stopped })
      else if sl.stopDelayTimer = .stopped then
        if sl.stopDelay = 0 then stopDelayExpired k s
        else s.setSlot k (some { sl with stopDelayTimer := Timer.start s.now (1000 * sl.stopDelay) })
      else s
    | _ => s

/-! ## Part states (R155, R158) -/

/-- Entry into HALTED: running watch and stop-delay timers are suspended (R155). -/
def ssuHalt (s : State) : State :=
  { s with ssu.slots := s.ssu.slots.map fun x => x.map fun sl =>
      { sl with watch := sl.watch.suspend s.now, stopDelayTimer := sl.stopDelayTimer.suspend s.now } }

/-- START from HALTED: suspended watch and stop-delay timers resume (R155). -/
def ssuResume (s : State) : State :=
  { s with ssu.slots := s.ssu.slots.map fun x => x.map fun sl =>
      { sl with watch := sl.watch.resume s.now, stopDelayTimer := sl.stopDelayTimer.resume s.now } }

/-- The kept fields of a loaded slot after RESTART or a structural load (R145, R158). -/
def Slot.afterRestart (now : Nat) (sl : Slot) : Slot :=
  { sl with state := .stopped, watch := .stopped, stopDelayTimer := .stopped,
            antiCycleTimer := Timer.startUnlessZero now (1000 * sl.antiCycle), claimSum := 0 }

end Sys2Proof.Machine
end

