-- ==== Sys2Proof/Machine/Leases.lean ====
section
/-! DEFINITION. Lease lapses (R50, R51) and the consequences a client's faulty station has in the DIN and the GTB (R53,
R79). -/

namespace Sys2Proof.Machine

/-- The holders of a resource, each changed by `f`. -/
def Holders.map (f : Holder → Holder) (hs : Holders) : Holders :=
  { drive := f hs.drive, pack := f hs.pack, cab := f hs.cab }

/-- Every holder changed by `f`. -/
def mapHolders (f : Holder → Holder) (s : State) : State :=
  { s with gtb.holders := s.gtb.holders.map (·.map f) }

/-- Running lease timers suspended at entry into HALTED (R49). -/
def suspendLeases (s : State) : State := mapHolders (fun h => { h with lease := h.lease.suspend s.now }) s

/-- Suspended lease timers resumed at START from HALTED (R49). -/
def resumeLeases (s : State) : State := mapHolders (fun h => { h with lease := h.lease.resume s.now }) s

/-- Alert LEASE for a lapse of a client whose lapse-alert mark is set, which clears the mark (R51). -/
def lapseAlert (c : Nat) (s : State) : State :=
  if (s.client c).lapseAlert then
    raiseAlert .lease c (s.setClient c { s.client c with lapseAlert := false })
  else s

/-- What every lapse brings: LEASE_LAPSES, the LAPSED notice and the lapse alert (R50, R51), the notice first (log 26). -/
def noteLapse (r c : Nat) (kept : Bool) (s : State) : State :=
  lapseAlert c (notify c [⟨r, .lapsed kept⟩] (countEvent .leaseLapses s))

/-- The lapse of a holder kept at its fallback quantity (R50). -/
def lapseToFallback (r c : Nat) (s : State) : State :=
  let h := s.holder r c
  noteLapse r c true
    (s.setHolder r c { h with q := h.fallback.getD 0, f := 0, lapsed := true, lease := .stopped })

/-- The lapse of a holder that leaves (R50). -/
def lapseToNone (r c : Nat) (s : State) : State :=
  noteLapse r c false (moveHolder r c .none (removePrf r c s))

/-- The lapse policy of a client (R40). -/
def policyOf (s : State) (c : Nat) : LapsePolicy :=
  ((s.client c).entry.map (·.policy)).getD .release

/-- A lease lapses, by the holder's state and the client's policy (R50). A holder without a lease, or lapsed already,
changes nothing (R49, R53). -/
def lapse (r c : Nat) (s : State) : State :=
  let h := s.holder r c
  if h.lapsed then s
  else match h.state with
    | .none | .yielding => s
    | .waiting => lapseToNone r c s
    | .shared | .upgrading | .exclusive =>
      match policyOf s c with
      | .release => lapseToNone r c s
      | .fallback => lapseToFallback r c s

/-- The clients whose loaded entries name a station, in ascending order. -/
def clientsAt (s : State) (a : Nat) : List Nat :=
  [0, 1, 2].filter fun c => match (s.client c).entry with
    | some e => e.station == a
    | none => false

/-- The DIN's part of a FAULTY declaration: every lease of the client lapses, in ascending resource number, and its
reservation becomes absent (R53). -/
def dinStationFault (a : Nat) (s : State) : State :=
  forEach (clientsAt s a) (fun c s =>
    let s := forEach (List.range 12) (fun r s => lapse r c s) s
    s.setClient c { s.client c with reservation := none }) s

/-- The GTB's part of a FAULTY declaration: the notice marks of the client's records clear (R79), in
ascending record number, which is the model's choice (log 41). -/
def gtbStationFault (a : Nat) (s : State) : State :=
  let cs := clientsAt s a
  forEach (List.range 8) (fun k s =>
    match s.record k with
    | some v => if cs.contains v.client then noticeClear k s else s
    | none => s) s

end Sys2Proof.Machine
end

