-- ==== Sys2Proof/Machine/ProbeHead.lean ====
section
/-! DEFINITION. The execution of supervisor probes: what each of the seven kinds does (R85 to R87), and the test of the
head of the probe queue, which every event that can end its stall brings about (R80, R84). -/

namespace Sys2Proof.Machine

/-! ## What the kinds do -/

/-- What EVICT does (R85). -/
def doEvict (p : Probe) (s : State) : State :=
  if (s.holder p.resource p.client).state.revocable then revoke .probe p.resource p.client s else s

/-- What EVICT-ALL does to one holder (R85). -/
def evictOne (r c : Nat) (s : State) : State :=
  match (s.holder r c).state with
  | .waiting => notify c [⟨r, .denied .evicted⟩] (moveHolder r c .none (removePrf r c s))
  | .shared | .upgrading | .exclusive => revoke .probe r c s
  | .none | .yielding => s

/-- What EVICT-ALL does (R85): the holders in ascending client number. -/
def doEvictAll (p : Probe) (s : State) : State := forEach [0, 1, 2] (evictOne p.resource) s

/-- What DEMOTE does to one holder (R86). -/
def demoteOne (r c : Nat) (s : State) : State :=
  if (s.holder r c).state = .exclusive then
    notify c [⟨r, .granted (some .shared) (s.holder r c).g⟩] (moveHolder r c .shared s)
  else s

/-- What DEMOTE does (R86). -/
def doDemote (p : Probe) (s : State) : State := forEach [0, 1, 2] (demoteOne p.resource) s

/-- What FREEZE does (R86). -/
def doFreeze (p : Probe) (s : State) : State := { s with gtb.frozen := s.gtb.frozen.set p.resource true }

/-- What THAW does (R86). -/
def doThaw (p : Probe) (s : State) : State := { s with gtb.frozen := s.gtb.frozen.set p.resource false }

/-- What CAP does (R9, R87). -/
def doCap (p : Probe) (s : State) : State :=
  s.setResource p.resource { s.resource p.resource with probeCap := some p.quantity }

/-- What UNCAP does (R9, R87). -/
def doUncap (p : Probe) (s : State) : State :=
  s.setResource p.resource { s.resource p.resource with probeCap := none }

/-- What a probe does when it executes, by its kind (R85 to R87). -/
def Probe.act (p : Probe) (s : State) : State :=
  match p.kind with
  | .evict => doEvict p s
  | .evictAll => doEvictAll p s
  | .demote => doDemote p s
  | .freeze => doFreeze p s
  | .thaw => doThaw p s
  | .cap => doCap p s
  | .uncap => doUncap p s

/-! ## The head of the queue (R84; log 3) -/

/-- The head of the probe queue executes: it leaves the queue, its changes are made, and REPLY DONE goes to the
management station with its sequence number (R84). -/
def runHead (p : Probe) (rest : List Probe) (s : State) : State :=
  let t := p.act { s with gtb.probes := rest }
  originate t.mgu.manager (.reply p.seq { op := 15, status := .done }) t

/-- The head of the queue `l` tested, and the new head at once after each execution: probes execute one after another
until a head stalls or the queue is empty (R84). -/
def testHeads (l : List Probe) (s : State) : State :=
  match l with
  | [] => s
  | p :: rest => if probeReady s p then testHeads rest (runHead p rest s) else s

/-- The GTB's test of the head of the probe queue, made when an event has been taken whole (R80, R84). -/
def testHead (s : State) : State := testHeads s.gtb.probes s

end Sys2Proof.Machine
end

