-- ==== Sys2Proof/Machine/Stations.lean ====
section
/-! DEFINITION. The Station Monitor (chapter 9): evidence of life, polling, the FAULTY declaration with its consequences
in every block (R183), return (R184, R185), and the part's entry into HALTED (R198). -/

namespace Sys2Proof.Machine

/-! ## Consequences in the PST and the MGU -/

/-- A mapped point as the fault of its source station leaves it (R35). That a point STALE or SUBSTITUTED already loses
its candidate is the model's choice (log 35). -/
def Point.stationFault (pt : Point) : Point :=
  match pt.quality with
  | .fresh | .held | .none =>
    { pt with quality := if pt.substitute.isSome then .substituted else .stale, staleTimer := .stopped,
              candidate := none }
  | .stale | .substituted => { pt with staleTimer := .stopped, candidate := none }

/-- The PST's part of a FAULTY declaration, with alert POINT at each entry into STALE (R33, R35). The points are taken in
ascending number, which is the model's choice (log 34). -/
def pstStationFault (a : Nat) (s : State) : State :=
  forEach (List.range 48) (fun p s =>
    let pt := s.point p
    match pt.source with
    | some (station, _) =>
      if station = a then
        let pt' := pt.stationFault
        let s := s.setPoint p pt'
        if pt'.quality = .stale ∧ pt.quality ≠ .stale then raiseAlert .point p s else s
      else s
    | none => s) s

/-- The ALE as the part leaves RUN: the pass in progress is abandoned and the pass timer stopped (R91, R93). -/
def leaveRun (s : State) : State :=
  { s with ale.pass := none, ale.passTimer := .stopped }

/-- The part's entry into HALTED (R198): alert HALT, the pass abandoned, channels HELD, lease and sequence timers
suspended. -/
def enterHalted (s : State) : State :=
  let s := raiseAlert .halt 0 { s with mgu.part := .halted }
  ssuHalt (suspendLeases (chuHalt (leaveRun s)))

/-- The MGU's part of a FAULTY declaration (R183, R197, R198). -/
def mguStationFault (s : State) : State :=
  if s.stm.returnMode = .halt ∧ s.mgu.part = .run then enterHalted s else s

/-! ## The FAULTY declaration (R183) -/

/-- The CHU's part of a FAULTY declaration, with its reports (R139, R135). -/
def chuDeclaration (a : Nat) (s : State) : State := reportChanges s (chuStationFault a s)

/-- Record `i` declared FAULTY: its own state, alert STATION, then each block's consequence in the order of the table of
R183 (log 9), and the test of the head of the probe queue (R84). -/
def declareFaulty (i : Nat) (s : State) : State :=
  match s.station i with
  | none => s
  | some st =>
    let a := st.address
    let s := s.setStation i (some
      { st with state := .faulty, silenceTimer := .stopped, pollTimer := .stopped, heard := false })
    let s := raiseAlert .station a s
    testHead (mguStationFault (gtbStationFault a (dinStationFault a (chuDeclaration a (pstStationFault a s)))))

/-! ## Silence and polling (R180 to R182) -/

/-- A POLL frame to a station, counted in POLLS_SENT (R181). -/
def sendPoll (a : Nat) (s : State) : State := countEvent .pollsSent (originate a .poll s)

/-- A silence timer expiry in ABSENT or ONLINE (R181). -/
def silenceExpired (i : Nat) (st : Station) (s : State) : State :=
  let s := sendPoll st.address s
  if s.stm.retryLimit = 0 then declareFaulty i s
  else s.setStation i (some
    { st with state := .polling 0, silenceTimer := .stopped, pollTimer := Timer.start s.now s.stm.pollTimeout })

/-- A poll timer expiry in POLLING(n) (R182). -/
def pollExpired (i n : Nat) (st : Station) (s : State) : State :=
  let st := { st with retryCount := min 255 (st.retryCount + 1) }
  if s.stm.retryLimit ≤ n + 1 then declareFaulty i (s.setStation i (some st))
  else
    let s := sendPoll st.address s
    s.setStation i (some
      { st with state := .polling (n + 1), pollTimer := Timer.start s.now s.stm.pollTimeout })

/-- A station that is ONLINE from now on: silence timer restarted, poll timer stopped, heard mark clear (R180, R184,
R185). -/
def Station.goOnline (now : Nat) (st : Station) : Station :=
  { st with state := .online, silenceTimer := Timer.start now st.silenceLimit, pollTimer := .stopped, heard := false }

/-- The consequences that a station's leaving FAULTY has in the CHU, with its reports (R139); its points change only at
their own next acceptance (R36). -/
def stationReturned (a : Nat) (s : State) : State := reportChanges s (chuStationReturn a s)

/-- A FAULTY station returned to ONLINE (R184, R185). -/
def returnStation (i : Nat) (st : Station) (s : State) : State :=
  stationReturned st.address (s.setStation i (some (st.goOnline s.now)))

/-- A valid frame of a station taken as evidence of life, by the station's state (R180, R184). -/
def stationHeard (a : Nat) (s : State) : State :=
  match stationRecord a s with
  | none => s
  | some i =>
    match s.station i with
    | none => s
    | some st =>
      match st.state with
      | .faulty =>
        match s.stm.returnMode with
        | .auto => returnStation i st s
        | .manual | .halt => s.setStation i (some { st with heard := true })
      | .absent | .online | .polling _ => s.setStation i (some { st.goOnline s.now with heard := st.heard })

/-- A valid frame from another station as the FSU first takes it (R163 steps 2 and 3): evidence of life, then
UNKNOWN_SOURCE for a source without a record. Source 0 is the arbiter's own. -/
def arrive (src : Nat) (s : State) : State :=
  if src = 0 then s
  else
    let s := stationHeard src s
    if (stationRecord src s).isNone then countEvent .unknownSource s else s

/-! ## Reset (R188) -/

/-- The kept fields of the loaded records after RESTART (R188): ABSENT, the silence timer started in the station's
record and stopped in a later record of the same address (R178). -/
def stmRestart (s : State) : State :=
  { s with stm.stations := Table.build 30 fun i => (s.station i).map fun st =>
      { st with state := .absent, pollTimer := .stopped, heard := false,
                silenceTimer :=
                  if stationRecord st.address s = some i then Timer.start s.now st.silenceLimit else .stopped } }

end Sys2Proof.Machine
end

