-- ==== Sys2Proof/Machine/Demands.lean ====
section
/-! DEFINITION. The Demand Intake's items (R42 to R46): admission of their frame, the checks, the decision, the
frame's NOTICE; the meanings of the eleven DEMAND rows and of LEASE_EXPIRY and YIELD_TIMER_EXPIRY. -/

namespace Sys2Proof.Machine

/-! ## One item (R44 to R46) -/

/-- The first check of R44 that an item fails. -/
def itemRefusal (op : ItemOp) (it : DemandItem) (s : State) : Option Reason :=
  if op = .bad then some .badItem
  else match s.mgu.part with
    | .config => some .notRunning
    | .halted => some .halted
    | .run =>
      match (s.resource it.resource).kind with
      | .plain | .child => none
      | _ => some .badResource

/-- The GTB's or the DIN's decision of a checked and clamped item (R46). -/
def decideItem (op : ItemOp) (r c : Nat) (p : Params) (s : State) : Decision :=
  match op with
  | .acquire level => decideAcquire level r c p s
  | .upgrade => decideUpgrade r c s
  | .downgrade => decideDowngrade r c s
  | .refresh => decideRefresh r c p s
  | .release => decideRelease r c s
  | .yieldDone => decideYieldDone r c s
  | .reserve => decideReserve r c s
  | .commitIf level generation => decideCommitIf level generation r c p s
  | .bad => (s, .denied .badItem)

/-- Whether a notice is a refusal that DEMANDS_DENIED counts (R44, R46). -/
def NoticeKind.refuses : NoticeKind → Bool
  | .denied _ | .busy => true
  | _ => false

/-- A decision whose refusal, if it is one, is counted in DEMANDS_DENIED (R44, R46). -/
def countRefusal (d : Decision) : Decision :=
  if d.2.refuses then (countEvent .demandsDenied d.1, d.2) else d

/-- A whole item of a client: counted, checked, clamped and decided (R44 to R46). -/
def takeClientItem (c : Nat) (op : ItemOp) (it : DemandItem) (s : State) : Decision :=
  let s := countEvent .demandItems s
  countRefusal
    (match itemRefusal op it s with
    | some reason => (s, .denied reason)
    | none => decideItem op it.resource c (clampItem it) s)

/-! ## The frame of an item (R42, R43; log 4) -/

/-- The client whose items a DEMAND frame's source gives, when they are taken (R42): none for a source that is no
client's station, or is FAULTY still after the frame's arrival. -/
def takenClient (src : Nat) (s : State) : Option Nat :=
  if stationFaulty src s then none else clientOf src s

/-- The arrival of an item's frame, at its first item (R163, R42). -/
def openFrame (d : DemandCtx) (s : State) : State :=
  if d.first then
    let s := arrive d.src s
    { s with din.draft := [] }
  else s

/-- The notice of an item joins the frame's NOTICE, which is sent when nothing follows the item (R42). -/
def answerItem (d : DemandCtx) (n : Notice) (s : State) : State :=
  let draft := s.din.draft ++ [n]
  if d.last then originate d.src (.notice d.seq false draft) { s with din.draft := [] }
  else { s with din.draft := draft }

/-- A whole item as its step takes it: its frame's admission, then the item of a taken frame with the test of the head
of the probe queue (R84), or its discarding (R42). -/
def demandStep (d : DemandCtx) (op : ItemOp) (it : DemandItem) (s : State) : State :=
  let s := openFrame d s
  match takenClient d.src s with
  | none => countEvent .demandsDenied s
  | some c =>
    let r := takeClientItem c op it s
    testHead (answerItem d ⟨it.resource, r.2⟩ r.1)

/-- The remainder of a payload (R43): after whole items it is answered DENIED(MALFORMED) naming resource 15 and counted
once; a payload that holds no whole item is counted once and not answered (log 19). -/
def malformedStep (d : DemandCtx) (s : State) : State :=
  let s := openFrame d s
  if d.first then countEvent .demandsDenied s
  else match takenClient d.src s with
    | none => s
    | some _ => answerItem { d with last := true } ⟨15, .denied .malformed⟩ (countEvent .demandsDenied s)

/-- The steps of a frame's whole items, each with its place in the frame: `first` until one has been taken, `more` when
a remainder follows them all. -/
def itemSteps (input : Ring) (src seq : Nat) (more : Bool) :
    Bool → List (ItemOp × DemandItem) → List (DemandCtx × Option (ItemOp × DemandItem))
  | _, [] => []
  | first, x :: rest =>
    ({ input := input, src := src, seq := seq, first := first, last := !more && rest.isEmpty }, some x) ::
      itemSteps input src seq more false rest

/-- The steps of a DEMAND frame to address 0: its whole items, then its remainder if there is one, or a remainder alone
when the payload holds no whole item (R43). -/
def frameSteps (input : Ring) (src seq : Nat) (payload : List Byte) :
    List (DemandCtx × Option (ItemOp × DemandItem)) :=
  let items := takeItems 4 payload
  itemSteps input src seq (!items.2.isEmpty) true items.1 ++
    if items.1 = [] then [({ input := input, src := src, seq := seq, first := true, last := true }, none)]
    else if items.2 = [] then []
    else [({ input := input, src := src, seq := seq, first := false, last := true }, none)]

/-- One step of a DEMAND frame. -/
def takeDemandStep (s : State) (x : DemandCtx × Option (ItemOp × DemandItem)) : State :=
  match x.2 with
  | some it => demandStep x.1 it.1 it.2 s
  | none => malformedStep x.1 s

/-! ## Meanings -/

/-- ACQUIRE_SHARED (R67). -/
def execAcquireShared (d : DemandCtx) (it : DemandItem) (s : State) : Host.Outcome State Fault Refusal :=
  .next (demandStep d (.acquire .shared) it s)

/-- ACQUIRE_EXCLUSIVE (R68). -/
def execAcquireExclusive (d : DemandCtx) (it : DemandItem) (s : State) : Host.Outcome State Fault Refusal :=
  .next (demandStep d (.acquire .exclusive) it s)

/-- UPGRADE (R70). -/
def execUpgrade (d : DemandCtx) (it : DemandItem) (s : State) : Host.Outcome State Fault Refusal :=
  .next (demandStep d .upgrade it s)

/-- DOWNGRADE (R71). -/
def execDowngrade (d : DemandCtx) (it : DemandItem) (s : State) : Host.Outcome State Fault Refusal :=
  .next (demandStep d .downgrade it s)

/-- REFRESH (R72). -/
def execRefresh (d : DemandCtx) (it : DemandItem) (s : State) : Host.Outcome State Fault Refusal :=
  .next (demandStep d .refresh it s)

/-- RELEASE (R73). -/
def execRelease (d : DemandCtx) (it : DemandItem) (s : State) : Host.Outcome State Fault Refusal :=
  .next (demandStep d .release it s)

/-- YIELD_DONE (R74). -/
def execYieldDone (d : DemandCtx) (it : DemandItem) (s : State) : Host.Outcome State Fault Refusal :=
  .next (demandStep d .yieldDone it s)

/-- RESERVE (R59). -/
def execReserve (d : DemandCtx) (it : DemandItem) (s : State) : Host.Outcome State Fault Refusal :=
  .next (demandStep d .reserve it s)

/-- COMMIT_IF (R60). -/
def execCommitIf (d : DemandCtx) (it : DemandItem) (level : Level) (generation : Nat) (s : State) :
    Host.Outcome State Fault Refusal :=
  .next (demandStep d (.commitIf level generation) it s)

/-- BAD_ITEM (R44). -/
def execBadItem (d : DemandCtx) (it : DemandItem) (s : State) : Host.Outcome State Fault Refusal :=
  .next (demandStep d .bad it s)

/-- MALFORMED (R43). -/
def execMalformed (d : DemandCtx) (s : State) : Host.Outcome State Fault Refusal :=
  .next (malformedStep d s)

/-- LEASE_EXPIRY (R50): the lease timer runs in a state that has a lease, and its expiry lapses the holder; the head of
the probe queue is tested (R84). -/
def execLeaseExpiry (r c : Nat) (s : State) : Host.Outcome State Fault Refusal :=
  match expire (s.holder r c).lease s with
  | none => .next s
  | some s => .next (testHead (lapse r c s))

/-- YIELD_TIMER_EXPIRY (R79): alert YIELD-OVERDUE, the notice mark clears (in that order: log 26), and the head of the
probe queue is tested (R84). -/
def execYieldTimerExpiry (k : Nat) (s : State) : Host.Outcome State Fault Refusal :=
  match s.record k with
  | none => .next s
  | some v =>
    match expire v.timer s with
    | none => .next s
    | some s => .next (testHead (noticeClear k (raiseAlert .yieldOverdue v.resource s)))

end Sys2Proof.Machine
end

