-- ==== Sys2Proof/Machine/Points.lean ====
section
/-! DEFINITION. The Point Store (chapter 2): the handling of a sample, the stale timer's expiry and the points' reset. -/

namespace Sys2Proof.Machine

/-- The record an entry is handled for: the lowest-numbered one whose source is (station, slot) (R23). -/
def pointOf (s : State) (a slot : Nat) : Option Nat :=
  lowest 48 fun p => (s.point p).source == some (a, slot)

/-- A point as the acceptance of a sample leaves it (R29). -/
def Point.accept (now : Nat) (v : Int) (pt : Point) : Point :=
  { pt with accepted := some v, quality := .fresh, candidate := none, staleTimer := Timer.start now pt.staleLimit }

/-- The quality after a sample that is not accepted: FRESH becomes HELD (R28, R30). -/
def Quality.refused : Quality → Quality
  | .fresh => .held
  | q => q

/-- Whether an in-range sample is accepted at once (R29): quality NONE, a step of 0, or a value within the step of
the accepted value. That a point without an accepted value accepts none at once is the model's choice (log 37). -/
def Point.acceptsAtOnce (pt : Point) (v : Int) : Bool :=
  pt.quality == .none || pt.step == 0 ||
    match pt.accepted with
    | some a => decide ((v - a).natAbs ≤ pt.step)
    | none => false

/-- The candidate a sample leaves in the glitch filter (R30): the one present with its count raised when the sample is
within the step of it, the sample itself with count 1 otherwise. -/
def Point.nextCandidate (pt : Point) (v : Int) : Candidate :=
  match pt.candidate with
  | some c => if (v - c.value).natAbs ≤ pt.step then { c with count := c.count + 1 } else ⟨v, 1⟩
  | none => ⟨v, 1⟩

/-- Whether a sample completes the confirmation of the candidate present (R30). -/
def Point.confirms (pt : Point) (v : Int) : Bool :=
  match pt.candidate with
  | some c => decide ((v - c.value).natAbs ≤ pt.step) && decide (pt.confirm ≤ c.count + 1)
  | none => false

/-- The outcome of one admitted sample: which count it takes, and the point after it (R28 to R30). -/
def Point.sample (now : Nat) (v : Int) (pt : Point) : Count × Point :=
  if v < pt.lo ∨ pt.hi < v then (.samplesRange, { pt with quality := pt.quality.refused })
  else if pt.acceptsAtOnce v || pt.confirms v then (.samplesAccepted, pt.accept now v)
  else (.samplesGlitch, { pt with quality := pt.quality.refused, candidate := some (pt.nextCandidate v) })

/-- One admitted sample for a point (R28 to R30, R38). -/
def takeSample (p : Nat) (v : Int) (s : State) : State :=
  let r := (s.point p).sample s.now v
  countEvent r.1 (s.setPoint p r.2)

/-- One entry of a SAMPLE frame: admitted when it is mapped and its station is not FAULTY (R23, R27). -/
def takeSampleEntry (src : Nat) (s : State) (e : SampleEntry) : State :=
  match pointOf s src e.slot with
  | none => s
  | some p => if stationFaulty src s then s else takeSample p e.value s

/-- The entries of a SAMPLE frame, one at a time, in their order (R27). -/
def takeSamples (src : Nat) (payload : List Byte) (s : State) : State :=
  (sampleEntries payload).foldl (takeSampleEntry src) s

/-- A point's stale timer expires (R33). -/
def staleExpired (p : Nat) (s : State) : State :=
  let pt := s.point p
  let pt' := { pt with candidate := none, staleTimer := .stopped,
                       quality := if pt.substitute.isSome then .substituted else .stale }
  let s := s.setPoint p pt'
  if pt.substitute.isSome then s else raiseAlert .point p s

/-- The kept fields of a point after a reset or a structural load (R25, R39). -/
def Point.afterRestart (pt : Point) : Point :=
  { pt with quality := .none, accepted := none, candidate := none, staleTimer := .stopped }

/-! ## Meanings -/

/-- STALE_TIMER_EXPIRY (R33). -/
def execStaleTimerExpiry (p : Nat) (s : State) : Host.Outcome State Fault Refusal :=
  match expire (s.point p).staleTimer s with
  | none => .next s
  | some s => .next (staleExpired p s)

end Sys2Proof.Machine
end

