-- ==== Sys2Proof/Machine/Steering.lean ====
section
/-! DEFINITION. The Frame Steering Unit (R163 to R168): what becomes of each arriving frame, and the meanings of the frame
rows. The marker mechanism is in Loop.lean. -/

namespace Sys2Proof.Machine

/-! ## Class codes (R161) -/

def classSample : Nat := 1
def classDemand : Nat := 2
def classCommand : Nat := 3
def classStatus : Nat := 4
def classManage : Nat := 6
def classMarker : Nat := 9

/-- Codes 0 and 11 to 15 are unknown classes (R161). -/
def unknownClassCode (cls : Nat) : Bool := cls == 0 || decide (11 ≤ cls)

/-! ## The LPU's relay (R166) -/

/-- A frame forwarded byte for byte, on the output R166 gives, counted in FRAMES_FORWARDED (R159, R165). -/
def forwardFrame (cls : Nat) (fr : RxFrame) (s : State) : State :=
  countEvent .framesForwarded
    (sendOn (forwardRing s.lpu.loop fr.input) fr.dest (.relay fr.src cls fr.seq fr.payload) s)

/-- An own frame coming home: stripped, or in WRAP-BOTH relayed on the reverse output when it arrives at the reverse
input (R166). -/
def stripOwn (fr : OwnFrame) (s : State) : State :=
  if s.lpu.loop = .wrapBoth ∧ fr.input = .reverse then
    sendOn .reverse fr.dest (.relay 0 fr.cls fr.seq fr.payload) s
  else s

/-- A frame of class `cls` whose source is 0 is the arbiter's own (R163 step 1). -/
def asOwn (cls : Nat) (fr : RxFrame) : OwnFrame :=
  { input := fr.input, dest := fr.dest, cls := cls, seq := fr.seq, payload := fr.payload }

/-- A frame after its content has been taken: consumed when its destination is 0, forwarded otherwise (R164, R165). -/
def passOn (cls : Nat) (fr : RxFrame) (s : State) : State :=
  if fr.dest = 0 then s else forwardFrame cls fr s

/-- A frame of an unknown class, counted in UNKNOWN_CLASS (R164, R165). -/
def unknownClass (s : State) : State := countEvent .unknownClass s

/-! ## STATUS frames (R131) -/

/-- One entry of a STATUS frame: not acted on while the station is FAULTY; otherwise taken by its channel, with the
reports of the change (R131, R135). -/
def takeStatus (src : Nat) (s : State) (e : StatusEntry) : State :=
  if stationFaulty src s then s
  else match channelOf s src e.output with
    | none => s
    | some n => reportChanges s (takeStatusEntry n e s)

/-- The entries of a STATUS frame, one at a time, in their order (R131). -/
def takeStatuses (src : Nat) (payload : List Byte) (s : State) : State :=
  (statusEntries payload).foldl (takeStatus src) s

/-! ## Intercepted commands (R47, R48, R167, R168) -/

/-- The intercept entry that a COMMAND frame matches (R168). -/
def matchIntercept (s : State) (src dest : Nat) : Option Intercept :=
  (s.fsu.entries.data.filterMap id).find? fun e => e.source == src && e.destination == dest

/-- The entry by which a COMMAND frame is intercepted: in RUN and HALTED only (R165, R167). -/
def interceptFor (s : State) (src dest : Nat) : Option Intercept :=
  if s.mgu.part = .config ∨ dest = 0 then none else matchIntercept s src dest

/-- The quantity of a converted item (R47): a setting above 1023 is taken as 1023, and the result held to 10000. -/
def convertedQuantity (setting scale : Nat) : Nat :=
  min (divHalfUp (min setting 1023 * scale) 1023) 10000

/-- The operation of a converted item (R47). -/
def convertedOp (h : Holder) (q : Nat) : ItemOp :=
  if q = 0 then .release
  else if h.state = .none then .acquire .shared
  else .refresh

/-- One converted item, taken as a DEMAND item; its notice is not sent (R47, R48). -/
def takeConverted (c : Nat) (setting : Nat) (s : State) (m : Mapping) : State :=
  let e := (s.client c).entry
  let q := convertedQuantity setting m.scale
  let it : DemandItem :=
    { resource := m.resource, cls := (e.map (·.defaultClass)).getD 2, weight := (e.map (·.defaultWeight)).getD 8,
      q := q, floor := none, fallback := none }
  (takeClientItem c (convertedOp (s.holder m.resource c) q) it s).1

/-- One entry of an intercepted COMMAND frame (R47): every mapping of its output gives an item; an entry that no mapping
names is counted in DEMANDS_DENIED. -/
def convertEntry (c : Nat) (x : Intercept) (s : State) (e : CommandEntry) : State :=
  match x.mappings.filter fun m => m.output == e.output with
  | [] => countEvent .demandsDenied s
  | ms => ms.foldl (takeConverted c e.setting) s

/-- An intercepted COMMAND frame (R167): counted, and in RUN handed to the DIN unless its source is FAULTY still; the
head of the probe queue is tested after its items (R84). -/
def interceptFrame (x : Intercept) (fr : RxFrame) (s : State) : State :=
  let s := countEvent .commandsIntercepted s
  if s.mgu.part = .run then
    match takenClient fr.src s with
    | none => s
    | some c => testHead ((commandEntries fr.payload).foldl (convertEntry c x) s)
  else s

/-- A MANAGE frame addressed to 0 from another station than the management station: ignored, and counted in
UNKNOWN_SOURCE, at most once for the frame (R164, R176). -/
def foreignManage (src : Nat) (s : State) : State :=
  if (stationRecord src s).isNone then s else countEvent .unknownSource s

/-! ## Frames by class (R163 to R165) -/

/-- A frame of an unknown class, or to address 0 of a class not taken there, or one that only travels on (R164, R165). -/
def steerPlain (cls : Nat) (fr : RxFrame) (s : State) : State :=
  if fr.dest = 0 then unknownClass s
  else if unknownClassCode cls then unknownClass (forwardFrame cls fr s)
  else forwardFrame cls fr s

/-- A SAMPLE frame: its entries go to the PST, and it travels on or is consumed (R27, R164, R165). -/
def sampleFrame (fr : RxFrame) (s : State) : State :=
  passOn classSample fr (takeSamples fr.src fr.payload (arrive fr.src s))

/-- A STATUS frame: its entries go to the CHU, it travels on or is consumed, and the head of the probe queue is tested
(R84, R131, R164, R165). -/
def statusFrame (fr : RxFrame) (s : State) : State :=
  testHead (passOn classStatus fr (takeStatuses fr.src fr.payload (arrive fr.src s)))

/-- A COMMAND frame: intercepted when it matches an entry, in RUN and HALTED; forwarded otherwise, or counted in
UNKNOWN_CLASS when it is addressed to 0 (R164, R165, R167). -/
def commandFrame (fr : RxFrame) (s : State) : State :=
  let s := arrive fr.src s
  match interceptFor s fr.src fr.dest with
  | some x => interceptFrame x fr s
  | none => steerPlain classCommand fr s

/-- A frame of another station steered, one of source 0 being the arbiter's own (R163). -/
def unlessOwn (cls : Nat) (fr : RxFrame) (steer : State → State) (s : State) : State :=
  if fr.src = 0 then stripOwn (asOwn cls fr) s else steer s

/-! ## Meanings -/

/-- DROP_INVALID_FRAME (R159): the frame is dropped and CRC_ERRORS counted. -/
def execDropInvalidFrame (s : State) : Host.Outcome State Fault Refusal :=
  .next (countEvent .crcErrors s)

/-- OWN_FRAME_STRIP (R166). -/
def execOwnFrameStrip (fr : OwnFrame) (s : State) : Host.Outcome State Fault Refusal :=
  .next (stripOwn fr s)

/-- SAMPLE (R27). -/
def execSample (fr : RxFrame) (s : State) : Host.Outcome State Fault Refusal :=
  .next (unlessOwn classSample fr (sampleFrame fr) s)

/-- STATUS_FRAME (R131). -/
def execStatusFrame (fr : RxFrame) (s : State) : Host.Outcome State Fault Refusal :=
  .next (unlessOwn classStatus fr (statusFrame fr) s)

/-- INTERCEPT (R167). -/
def execIntercept (fr : RxFrame) (s : State) : Host.Outcome State Fault Refusal :=
  .next (unlessOwn classCommand fr (commandFrame fr) s)

end Sys2Proof.Machine
end

