-- ==== Sys2Proof/Machine/Manage.lean ====
section
/-! DEFINITION. The Management Unit's frame around every operation (R164, R196): the arrival of its MANAGE frame, the
test of its source, and the REPLY. -/

namespace Sys2Proof.Machine

/-- The codes of the MANAGE operations (R162). -/
inductive Op where
  | load | read | status | start | restart | enterConfig | holdChannel | freeChannel | returnStation
  | clearSequence | clearAlert | ackOldest | clearCounts | clearLoop | probe
deriving DecidableEq, Repr

def Op.code : Op → Nat
  | .load => 1
  | .read => 2
  | .status => 3
  | .start => 4
  | .restart => 5
  | .enterConfig => 6
  | .holdChannel => 7
  | .freeChannel => 8
  | .returnStation => 9
  | .clearSequence => 10
  | .clearAlert => 11
  | .ackOldest => 12
  | .clearCounts => 13
  | .clearLoop => 14
  | .probe => 15

/-- What an operation comes to: the state it leaves, its status, absent while it is unanswered (R84), the contents it
returns, and whether it is an event at which the head of the probe queue is tested (R84). -/
structure Answer where
  state    : State
  status   : Option Status
  contents : List FieldItem := []
  tests    : Bool := false
deriving DecidableEq, Repr

/-- An operation taken with an outcome. -/
def Answer.of (st : Status) (s : State) : Answer := { state := s, status := some st }

/-- An operation answered DONE whose changes of channels can end the stall of the head of the probe queue (R78, R84). -/
def Answer.tested (s : State) : Answer := { state := s, status := some .done, tests := true }

/-- The REPLY of an operation, to the source of its MANAGE frame and with the frame's sequence (R196). -/
def reply (dest seq code : Nat) (a : Answer) : State :=
  match a.status with
  | none => a.state
  | some st => originate dest (.reply seq { op := code, status := st, contents := a.contents }) a.state

/-- An operation answered, and the head of the probe queue tested where the operation calls for it (R84). -/
def conclude (dest seq code : Nat) (a : Answer) : State :=
  if a.tests then testHead (reply dest seq code a) else reply dest seq code a

/-- A MANAGE frame to address 0 with an operation: its source is taken as heard, an operation from another station than
the management station is ignored, and one from it is taken and answered (R163, R164, R196). -/
def manage (m : ManageCtx) (code : Nat) (take : State → Answer) (s : State) : State :=
  let s := arrive m.src s
  if m.src = s.mgu.manager then conclude m.src m.seq code (take s) else foreignManage m.src s

/-! ## BAD_OPERATION -/

/-- BAD_OPERATION (R196): a code that names no operation, or a payload too short for its operands. -/
def execBadOperation (m : ManageCtx) (op : Nat) (s : State) : Host.Outcome State Fault Refusal :=
  .next (manage m op (Answer.of .badValue) s)

end Sys2Proof.Machine
end

