-- ==== Sys2Proof/Machine/Loads.lean ====
section
/-! DEFINITION. What each owning block makes of a load of its table: the loaded fields and their ranges, and the state
after a taken load (R10, R25, R40, R91, R121, R145, R168, R174, R178, R179, R201). A field's number is its place in the
owning rule's table (R162); the layouts of the fields made of parts are those of log 13. -/

namespace Sys2Proof.Machine

/-- The classes of a load (R162, R200). -/
inductive LoadClass where
  | structural | tunable
deriving DecidableEq, Repr

/-- What an owning block answers to a load: the state it leaves, or the status that refuses it. -/
abbrev Loaded := Except Status State

/-- A record read from a load's items, or the refusal BAD-VALUE. -/
def orBadValue {α : Type} (x : Option α) (k : α → Loaded) : Loaded :=
  match x with
  | none => .error .badValue
  | some a => k a

/-- A load whose items give no field outside `allowed` (R162, log 14). -/
def withFields (items : List FieldItem) (allowed : List Nat) (k : Loaded) : Loaded :=
  if onlyFields items allowed then k else .error .badValue

/-! ## Stations (R178, R179) -/

/-- A station record read from a load: absent in the inner position when the load gives no address. -/
def readStation (items : List FieldItem) : Option (Option (Nat × Role × Nat)) := do
  let address ← fieldOption items 1 (natIn 1 30)
  let role ← fieldOr items 2 .other (nameAt roles)
  let silence ← fieldOr items 3 500 (natIn 100 5000)
  pure (address.map fun a => (a, role, silence))

/-- The kept fields of a record that becomes its station's record by a load (R178). -/
def Station.fresh (now : Nat) (st : Station) : Station :=
  { st with state := .absent, silenceTimer := Timer.start now st.silenceLimit, pollTimer := .stopped, retryCount := 0,
            heard := false }

/-- The kept fields of a record whose address a lower-numbered record holds (R178): it takes no frames. That its heard mark
clears is the model's reading (log 21). -/
def Station.displaced (st : Station) : Station :=
  { st with state := .absent, silenceTimer := .stopped, pollTimer := .stopped, heard := false }

/-- Record `i` after a load has changed the table from `before` to `s`: the loaded record itself, a record that has
become its station's, one that has ceased to be, or one unchanged (R178; log 21). -/
def settleStation (before s : State) (r i : Nat) (st : Station) : Station :=
  let is := stationRecord st.address s == some i
  let was := stationRecord st.address before == some i
  if i = r then (if is then st.fresh s.now else { st.displaced with retryCount := 0 })
  else if is && !was then st.fresh s.now
  else if was && !is then st.displaced
  else st

/-- The faults that a load ends: each address FAULTY before it and not after it returns (R178). -/
def endFaults (before s : State) : State :=
  forEach ((List.range 31).filter fun a => stationFaulty a before && !stationFaulty a s) stationReturned s

/-- A station record loaded or emptied (R178). -/
def loadStation (r : Nat) (items : List FieldItem) (s : State) : Loaded :=
  withFields items [1, 2, 3] <| orBadValue (readStation items) fun x =>
    let placed := s.setStation r (x.map fun f =>
      { address := f.1, role := f.2.1, silenceLimit := f.2.2, state := .absent, silenceTimer := .stopped,
        pollTimer := .stopped, retryCount := 0, heard := false })
    let settled : Table 30 (Option Station) :=
      Table.build 30 fun i => (placed.station i).map fun st => settleStation s placed r i st
    .ok (endFaults s { placed with stm.stations := settled })

/-- The station settings, loaded together (R179): fields 1 to 3 in the order of the rule's sentence (log 13). -/
def loadSettings (items : List FieldItem) (s : State) : Loaded :=
  withFields items [1, 2, 3] <| orBadValue (do
    let timeout ← required items 1 (natIn 10 100)
    let limit ← required items 2 (natIn 0 32)
    let mode ← required items 3 (nameAt returnModes)
    pure (timeout, limit, mode)) fun x =>
      .ok { s with stm.pollTimeout := x.1, stm.retryLimit := x.2.1, stm.returnMode := x.2.2 }

/-- The management station address (R201), field 1 (log 13). -/
def loadManager (items : List FieldItem) (s : State) : Loaded :=
  withFields items [1] <| orBadValue (required items 1 (natIn 1 30)) fun a => .ok { s with mgu.manager := a }

/-! ## Points (R22, R25) -/

/-- The source of a point: unmapped, or a station and a slot, by its place in the list of R22 (log 12). Another number of
values is refused (log 14). -/
def readSource (vs : List Int) : Option (Option (Nat × Nat)) :=
  match vs with
  | [1] => some none
  | [2, a, b] => do
    let station ← natIn 1 30 [a]
    let slot ← natIn 0 255 [b]
    pure (some (station, slot))
  | _ => none

/-- The valid range of a point. Another number of values than two is refused, which is the model's choice (log 14). -/
def readRange (vs : List Int) : Option (Int × Int) :=
  match vs with
  | [lo, hi] => some (lo, hi)
  | _ => none

/-- The substitute of a point: absent, FIXED or POINT, by its place in the list of R22 (log 12). Another number of values
is refused (log 14). -/
def readSubstitute (vs : List Int) : Option (Option Substitute) :=
  match vs with
  | [1] => some none
  | [2, v] => some (some (.fixed v))
  | [3, p, fallback] => (natIn 0 47 [p]).map fun p => some (.point p fallback)
  | _ => none

/-- The tunable fields of a point, from their present values. -/
def readPointTunables (items : List FieldItem) (pt : Point) : Option Point := do
  let step ← fieldOr items 4 pt.step (natIn 0 32767)
  let confirm ← fieldOr items 5 pt.confirm (natIn 2 4)
  let stale ← fieldOr items 6 pt.staleLimit (natIn 100 10000)
  pure { pt with step := step, confirm := confirm, staleLimit := stale }

/-- A point record read from a structural load; the kept fields are those after a reset (R25). -/
def readPoint (items : List FieldItem) : Option Point := do
  let source ← fieldOr items 1 none readSource
  let range ← fieldOr items 2 (-32768, 32767) readRange
  let substitute ← fieldOr items 3 none readSubstitute
  readPointTunables items { source := source, lo := range.1, hi := range.2, substitute := substitute }

/-- A load of a point (R25). A tunable load keeps the present value of a field that it gives as absent (log 14). -/
def loadPoint (c : LoadClass) (p : Nat) (items : List FieldItem) (s : State) : Loaded :=
  match c with
  | .structural => withFields items [1, 2, 3, 4, 5, 6] <| orBadValue (readPoint items) fun pt => .ok (s.setPoint p pt)
  | .tunable =>
    withFields items [4, 5, 6] <| orBadValue (readPointTunables items (s.point p)) fun pt => .ok (s.setPoint p pt)

/-! ## Clients (R40) -/

/-- A client entry read from a structural load: empty when the load gives no station. -/
def readClient (items : List FieldItem) : Option (Option ClientEntry) := do
  let station ← fieldOption items 1 (natIn 1 30)
  let policy ← fieldOr items 2 .release (nameAt lapsePolicies)
  let cls ← fieldOr items 3 2 (natIn 0 3)
  let weight ← fieldOr items 4 8 (natIn 1 15)
  let lease ← fieldOr items 5 1000 (natIn 200 10000)
  pure (station.map fun a =>
    { station := a, policy := policy, defaultClass := cls, defaultWeight := weight, leasePeriod := lease })

/-- A load of a client entry (R40). A tunable load that gives no lease period changes nothing (log 14). -/
def loadClient (cls : LoadClass) (c : Nat) (items : List FieldItem) (s : State) : Loaded :=
  match cls with
  | .structural =>
    withFields items [1, 2, 3, 4, 5] <| orBadValue (readClient items) fun e =>
      .ok (s.setClient c { s.client c with entry := e })
  | .tunable =>
    match (s.client c).entry with
    | none => .error .badIndex
    | some e =>
      withFields items [5] <| orBadValue (fieldOr items 5 e.leasePeriod (natIn 200 10000)) fun period =>
        .ok (s.setClient c { s.client c with entry := some { e with leasePeriod := period } })

/-! ## Resources (R1, R6, R10) -/

/-- The x values of a curve: 2 to 8 of them, within a range. -/
def readXs (lo hi : Int) (vs : List Int) : Option (List Int) :=
  match wholeList vs with
  | some xs => if 2 ≤ xs.length ∧ xs.length ≤ 8 ∧ allIn lo hi xs then some xs else none
  | none => none

/-- The y values of a curve of `n` breakpoints (R10). -/
def readYs (n : Nat) (hi : Int) (vs : List Int) : Option (List Nat) :=
  match wholeList vs with
  | some ys => if ys.length = n ∧ allIn 0 hi ys then some (ys.map Int.toNat) else none
  | none => none

/-- A curve of the x and y values. -/
def makeCurve (xs : List Int) (ys : List Nat) : List Breakpoint :=
  List.zipWith (fun (x : Int) (y : Nat) => (⟨x, y⟩ : Breakpoint)) xs ys

/-- A command curve at the front of a binding's values: its x values, then its y values, none for y values of 0
(R6, R10; log 13). -/
def takeCommandCurve (vs : List Int) : Option (List Breakpoint × List Int) := do
  let (xs, rest) ← takeList vs
  let (ys, rest) ← takeList rest
  if 2 ≤ xs.length ∧ xs.length ≤ 8 ∧ allIn 0 10000 xs ∧ (ys = [] ∨ ys.length = xs.length) ∧ allIn 0 1023 ys then
    some (makeCurve xs (if ys = [] then xs.map fun _ => 0 else ys.map Int.toNat), rest)
  else none

/-- The mode of a binding and what follows it (R6; log 13): LEVEL with its command curve, SPLIT with its client. -/
def takeMode (vs : List Int) : Option (BindingMode × List Int) :=
  match vs with
  | 1 :: rest => (takeCommandCurve rest).map fun x => (.level x.1, x.2)
  | 2 :: c :: rest => (natIn 0 2 [c]).map fun c => (.split c, rest)
  | _ => none

/-- One binding at the front of the values: channel, mode with its fields, loss derate (R6). -/
def takeBinding (vs : List Int) : Option (Binding × List Int) :=
  match vs with
  | [] => none
  | n :: rest => do
    let channel ← natIn 0 15 [n]
    let (mode, rest) ← takeMode rest
    match rest with
    | [] => none
    | loss :: rest => do
      let loss ← natIn 0 100 [loss]
      pure ({ channel := channel, mode := mode, loss := loss }, rest)

/-- `n` bindings that make up the values. -/
def takeBindings : Nat → List Int → Option (List Binding)
  | 0, [] => some []
  | 0, _ => none
  | n + 1, vs => do
    let (b, rest) ← takeBinding vs
    let more ← takeBindings n rest
    pure (b :: more)

/-- The bindings of a structural load: 0 to 3, preceded by their number (R1, R6). -/
def readBindings (vs : List Int) : Option (List Binding) :=
  match vs with
  | [] => none
  | n :: rest => if 0 ≤ n ∧ n ≤ 3 then takeBindings n.toNat rest else none

/-- The fields of the table of R1, by number, that a kind carries; the probe cap, 12, is not loadable. -/
def carried (k : ResKind) : List Nat :=
  match k with
  | .unused => [1]
  | .plain => [1, 4, 5, 6, 7, 8, 9, 10, 11]
  | .parent => [1, 4, 5, 6, 7, 8, 9, 10]
  | .child => [1, 2, 3, 4, 5, 6, 7, 8, 9, 10, 11]

/-- A field of a CHILD that its structural load must give; absent for the other kinds. -/
def childField (items : List FieldItem) (k : ResKind) (n lo hi : Nat) : Option (Option Nat) :=
  if k = .child then (required items n (natIn lo hi)).map some else some none

/-- The yield timeout of a structural load: 5000 by default, and absent on a PARENT (R1, R10; log 6). -/
def readYield (items : List FieldItem) (k : ResKind) : Option (Option Nat) :=
  if k = .parent then some none else (fieldOr items 11 5000 (wideNatIn 500 60000)).map some

/-- A resource record of a kind other than UNUSED, read from a structural load (R10): the probe cap absent, curves
without y values at 0, the blind capacity that no default covers free (log 7). -/
def readUsed (items : List FieldItem) (k : ResKind) : Option Resource := do
  let parent ← childField items k 2 0 11
  let draw ← childField items k 3 50 200
  let xs ← required items 4 (readXs (-32768) 32767)
  let ys ← fieldOr items 5 (xs.map fun _ => 0) (readYs xs.length 10000)
  let input ← required items 6 (natIn 0 47)
  let blind ← fieldOr items 7 Config.blindDefault.val (natIn 0 10000)
  let limit ← fieldOption items 8 (natIn 0 47)
  let bindings ← fieldOr items 9 [] readBindings
  let slot ← fieldOption items 10 (natIn 0 3)
  let yield ← readYield items k
  pure
    { kind := k, parent := parent, draw := draw, curve := makeCurve xs ys, input := some input, blind := some blind,
      limitPoint := limit, bindings := bindings, slot := slot, yieldTimeout := yield, probeCap := none }

/-- A resource record read from a structural load (R10): a field that the kind does not carry is refused. -/
def readResource (items : List FieldItem) : Option Resource := do
  let kind ← required items 1 (nameAt resKinds)
  if onlyFields items (carried kind) then (if kind = .unused then some {} else readUsed items kind) else none

/-- A curve with new y values, of the same number of breakpoints (R10). -/
def replaceYs (hi : Int) (curve : List Breakpoint) (vs : List Int) : Option (List Breakpoint) :=
  (readYs curve.length hi vs).map fun ys => makeCurve (curve.map (·.x)) ys

/-- A binding with the command-curve y values of a tunable load, when it is a LEVEL binding of the channel named. -/
def Binding.replaceYs (channel : Int) (vs : List Int) (b : Binding) : Option Binding :=
  match b.mode with
  | .level curve =>
    if (b.channel : Int) = channel then
      (Machine.replaceYs 1023 curve vs).map fun c => { b with mode := .level c }
    else some b
  | .split _ => some b

/-- Whether a binding is a LEVEL binding of a channel. -/
def Binding.isLevelOf (channel : Int) (b : Binding) : Bool :=
  match b.mode with
  | .level _ => decide ((b.channel : Int) = channel)
  | .split _ => false

/-- One item of a tunable load applied to a record (R10): BAD-INDEX for a field its kind does not carry or a channel
that no LEVEL binding names, 16 and up among them, and BAD-VALUE for any other refusal. The items are judged in their
order, and the first refusal is the answer, which is the model's choice (log 38). An item without values gives nothing:
the present value stays, also for a field that the kind does not carry, which is the model's choice (log 14). -/
def tuneResource (x : Resource) (it : FieldItem) : Except Status Resource :=
  if it.values = [] then .ok x
  else match it.field with
    | 5 => match replaceYs 10000 x.curve it.values with
      | some c => .ok { x with curve := c }
      | none => .error .badValue
    | 7 => match natIn 0 10000 it.values with
      | some v => .ok { x with blind := some v }
      | none => .error .badValue
    | 9 => match it.values with
      | [] => .ok x
      | channel :: ys =>
        if x.bindings.any (·.isLevelOf channel) then
          match x.bindings.mapM (·.replaceYs channel ys) with
          | some bs => .ok { x with bindings := bs }
          | none => .error .badValue
        else .error .badIndex
    | 11 => if x.kind = .parent then .error .badIndex
      else match wideNatIn 500 60000 it.values with
        | some v => .ok { x with yieldTimeout := some v }
        | none => .error .badValue
    | n => if n ∈ [2, 3] ∧ x.kind ≠ .child then .error .badIndex else .error .badValue

/-- A load of a resource record (R10). -/
def loadResource (c : LoadClass) (r : Nat) (items : List FieldItem) (s : State) : Loaded :=
  match c with
  | .structural => orBadValue (readResource items) fun x => .ok (s.setResource r x)
  | .tunable =>
    if (s.resource r).kind = .unused then .error .badIndex
    else match items.foldlM tuneResource (s.resource r) with
      | .ok x => .ok (s.setResource r x)
      | .error e => .error e

/-! ## Channels (R118, R121) -/

/-- The default valve characteristic (R118). -/
def defaultCharacteristic : List Nat := [0, 125, 250, 375, 500, 625, 750, 875, 1000]

/-- A valve characteristic (R118): nine values, preceded by their number as a list is, which is the model's reading (log
13). -/
def readCharacteristic (vs : List Int) : Option (List Nat) :=
  match wholeList vs with
  | some l => if l.length = 9 ∧ allIn 0 1000 l then some (l.map Int.toNat) else none
  | none => none

/-- A ramp interval: a multiple of 10. -/
def readRampInterval (vs : List Int) : Option Nat :=
  match natIn 10 2550 vs with
  | some v => if v % 10 = 0 then some v else none
  | none => none

/-- The tunable fields of a channel, from their present values. -/
def readChannelTunables (items : List FieldItem) (ch : Channel) : Option Channel := do
  let slew ← fieldOr items 6 ch.slew (natIn 1 1023)
  let ramp ← fieldOr items 7 ch.rampInterval readRampInterval
  let tolerance ← fieldOr items 8 ch.tolerance (natIn 0 1023)
  let ack ← fieldOr items 9 ch.ackLimit (natIn 5 255)
  let refresh ← fieldOr items 10 ch.refreshPeriod (natIn 0 10000)
  pure { ch with slew := slew, rampInterval := ramp, tolerance := tolerance, ackLimit := ack, refreshPeriod := refresh }

/-- The characteristic of a channel of a kind: a VALVE's given or default one, absent for the other kinds, for which
a given one is refused (R118, R121). -/
def characteristicFor (kind : ChannelKind) (shape : Option (List Nat)) : Option (Option (List Nat)) :=
  match kind, shape with
  | .valve, none => some (some defaultCharacteristic)
  | .valve, some l => some (some l)
  | _, none => some none
  | _, some _ => none

/-- A channel record read from a structural load (R118, R121): absent in the inner position when the load gives no
kind. -/
def readChannel (items : List FieldItem) : Option (Option Channel) := do
  let kind ← fieldOption items 1 (nameAt channelKinds)
  let station ← fieldOption items 2 (natIn 1 30)
  let output ← fieldOr items 3 0 (natIn 0 7)
  let shape ← fieldOption items 4 readCharacteristic
  let minRun ← fieldOr items 5 0 (natIn 0 1023)
  let base : Channel :=
    { kind := .pump, station := 0, output := output, characteristic := none, minRun := minRun, slew := 64,
      rampInterval := 100, tolerance := 16, ackLimit := 30, refreshPeriod := 1000 }
  let tuned ← readChannelTunables items base
  match kind with
  | none => pure none
  | some k => do
    let a ← station
    let curve ← characteristicFor k shape
    pure (some { tuned with kind := k, station := a, characteristic := curve })

/-- A structurally loaded channel as it stands after the load: HELD, or FAULTED when its station is FAULTY (R121). -/
def placeChannel (s : State) (ch : Channel) : Channel :=
  if stationFaulty ch.station s then ch.enterFaulted .station else ch

/-- A load of a channel record, with the reports of the change (R121, R135). A tunable load of an unloaded channel is
BAD-INDEX whatever its values, which is the model's choice (log 38). -/
def loadChannel (c : LoadClass) (n : Nat) (items : List FieldItem) (s : State) : Loaded :=
  match c with
  | .structural =>
    withFields items [1, 2, 3, 4, 5, 6, 7, 8, 9, 10] <| orBadValue (readChannel items) fun x =>
      .ok (reportChanges s (s.setChannel n (x.map (placeChannel s))))
  | .tunable =>
    match s.channel n with
    | none => .error .badIndex
    | some ch =>
      withFields items [6, 7, 8, 9, 10] <| orBadValue (readChannelTunables items ch) fun ch =>
        .ok (reportChanges s (s.setChannel n (some ch)))

/-! ## Sequence slots (R143, R145) -/

/-- The steps of a load, each with its channel and run setting, and its step limit when `wide` (R143; log 13). -/
def takeSteps (wide : Bool) : Nat → List Int → Option (List Step)
  | 0, [] => some []
  | 0, _ => none
  | k + 1, n :: run :: rest => do
    let channel ← natIn 0 15 [n]
    let run ← natIn 1 1023 [run]
    match wide, rest with
    | false, rest => (takeSteps wide k rest).map fun more => { channel := channel, run := run, limit := 30 } :: more
    | true, limit :: rest => do
      let limit ← natIn 1 255 [limit]
      (takeSteps wide k rest).map fun more => { channel := channel, run := run, limit := limit } :: more
    | true, [] => none
  | _ + 1, _ => none

/-- The list of steps: 1 to 6, preceded by their number. -/
def readSteps (vs : List Int) : Option (List Step) :=
  match vs with
  | [] => none
  | n :: rest =>
    if 1 ≤ n ∧ n ≤ 6 then takeSteps (decide (rest.length = 3 * n.toNat)) n.toNat rest else none

/-- One step limit of a load, as a step number and a limit: BAD-INDEX for a step the slot does not have (R145), also when
the limit is out of range, which is the model's choice (log 38). -/
def tuneStep (steps : List Step) (it : FieldItem) : Except Status (List Step) :=
  if it.field = 5 then
    match it.values with
    | [] => .ok steps
    | [i, limit] =>
      if 1 ≤ i ∧ i.toNat ≤ steps.length then
        match natIn 1 255 [limit] with
        | some l => .ok (steps.modify (i.toNat - 1) fun st => { st with limit := l })
        | none => .error .badValue
      else .error .badIndex
    | _ => .error .badValue
  else .ok steps

/-- The tunable fields of a slot, from their present values (R145). The step limits are judged first, item by item, and the
first refused item is the answer; the other fields follow. This order is the model's choice (log 38). A step-limit item
counts before the limit that the list of steps of the same load gives, whatever the order of the two, which is the model's
choice too (log 14). -/
def tuneSlot (items : List FieldItem) (sl : Slot) : Except Status Slot :=
  match items.foldlM tuneStep sl.steps with
  | .error e => .error e
  | .ok steps =>
    match fieldOr items 6 sl.stopDelay (natIn 0 60), fieldOr items 7 sl.antiCycle (natIn 0 600) with
    | some stop, some rest => .ok { sl with steps := steps, stopDelay := stop, antiCycle := rest }
    | _, _ => .error .badValue

/-- The resource and the steps of a structural load: absent in the inner position when the load gives no resource. -/
def readSlotBase (items : List FieldItem) : Option (Option Slot) := do
  let resource ← fieldOption items 1 (natIn 0 11)
  let steps ← fieldOption items 2 readSteps
  match resource with
  | none => pure none
  | some r => do
    let steps ← steps
    pure (some { resource := r, steps := steps, stopDelay := 10, antiCycle := 120 })

/-- Whether the values that a load without a resource gives for the step limits, the stop delay and the anti-cycle time
lie in the ranges of R143. -/
def tunablesInRange (items : List FieldItem) : Bool :=
  items.all (fun it => it.field != 5 || match it.values with
    | [] => true
    | [i, limit] => decide (1 ≤ i ∧ i ≤ 6) && (natIn 1 255 [limit]).isSome
    | _ => false) &&
    (fieldOr items 6 0 (natIn 0 60)).isSome && (fieldOr items 7 0 (natIn 0 600)).isSome

/-- A slot's record replaced, the minimums it had placed removed and those channels' targets derived (R144). -/
def replaceSlot (k : Nat) (new : Option Slot) (s : State) : State :=
  let old := match s.slot k with
    | some sl => sl.placed.map (·.channel)
    | none => []
  reportChanges s (forEach old refreshMinimum (s.setSlot k new))

/-- A load of a sequence slot (R145): a structural load without a resource unloads the slot, its other values checked
all the same. A tunable load of an unloaded slot is BAD-INDEX whatever its values, and in any load a
field that it may not give is BAD-VALUE before its step limits are judged, which is the model's choice (log 38). -/
def loadSlot (c : LoadClass) (k : Nat) (items : List FieldItem) (s : State) : Loaded :=
  match c with
  | .structural =>
    withFields items [1, 2, 5, 6, 7] <| orBadValue (readSlotBase items) fun x =>
      match x with
      | none => if tunablesInRange items then .ok (replaceSlot k none s) else .error .badValue
      | some sl =>
        match tuneSlot items sl with
        | .ok sl => .ok (replaceSlot k (some (sl.afterRestart s.now)) s)
        | .error e => .error e
  | .tunable =>
    match s.slot k with
    | none => .error .badIndex
    | some sl =>
      withFields items [5, 6, 7] <|
        match tuneSlot items sl with
        | .ok sl => .ok (s.setSlot k (some sl))
        | .error e => .error e

/-! ## Intercept entries, pass period, loop settings (R168, R91, R174) -/

/-- `n` mappings that make up the values. -/
def takeMappings : Nat → List Int → Option (List Mapping)
  | 0, [] => some []
  | n + 1, o :: r :: x :: rest => do
    let output ← natIn 0 7 [o]
    let resource ← natIn 0 11 [r]
    let scale ← natIn 1 10000 [x]
    (takeMappings n rest).map fun more => { output := output, resource := resource, scale := scale } :: more
  | _, _ => none

/-- The mappings of an entry: 1 to 4, preceded by their number. -/
def readMappings (vs : List Int) : Option (List Mapping) :=
  match vs with
  | [] => none
  | n :: rest => if 1 ≤ n ∧ n ≤ 4 then takeMappings n.toNat rest else none

/-- An intercept entry read from a load: empty when the load gives no source. -/
def readIntercept (items : List FieldItem) : Option (Option Intercept) := do
  let source ← fieldOption items 1 (natIn 1 30)
  let destination ← fieldOption items 2 (natIn 1 30)
  let mappings ← fieldOption items 3 readMappings
  match source with
  | none => pure none
  | some a => do
    let d ← destination
    let ms ← mappings
    pure (some { source := a, destination := d, mappings := ms })

/-- A load of an intercept entry (R168). -/
def loadIntercept (n : Nat) (items : List FieldItem) (s : State) : Loaded :=
  withFields items [1, 2, 3] <| orBadValue (readIntercept items) fun x =>
    .ok { s with fsu.entries := s.fsu.entries.set n x }

/-- A pass period: a multiple of 50. -/
def readPassPeriod (vs : List Int) : Option Nat :=
  match natIn 100 2000 vs with
  | some v => if v % 50 = 0 then some v else none
  | none => none

/-- A load of the pass period (R91), field 1 (log 13). -/
def loadPassPeriod (items : List FieldItem) (s : State) : Loaded :=
  withFields items [1] <| orBadValue (required items 1 readPassPeriod) fun v => .ok { s with ale.passPeriod := v }

/-- A load of the loop settings (R174): fields 1 and 2 in the order of the rule's sentence (log 13). -/
def loadLoopSettings (items : List FieldItem) (s : State) : Loaded :=
  withFields items [1, 2] <| orBadValue (do
    let period ← required items 1 (natIn 20 500)
    let limit ← required items 2 (natIn 2 100)
    if limit < period then some (period, limit) else none) fun x =>
      .ok { s with lpu.markerPeriod := x.1, lpu.returnLimit := x.2 }

/-! ## The MGU's part (R162, R200) -/

/-- The tables of R200 by code: the number of their indices and the classes they take. -/
def tableShape (table : Nat) : Option (Nat × List LoadClass) :=
  match table with
  | 1 => some (30, [.structural])
  | 2 => some (1, [.structural])
  | 3 => some (1, [.structural])
  | 4 => some (48, [.structural, .tunable])
  | 5 => some (3, [.structural, .tunable])
  | 6 => some (12, [.structural, .tunable])
  | 7 => some (16, [.structural, .tunable])
  | 8 => some (4, [.structural, .tunable])
  | 9 => some (16, [.structural])
  | 10 => some (1, [.tunable])
  | 11 => some (1, [.tunable])
  | _ => none

/-- The load class a code names (R162). -/
def loadClass (code : Nat) : Option LoadClass :=
  match code with
  | 1 => some .structural
  | 2 => some .tunable
  | _ => none

/-- A load handed to the owning block (R200). -/
def ownerLoad (table index : Nat) (c : LoadClass) (items : List FieldItem) (s : State) : Loaded :=
  match table with
  | 1 => loadStation index items s
  | 2 => loadSettings items s
  | 3 => loadManager items s
  | 4 => loadPoint c index items s
  | 5 => loadClient c index items s
  | 6 => loadResource c index items s
  | 7 => loadChannel c index items s
  | 8 => loadSlot c index items s
  | 9 => loadIntercept index items s
  | 10 => loadPassPeriod items s
  | 11 => loadLoopSettings items s
  | _ => .error .badIndex

/-- A whole LOAD decided (R200): BAD-INDEX for its names, WRONG-STATE for a STRUCTURAL load out of CONFIG, and then the
owner's decision of its contents. -/
def decideLoad (table index cls : Nat) (bytes : List Byte) (s : State) : Loaded :=
  match tableShape table, loadClass cls with
  | some (n, classes), some c =>
    if n ≤ index ∨ c ∉ classes then .error .badIndex
    else if c = .structural ∧ s.mgu.part ≠ .config then .error .wrongState
    else orBadValue (parseContents bytes) fun items => ownerLoad table index c items s
  | _, _ => .error .badIndex

/-- The answer of a load: DONE with the state it leaves, which is an event of R84 by the channels it reports, or a
refusal that changes nothing. -/
def answerLoad (s : State) (x : Loaded) : Answer :=
  match x with
  | .ok t => .tested t
  | .error e => .of e s

/-- The bytes held once a part of a LOAD has joined the parts before it (R162): part 0 begins anew, a later part must
name the same load and carry the next number. -/
def joinPart (held : Option HeldParts) (table index cls : Nat) (part : PartMark) (contents : List Byte) :
    Option HeldParts :=
  if part.number = 0 then some { table := table, index := index, cls := cls, next := 1, bytes := contents }
  else match held with
    | none => none
    | some h =>
      if h.table = table ∧ h.index = index ∧ h.cls = cls ∧ h.next = part.number then
        some { h with next := h.next + 1, bytes := h.bytes ++ contents }
      else none

/-- A LOAD frame taken (R162, R200): a part that does not join is answered BAD-VALUE, a part without the last mark is
held and answered DONE, and the last part completes the LOAD. That no part stays held after completion, taken or refused,
is the model's choice (log 46). -/
def takeLoad (table index cls : Nat) (part : PartMark) (contents : List Byte) (s : State) : Answer :=
  match joinPart s.mgu.held table index cls part contents with
  | none => .of .badValue { s with mgu.held := none }
  | some h =>
    if part.last then
      let s := { s with mgu.held := none }
      answerLoad s (decideLoad table index cls h.bytes s)
    else .of .done { s with mgu.held := some h }

/-- LOAD (R200). -/
def execLoad (m : ManageCtx) (table index cls : Nat) (part : PartMark) (contents : List Byte) (s : State) :
    Host.Outcome State Fault Refusal :=
  .next (manage m Op.load.code (takeLoad table index cls part contents) s)

end Sys2Proof.Machine
end

