-- ==== Sys2Proof/Machine/Start.lean ====
section
/-! DEFINITION. START with the checks of every table (R199, R178, R26, R41, R11, R122, R146, R168), RESTART and
ENTER-CONFIG (R202), and the hard reset. -/

namespace Sys2Proof.Machine

/-! ## The checks of the tables (R199)

Each check says whether one record fails any constraint of its rule. A scan charges the lowest-numbered record that
fails. A constraint between two records is charged to the later of them, and that the scan finds it when it reaches the
later one, and not the earlier one, is the model's choice (log 43). -/

/-- Whether some number below `n` satisfies `p`. -/
def anyBelow (n : Nat) (p : Nat → Bool) : Bool := (List.range n).any p

/-- Whether a station has a record in the station table (R178). -/
def hasStation (s : State) (a : Nat) : Bool := (stationRecord a s).isSome

/-- Whether a station has a record of a role (R178). -/
def hasRole (s : State) (a : Nat) (role : Role) : Bool :=
  match stationAt a s with
  | some st => st.role == role
  | none => false

/-- R178: the address is already that of a lower-numbered loaded record. -/
def stationFails (s : State) (i : Nat) : Bool :=
  match s.station i with
  | none => false
  | some st => anyBelow i fun j => match s.station j with
    | some other => other.address == st.address
    | none => false

/-- R26 for a point. Two points of one source are found at the later of them (log 43). -/
def pointFails (s : State) (p : Nat) : Bool :=
  let pt := s.point p
  let own := match pt.substitute with
    | some (.point q _) => q == p
    | _ => false
  let source := match pt.source with
    | none => false
    | some (a, _) => !hasStation s a || anyBelow p fun q => (s.point q).source == pt.source
  decide (pt.hi < pt.lo) || own || source

/-- R41 for a client entry. Two entries of one station are found at the later of them (log 43). -/
def clientFails (s : State) (c : Nat) : Bool :=
  match (s.client c).entry with
  | none => false
  | some e =>
    !hasRole s e.station .client || anyBelow c fun d => match (s.client d).entry with
      | some other => other.station == e.station
      | none => false

/-- Whether a list of breakpoints rises strictly in x. -/
def risesInX : List Breakpoint → Bool
  | a :: b :: rest => decide (a.x < b.x) && risesInX (b :: rest)
  | _ => true

/-- The channels of a record's bindings of one mode. -/
def Resource.splitChannels (x : Resource) : List Nat :=
  x.bindings.filterMap fun b => match b.mode with
    | .split _ => some b.channel
    | .level _ => none

def Resource.levelChannels (x : Resource) : List Nat :=
  x.bindings.filterMap fun b => match b.mode with
    | .level _ => some b.channel
    | .split _ => none

/-- Whether a list of numbers names one twice. -/
def repeats : List Nat → Bool
  | [] => false
  | n :: rest => rest.contains n || repeats rest

/-- Whether two lists name a number in common. -/
def meet (a b : List Nat) : Bool := a.any (b.contains ·)

/-- Constraints 1 to 3 of R11: the curves and bindings of one record. -/
def shapeFails (x : Resource) : Bool :=
  !risesInX x.curve
    || x.bindings.any (fun b => match b.mode with
      | .level curve => !risesInX curve || !(curve.all fun p => decide (0 ≤ p.x ∧ p.x ≤ 10000))
      | .split _ => false)
    || repeats (x.bindings.map (·.channel))

/-- Constraints 4 to 6 of R11: kinds. -/
def kindFails (s : State) (r : Nat) (x : Resource) : Bool :=
  match x.kind with
  | .child => match x.parent with
    | some p => (s.resource p).kind != .parent
    | none => true
  | .parent =>
    decide (3 ≤ ((List.range r).filter fun i => (s.resource i).kind == .parent).length) || !x.splitChannels.isEmpty
  | _ => false

/-- Constraints 7 to 9 of R11: SPLIT channels and slots. Two records in conflict are found at the later of them (log 43). -/
def linkFails (s : State) (r : Nat) (x : Resource) : Bool :=
  meet x.splitChannels x.levelChannels
    || anyBelow r (fun i =>
        let y := s.resource i
        meet x.splitChannels y.splitChannels || meet x.splitChannels y.levelChannels
          || meet x.levelChannels y.splitChannels)
    || match x.slot with
      | none => false
      | some k =>
        (match s.slot k with
        | some sl => sl.resource != r
        | none => true)
        || anyBelow r fun i => (s.resource i).slot == some k

/-- R11 for a resource record; UNUSED passes. -/
def resourceFails (s : State) (r : Nat) : Bool :=
  let x := s.resource r
  match x.kind with
  | .unused => false
  | _ => shapeFails x || kindFails s r x || linkFails s r x

/-- Whether a list of numbers falls from one member to the next. -/
def falls : List Nat → Bool
  | a :: b :: rest => decide (b < a) || falls (b :: rest)
  | _ => false

/-- R122 for a channel. Two channels of one output are found at the later of them (log 43). -/
def channelFails (s : State) (n : Nat) : Bool :=
  match s.channel n with
  | none => false
  | some ch =>
    !hasRole s ch.station .actuator
      || anyBelow n (fun i => match s.channel i with
        | some other => other.station == ch.station && other.output == ch.output
        | none => false)
      || falls (ch.characteristic.getD [])
      || (ch.kind != .valve && (List.range 12).any fun r => (s.resource r).splitChannels.contains n)

/-- R146 for a slot. -/
def slotFails (s : State) (k : Nat) : Bool :=
  match s.slot k with
  | none => false
  | some sl =>
    let x := s.resource sl.resource
    x.kind == .unused || x.slot != some k
      || sl.steps.any (fun st => match s.channel st.channel with
        | some ch => decide (st.run < ch.minRun)
        | none => true)
      || repeats (sl.steps.map (·.channel))

/-- The entry of the intercept table with a number. -/
def interceptAt (s : State) (n : Nat) : Option Intercept := s.fsu.entries.get n

/-- Whether two mappings agree in output and resource. -/
def mappingsRepeat : List Mapping → Bool
  | [] => false
  | m :: rest => rest.any (fun x => x.output == m.output && x.resource == m.resource) || mappingsRepeat rest

/-- R168 for an intercept entry. Two entries of one source and destination are found at the later of them (log 43). -/
def interceptFails (s : State) (n : Nat) : Bool :=
  match interceptAt s n with
  | none => false
  | some e =>
    (clientOf e.source s).isNone || !hasRole s e.destination .actuator
      || anyBelow n (fun i => match interceptAt s i with
        | some other => other.source == e.source && other.destination == e.destination
        | none => false)
      || e.mappings.any (fun m => match (s.resource m.resource).kind with
        | .plain | .child => false
        | _ => true)
      || mappingsRepeat e.mappings

/-- The first record of `n` that fails, with its table's code (R162, R199). -/
def charge (table n : Nat) (fails : Nat → Bool) : Option (Nat × Nat) :=
  (lowest n fails).map fun i => (table, i)

/-- The checks of R199 in their order: the table and the index first charged. -/
def firstCharged (s : State) : Option (Nat × Nat) :=
  [ charge 1 30 (stationFails s)
  , charge 3 1 (fun _ => !hasRole s s.mgu.manager .manager)
  , charge 4 48 (pointFails s)
  , charge 5 3 (clientFails s)
  , charge 6 12 (resourceFails s)
  , charge 7 16 (channelFails s)
  , charge 8 4 (slotFails s)
  , charge 9 16 (interceptFails s) ].findSome? id

/-! ## START (R199) -/

/-- Entry into RUN (R199): the pass timer starts (R91), suspended lease and sequence timers resume (R49, R155), and every
HELD channel without a supervisor hold becomes ACTIVE (R136), with its reports (R135). -/
def enterRun (s : State) : State :=
  let s := { s with mgu.part := .run, ale.passTimer := Timer.start s.now s.ale.passPeriod }
  let s := ssuResume (resumeLeases s)
  reportChanges s (chuStart s)

/-- START (R199): its tests in order; from HALTED the tables are not checked again. The channels' reports make it an
event of R84. -/
def takeStart (s : State) : Answer :=
  if s.mgu.part = .run then .of .wrongState s
  else if s.stm.returnMode = .halt ∧ 0 < faultyCount s then .of .wrongState s
  else if s.mgu.part = .halted then .tested (enterRun s)
  else match firstCharged s with
    | some (table, index) => .of (.invalidTables table index) s
    | none => .tested (enterRun s)

/-- START (R199). -/
def execStart (m : ManageCtx) (s : State) : Host.Outcome State Fault Refusal :=
  .next (manage m Op.start.code takeStart s)

/-! ## RESTART and ENTER-CONFIG (R202) -/

/-- The RESTART values of the CAU, the PST, the DIN and the GTB (R21, R39, R61, R90). -/
def restartTables (s : State) : State :=
  { s with
    cau.resources := s.cau.resources.map fun x => { x with probeCap := none }
    cau.reports := Table.all 12 {}
    pst.points := s.pst.points.map (·.afterRestart)
    din.clients := s.din.clients.map fun c => { c with reservation := none, lapseAlert := false }
    din.prf := []
    din.draft := []
    gtb := State.reset.gtb }

/-- The RESTART values of the ALE, the CHU, the SSU and the MGU (R117, R142, R158, R162, R202). -/
def restartUnits (s : State) : State :=
  { s with
    ale.passTimer := .stopped
    ale.pass := none
    ale.results := Table.all 12 {}
    chu.channels := s.chu.channels.map fun x => x.map (·.afterRestart)
    chu.store := Table.all 12 {}
    ssu.slots := s.ssu.slots.map fun x => x.map (·.afterRestart s.now)
    mgu.part := .config
    mgu.held := none }

/-- RESTART, and ENTER-CONFIG, which is the same operation (R202): the loop, the intercept table, the settings and the
ALC are kept (R177, R188, R195). -/
def takeRestart (s : State) : Answer := .of .done (stmRestart (restartUnits (restartTables s)))

/-- RESTART (R202). -/
def execRestart (m : ManageCtx) (s : State) : Host.Outcome State Fault Refusal :=
  .next (manage m Op.restart.code takeRestart s)

/-- ENTER_CONFIG (R202). -/
def execEnterConfig (m : ManageCtx) (s : State) : Host.Outcome State Fault Refusal :=
  .next (manage m Op.enterConfig.code takeRestart s)

/-! ## HARD_RESET (R202) -/

/-- HARD_RESET (R202): every block takes its hard-reset values; the commands still to come stand as they are. -/
def execHardReset (s : State) : Host.Outcome State Fault Refusal :=
  .next { State.reset with pending := s.pending }

end Sys2Proof.Machine
end

