-- ==== Sys2Proof/Machine/Readouts.lean ====
section
/-! DEFINITION. READ and STATUS (R196): the field items each returns (R162). Codes of names are those of Operands.lean (log
12); the layouts of fields made of parts are those of logs 13 and 15. -/

namespace Sys2Proof.Machine

/-! ## Values of field items (R162; logs 12, 15) -/

/-- A number as a field's value. -/
def num (n : Nat) : List Int := [(n : Int)]

/-- An optional number: no values when it is absent. -/
def optNum (x : Option Nat) : List Int := (x.map num).getD []

/-- An optional number among the parts of a field: a list of none or one (log 15). -/
def optPart (x : Option Int) : List Int :=
  match x with
  | none => [0]
  | some v => [1, v]

/-- A list of parts, preceded by the number of its members. -/
def counted {α : Type} (l : List α) (f : α → List Int) : List Int := (l.length : Int) :: l.flatMap f

/-- "yes or no", by position. -/
def yesNo (b : Bool) : List Int := [if b then 1 else 2]

/-- "set or clear", by position. -/
def setClear (b : Bool) : List Int := [if b then 1 else 2]

/-- "stopped, or the time remaining in ms". A suspended timer has a time remaining. -/
def timerValues (now : Nat) (t : Timer) : List Int :=
  match t.remaining now with
  | none => [1]
  | some r => [2, (reportedMs r : Int)]

/-- "stopped, suspended or running, with the time remaining in ms" (R157). -/
def slotTimerValues (now : Nat) (t : Timer) : List Int :=
  match t with
  | .stopped => [1]
  | .suspended r => [2, (reportedMs r : Int)]
  | .running d => [3, (reportedMs (d - now) : Int)]

/-- The field items whose numbers are the positions of a list of values. -/
def numbered (fields : List (List Int)) : List FieldItem :=
  fields.zipIdx.map fun x => { field := x.2 + 1, values := x.1 }

/-- A repeated field: one item for each member of a list. -/
def repeated (field : Nat) (values : List (List Int)) : List FieldItem :=
  values.map fun v => { field := field, values := v }

/-! ## READ (R200 and the owning tables' rules) -/

def readoutStation (s : State) (i : Nat) : List FieldItem :=
  numbered (match s.station i with
    | none => [[], [], []]
    | some st => [num st.address, [codeIn roles st.role], num st.silenceLimit])

/-- The station settings (R179), in the order of the rule's sentence (log 13). -/
def readoutSettings (s : State) : List FieldItem :=
  numbered [num s.stm.pollTimeout, num s.stm.retryLimit, [codeIn returnModes s.stm.returnMode]]

def readoutPoint (s : State) (p : Nat) : List FieldItem :=
  let pt := s.point p
  numbered
    [ match pt.source with
      | none => [1]
      | some (a, b) => [2, (a : Int), (b : Int)]
    , [pt.lo, pt.hi]
    , match pt.substitute with
      | none => []
      | some (.fixed v) => [2, v]
      | some (.point q fallback) => [3, (q : Int), fallback]
    , num pt.step, num pt.confirm, num pt.staleLimit ]

def readoutClient (s : State) (c : Nat) : List FieldItem :=
  numbered (match (s.client c).entry with
    | none => [[], [], [], [], []]
    | some e => [num e.station, [codeIn lapsePolicies e.policy], num e.defaultClass, num e.defaultWeight,
        num e.leasePeriod])

/-- A list of numbers as a whole field. -/
def listField (l : List Int) : List Int := (l.length : Int) :: l

/-- A binding's values: channel, mode with its fields, loss derate (R6; log 13). -/
def bindingValues (b : Binding) : List Int :=
  [(b.channel : Int)] ++
    (match b.mode with
    | .level curve => [1] ++ listField (curve.map (·.x)) ++ listField (curve.map fun p => (p.y : Int))
    | .split c => [2, (c : Int)]) ++ [(b.loss : Int)]

/-- The fields of a resource record, in the order of R1: absent where the kind does not carry them. -/
def readoutResource (s : State) (r : Nat) : List FieldItem :=
  let x := s.resource r
  let used (v : List Int) : List Int := if x.kind = .unused then [] else v
  numbered
    [ [codeIn resKinds x.kind], optNum x.parent, optNum x.draw
    , used (listField (x.curve.map (·.x))), used (listField (x.curve.map fun p => (p.y : Int)))
    , optNum x.input, optNum x.blind, optNum x.limitPoint, used (counted x.bindings bindingValues)
    , optNum x.slot, optNum x.yieldTimeout, optNum x.probeCap ]

def readoutChannel (s : State) (n : Nat) : List FieldItem :=
  numbered (match s.channel n with
    | none => [[], [], [], [], [], [], [], [], [], []]
    | some ch =>
      [ [codeIn channelKinds ch.kind], num ch.station, num ch.output
      , match ch.characteristic with
        | none => []
        | some l => listField (l.map fun v => (v : Int))
      , num ch.minRun, num ch.slew, num ch.rampInterval, num ch.tolerance, num ch.ackLimit, num ch.refreshPeriod ])

/-- The fields of a slot (R143): the steps carry their channel, run setting and step limit (log 13). -/
def readoutSlot (s : State) (k : Nat) : List FieldItem :=
  match s.slot k with
  | none => [⟨1, []⟩, ⟨2, []⟩, ⟨6, []⟩, ⟨7, []⟩]
  | some sl =>
    [ ⟨1, num sl.resource⟩
    , ⟨2, counted sl.steps fun st => [(st.channel : Int), (st.run : Int), (st.limit : Int)]⟩
    , ⟨6, num sl.stopDelay⟩, ⟨7, num sl.antiCycle⟩ ]

def readoutIntercept (s : State) (n : Nat) : List FieldItem :=
  numbered (match interceptAt s n with
    | none => [[], [], []]
    | some e => [num e.source, num e.destination,
        counted e.mappings fun m => [(m.output : Int), (m.resource : Int), (m.scale : Int)]])

/-- The contents of a READ of a table and an index in its range. -/
def readContents (table index : Nat) (s : State) : List FieldItem :=
  match table with
  | 1 => readoutStation s index
  | 2 => readoutSettings s
  | 3 => numbered [num s.mgu.manager]
  | 4 => readoutPoint s index
  | 5 => readoutClient s index
  | 6 => readoutResource s index
  | 7 => readoutChannel s index
  | 8 => readoutSlot s index
  | 9 => readoutIntercept s index
  | 10 => numbered [num s.ale.passPeriod]
  | 11 => numbered [num s.lpu.markerPeriod, num s.lpu.returnLimit]
  | _ => []

/-- READ (R196, R200): BAD-INDEX for an unknown table or an index outside its range. -/
def takeRead (table index : Nat) (s : State) : Answer :=
  match tableShape table with
  | none => .of .badIndex s
  | some (n, _) =>
    if n ≤ index then .of .badIndex s
    else { state := s, status := some .done, contents := readContents table index s }

/-- READ (R196). -/
def execRead (m : ManageCtx) (table index : Nat) (s : State) : Host.Outcome State Fault Refusal :=
  .next (manage m Op.read.code (takeRead table index) s)

/-! ## STATUS (R196) -/

/-- The part item (R196): its four values as four fields, which is the model's layout (log 15). -/
def statusPart (s : State) : List FieldItem :=
  numbered [[codeIn partStates s.mgu.part], num s.mgu.manager, [codeIn returnModes s.stm.returnMode],
    num (faultyCount s)]

/-- A capacity report (R20). -/
def statusReport (s : State) (r : Nat) : List FieldItem :=
  let x := s.cau.reports.get r
  numbered
    [ yesNo x.computed
    , match x.baseSource with
      | none => []
      | some b => [codeIn baseSources b]
    , num x.base, num x.availability, optNum x.derating, num x.effective, [codeIn boundBys x.boundBy] ]

/-- The state of a station with its parameter, by position in the list of R178. -/
def stationStateValues : StationState → List Int
  | .absent => [1]
  | .online => [2]
  | .polling n => [3, (n : Int)]
  | .faulty => [4]

/-- The state the station table holds for a point's source (R38): absent for an unmapped point. That it is absent too for
a mapped point whose station has no record, as can be in CONFIG, is the model's choice (log 44). -/
def sourceState (s : State) (pt : Point) : List Int :=
  match pt.source with
  | none => []
  | some (a, _) => match stationAt a s with
    | some st => stationStateValues st.state
    | none => []

/-- A point's standing (R38). -/
def statusPoint (s : State) (p : Nat) : List FieldItem :=
  let pt := s.point p
  let opt (x : Option Int) : List Int := (x.map fun v => [v]).getD []
  numbered
    [ [codeIn qualities pt.quality], opt (reportedValue s p), opt pt.accepted
    , match pt.candidate with
      | none => []
      | some c => [c.value, (c.count : Int)]
    , timerValues s.now pt.staleTimer, sourceState s pt ]

/-- A target level, by its place in the list of R62, whose first place is "absent" (log 12). -/
def targetCode : Option Level → Int
  | none => 1
  | some .shared => 2
  | some .exclusive => 3

/-- One holder of the grants item (R89): state, target level, q, f, fallback, class, weight, g, lapsed mark, lease time
remaining. -/
def holderValues (now : Nat) (h : Holder) : List Int :=
  [codeIn holderStates h.state, targetCode h.target, (h.q : Int), (h.f : Int)] ++
    optPart (h.fallback.map fun v => (v : Int)) ++ [(h.cls : Int), (h.weight : Int), (h.g : Int)] ++
    setClear h.lapsed ++ optPart ((h.lease.remaining now).map fun t => (reportedMs t : Int))

/-- The grants of a resource (R89): generation, frozen mark, and one item for each client, as fields 1, 2 and 3, which is
the model's layout (log 15). -/
def statusGrants (s : State) (r : Nat) : List FieldItem :=
  numbered [num (s.generation r), setClear (s.isFrozen r)] ++
    repeated 3 ([0, 1, 2].map fun c => holderValues s.now (s.holder r c))

/-- A revocation record (R89): free, or live with its fields, coded 1 and 2, which is the model's layout (log 15). -/
def recordValues (now : Nat) (x : Option Revocation) : List Int :=
  match x with
  | none => [1]
  | some v =>
    [2, (v.resource : Int), (v.client : Int), (v.grant : Int), codeIn causes v.cause, codeIn rampMarks v.ramp] ++
      setClear v.notice ++ optPart ((v.timer.remaining now).map fun t => (reportedMs t : Int))

def statusRecords (s : State) : List FieldItem :=
  repeated 1 ((List.range 8).map fun k => recordValues s.now (s.record k))

/-- Whether the head of the probe queue stalls, and whether on a notice mark or on free records (R84, R89): three values of
yes or no, which is the model's layout (log 15). -/
def stallValues (s : State) (p : Probe) : List Int :=
  let mark := noticeMarkSet s p.resource
  let room := decide (freeRecords s < revocationsNeeded s p)
  yesNo (mark || room) ++ yesNo mark ++ yesNo room

/-- The probe queue (R89): the probes as items of field 1, and the head's stall as field 2, which is the model's layout
(log 15). -/
def statusProbes (s : State) : List FieldItem :=
  repeated 1 (s.gtb.probes.map fun p =>
    [codeIn probeKinds p.kind, (p.resource : Int), (p.client : Int), (p.quantity : Int)]) ++
    [⟨2, match s.gtb.probes with
      | [] => []
      | p :: _ => stallValues s p⟩]

/-- The Pending Request File (R58), oldest first: one item of field 1 for each entry, which is the model's layout
(log 15). An entry's target level is one of the two of R54, which its list numbers from SHARED (log 12). -/
def statusPrf (s : State) : List FieldItem :=
  repeated 1 (s.din.prf.map fun e =>
    [(e.client : Int), (e.resource : Int), codeIn levels e.target,
      codeIn holderStates (s.holder e.resource e.client).state])

/-- The allocation item (R116): the pass, then the results of each record, each beginning with the record's number, which
is the model's layout (log 15). -/
def statusAllocation (s : State) : List FieldItem :=
  let rows (f : PassResult → List Int) : List (List Int) :=
    (List.range 12).map fun (r : Nat) => (r : Int) :: f (s.ale.results.get r)
  let parents (f : PassResult → List Int) : List (List Int) :=
    ((List.range 12).filter fun r => (s.resource r).kind == .parent).map fun (r : Nat) =>
      (r : Int) :: f (s.ale.results.get r)
  [⟨1, [if s.ale.pass.isSome then 2 else 1]⟩, ⟨2, timerValues s.now s.ale.passTimer⟩, ⟨3, num s.ale.passPeriod⟩] ++
    repeated 4 (rows fun x => optPart (x.latched.map fun v => (v : Int))) ++ repeated 5 (rows fun x => num x.total) ++
    repeated 6 (parents fun x => num x.demandDraw) ++ repeated 7 (parents fun x => optPart (x.cutClass.map fun v => (v : Int)))

/-- The state of a channel, by position in the list of R141. -/
def channelStateCode : ChannelState → Int
  | .active => 2
  | .held => 3
  | .faulted => 4

/-- A fault cause, by position in the list of R141, whose first place is "absent". -/
def causeValues : Option FaultCause → List Int
  | none => []
  | some .status => [2]
  | some .ackTimeout => [3]
  | some .station => [4]

/-- A channel (R141). An unloaded one has no field but its state, and is not Settled (R118, R135). -/
def statusChannel (s : State) (n : Nat) : List FieldItem :=
  numbered (match s.channel n with
    | none => [[1], [], [], [], [], [], [], [], yesNo false]
    | some ch =>
      [ [channelStateCode ch.state], [codeIn channelKinds ch.kind], setClear ch.hold, causeValues ch.cause
      , match ch.current with
        | none => [1]
        | some c => [2, (c : Int)]
      , [(ch.target : Int), (ch.split : Int), (ch.seqMin : Int)]
      , match ch.handshake with
        | .clear => [1]
        | .awaiting q v t => [2, (q : Int), (v : Int), (t : Int)]
      , optNum ch.lastActual, yesNo ch.settled ])

/-- The state of a loaded slot with its step, by position in the list of R157. -/
def slotStateValues : SlotState → List Int
  | .stopped => [2]
  | .starting i => [3, (i : Int)]
  | .running => [4]
  | .stopping i => [5, (i : Int)]
  | .failed => [6]

/-- The steps of a slot, each placed or not, with its channel and run setting (R157). The placed ones are the first
ones (R144). -/
def placedValues (sl : Slot) : List Int :=
  counted sl.steps.zipIdx fun x =>
    [if x.2 < sl.placed.length then 1 else 2, (x.1.channel : Int), (x.1.run : Int)]

/-- A sequence slot (R157). An unloaded one has its values after a hard reset: no step's minimum, its timers stopped, its
claim sum 0 (R158). -/
def statusSlot (s : State) (k : Nat) : List FieldItem :=
  numbered (match s.slot k with
    | none =>
      [ [1], counted ([] : List Step) fun _ => [], slotTimerValues s.now .stopped, slotTimerValues s.now .stopped
      , timerValues s.now .stopped, num 0 ]
    | some sl =>
      [ slotStateValues sl.state, placedValues sl, slotTimerValues s.now sl.watch
      , slotTimerValues s.now sl.stopDelayTimer, timerValues s.now sl.antiCycleTimer, num sl.claimSum ])

/-- The loop (R176). -/
def statusLoop (s : State) : List FieldItem :=
  let opt (x : Option Nat) : List Int := optPart (x.map fun v => (v : Int))
  numbered
    [ [codeIn loopStates s.lpu.loop], [(s.lpu.missCount : Int), (s.lpu.recoveryCount : Int)]
    , yesNo s.lpu.round.isSome, opt s.lpu.presentTrip ++ opt s.lpu.minTrip ++ opt s.lpu.maxTrip
    , optNum s.lpu.lastHops, opt s.lpu.forwardWrap ++ opt s.lpu.reverseWrap
    , [(s.lpu.markerPeriod : Int), (s.lpu.returnLimit : Int)] ]

/-- A station (R187), the record of its address: eight fields in the order of the rule's sentence, which is the model's
layout (log 15). -/
def statusStation (s : State) (i : Nat) (st : Station) : List FieldItem :=
  numbered
    [ num i, [codeIn roles st.role], num st.silenceLimit, stationStateValues st.state
    , timerValues s.now st.silenceTimer, timerValues s.now st.pollTimer, num st.retryCount, setClear st.heard ]

/-- The alert list (R195): the fields of an ALERT frame, numbered in their order, which is the model's layout (log 15). -/
def statusAlerts (s : State) : List FieldItem :=
  numbered [num s.alc.alerts.length, counted s.alc.alerts fun a => [(a.category : Int), (a.index : Int)],
    num s.alc.overflow]

/-- The event counts in number order (R194): one field with the list of the twenty values, which is the model's layout
(log 15). -/
def statusCounts (s : State) : List FieldItem :=
  numbered [counted (List.range 20) fun i => num (s.alc.counts.get i)]

/-- The contents of a STATUS: absent for an item that names nothing or an index outside its range (R162, R196). The
items that take no index take index 0 (R162). -/
def statusContents (item index : Nat) (s : State) : Option (List FieldItem) :=
  let within (n : Nat) (x : List FieldItem) : Option (List FieldItem) := if index < n then some x else none
  match item with
  | 1 => within 1 (statusPart s)
  | 2 => within 12 (statusReport s index)
  | 3 => within 48 (statusPoint s index)
  | 4 => within 12 (statusGrants s index)
  | 5 => within 1 (statusRecords s)
  | 6 => within 1 (statusProbes s)
  | 7 => within 1 (statusPrf s)
  | 8 => within 1 (statusAllocation s)
  | 9 => within 16 (statusChannel s index)
  | 10 => within 4 (statusSlot s index)
  | 11 => within 1 (statusLoop s)
  | 12 => match stationRecord index s with
    | none => none
    | some i => (s.station i).map (statusStation s i)
  | 13 => within 1 (statusAlerts s)
  | 14 => within 1 (statusCounts s)
  | _ => none

/-- The answer of STATUS (R196). -/
def takeStatusItem (item index : Nat) (s : State) : Answer :=
  match statusContents item index s with
  | none => .of .badIndex s
  | some c => { state := s, status := some .done, contents := c }

/-- STATUS (R196). -/
def execStatus (m : ManageCtx) (item index : Nat) (s : State) : Host.Outcome State Fault Refusal :=
  .next (manage m Op.status.code (takeStatusItem item index) s)

end Sys2Proof.Machine
end

