-- ==== Sys2Proof/Machine/Layout.lean ====
section
/-! DEFINITION. The bytes of frames (R159 to R162): the CRC, the header, and the payload of every frame the arbiter sends. A
REPLY whose contents do not fit one payload gives several frames (R162). -/

namespace Sys2Proof.Machine

/-! ## The CRC (R159) -/

/-- One bit taken into the CRC register, with the generator x^16 + x^12 + x^5 + 1 (R159). -/
def crcBit (r : BitVec 16) (bit : Bool) : BitVec 16 :=
  if (r.msb ^^ bit) then (r <<< 1) ^^^ 0x1021#16 else r <<< 1

/-- One byte taken into the CRC register, most significant bit first (R159). -/
def crcByte (r : BitVec 16) (b : Byte) : BitVec 16 :=
  [7, 6, 5, 4, 3, 2, 1, 0].foldl (fun r i => crcBit r (b.getLsbD i)) r

/-- The CRC over a header and a payload: the register starts at all ones and the remainder is not inverted (R159). -/
def crc16 (bytes : List Byte) : BitVec 16 := bytes.foldl crcByte 0xFFFF#16

/-! ## Numbers and names -/

/-- A number in one byte. -/
def byteOf (n : Nat) : Byte := BitVec.ofNat 8 n

/-- Sixteen bits, high byte first (R160). -/
def word16 (w : BitVec 16) : List Byte := [w.extractLsb' 8 8, w.extractLsb' 0 8]

/-- A number in two bytes, high byte first (R160). -/
def pair (n : Nat) : List Byte := word16 (BitVec.ofNat 16 n)

/-- A value of contents in two bytes (R162): signed, or unsigned above 32767; a value that fits neither is free (log
6). -/
def valueBytes (v : Int) : List Byte :=
  word16 (if -32768 ≤ v ∧ v ≤ 65535 then BitVec.ofInt 16 v else Config.wideValue v)

/-- A field item of contents (R162). -/
def FieldItem.bytes (it : FieldItem) : List Byte :=
  [byteOf it.field, byteOf it.values.length] ++ it.values.flatMap valueBytes

/-- A ring in a MARKER (R162). -/
def ringCode : Ring → Nat
  | .forward => 0
  | .reverse => 1

/-- A level in a notice (R162). -/
def levelCode : Level → Nat
  | .shared => 1
  | .exclusive => 2

/-- A reason in a notice (R162). -/
def reasonCode : Reason → Nat
  | .badItem => 1
  | .malformed => 2
  | .notRunning => 3
  | .halted => 4
  | .badResource => 5
  | .frozen => 6
  | .contended => 7
  | .notHeld => 8
  | .yielding => 9
  | .evicted => 10

/-- A cause in a notice (R162). -/
def causeCode : Cause → Nat
  | .request => 1
  | .probe => 2

/-- A notice's kind code and the bytes of the kind's fields (R162). -/
def NoticeKind.layout : NoticeKind → Nat × List Byte
  | .granted level g => (1, byteOf ((level.map levelCode).getD 0) :: pair g)
  | .queued level => (2, [byteOf (levelCode level)])
  | .denied reason => (3, [byteOf (reasonCode reason)])
  | .busy => (4, [])
  | .reserved generation => (5, [byteOf generation])
  | .commitFailed => (6, [])
  | .revoked g timeout cause => (7, pair g ++ pair timeout ++ [byteOf (causeCode cause)])
  | .lapsed kept => (8, [byteOf (if kept then 2 else 1)])

/-- A notice's bytes: resource and kind, then the kind's fields (R162). -/
def Notice.bytes (n : Notice) : List Byte := byteOf (n.resource * 16 + n.kind.layout.1) :: n.kind.layout.2

/-- A MARKER's payload (R162). -/
def markerBytes (m : MarkerFrame) : List Byte :=
  [byteOf m.number, byteOf (ringCode m.sentOn), byteOf m.hops, byteOf (m.forwardWrap.getD 0),
    byteOf (m.reverseWrap.getD 0)]

/-- An ALERT's payload (R162, R192). -/
def alertBytes (entries : List AlertNo) (overflow : Nat) : List Byte :=
  byteOf entries.length :: entries.flatMap (fun a => [byteOf a.category, byteOf a.index]) ++ [byteOf overflow]

/-! ## REPLY (R162, R196) -/

/-- A status in a REPLY (R162). -/
def Status.code : Status → Nat
  | .done => 1
  | .wrongState => 2
  | .badIndex => 3
  | .badValue => 4
  | .busy => 5
  | .invalidTables _ _ => 6

/-- The table and index that INVALID-TABLES carries (R162). -/
def Status.charged : Status → List Byte
  | .invalidTables table index => [byteOf table, byteOf index]
  | _ => []

/-- Bytes cut into pieces of at most 53, the room a REPLY's payload leaves its contents; one piece when there are none.
The fuel is the number of bytes. -/
def pieces : Nat → List Byte → List (List Byte)
  | 0, bytes => [bytes]
  | fuel + 1, bytes => if bytes.length ≤ 53 then [bytes] else bytes.take 53 :: pieces fuel (bytes.drop 53)

/-- The payload of part `i` of `n` of a REPLY (R162). -/
def replyPart (r : Reply) (n i : Nat) (piece : List Byte) : List Byte :=
  [byteOf r.op, byteOf r.status.code, byteOf (i + if i + 1 = n then 128 else 0)] ++ r.status.charged ++ piece

/-- The payloads of a REPLY, in the order of its parts (R162). -/
def Reply.payloads (r : Reply) : List (List Byte) :=
  let bytes := r.contents.flatMap (·.bytes)
  let cut := pieces bytes.length bytes
  cut.zipIdx.map fun x => replyPart r cut.length x.2 x.1

/-! ## Frames (R159 to R161) -/

/-- A frame's bytes: header, payload and CRC, high byte first (R159, R160). -/
def frameBytes (dest src cls seq : Nat) (payload : List Byte) : List Byte :=
  let body := [byteOf dest, byteOf src, byteOf (cls * 16 + seq), byteOf payload.length] ++ payload
  body ++ word16 (crc16 body)

/-- The bytes of each frame that an entry of the log of frames sent stands for, in their order (R161, R162). -/
def TxFrame.bytes (t : TxFrame) : List (List Byte) :=
  match t.body with
  | .command seq output setting => [frameBytes t.dest 0 3 seq (byteOf output :: pair setting)]
  | .notice seq unsolicited notices =>
    [frameBytes t.dest 0 5 seq (byteOf (if unsolicited then 1 else 0) :: notices.flatMap (·.bytes))]
  | .reply seq r => r.payloads.map (frameBytes t.dest 0 7 seq)
  | .poll => [frameBytes t.dest 0 8 0 []]
  | .marker m => [frameBytes t.dest 0 9 0 (markerBytes m)]
  | .alert entries overflow => [frameBytes t.dest 0 10 0 (alertBytes entries overflow)]
  | .relay src cls seq payload => [frameBytes t.dest src cls seq payload]

end Sys2Proof.Machine
end

