-- ==== Sys2Proof/WellFormed.lean ====
section
/-! DEFINITION. The operands that a command's frame can carry (R159 to R162) or its timer's owner has: what a well-formed
command is. The meanings answer for the operands outside these bounds as log 27 says. -/

namespace Sys2Proof

/-- An address of another station than the arbiter (R160). -/
def stationSource (a : Nat) : Bool := decide (1 ≤ a ∧ a ≤ 31)

/-- A frame that a ring input can receive from another station (R159, R160). -/
def RxFrame.wf (fr : RxFrame) : Bool :=
  decide (fr.dest ≤ 31) && stationSource fr.src && decide (fr.seq ≤ 15) && decide (fr.payload.length ≤ 56)

/-- An own frame of a class other than MARKER (R163). -/
def OwnFrame.wf (fr : OwnFrame) : Bool :=
  decide (fr.dest ≤ 31) && decide (fr.cls ≤ 15) && decide (fr.seq ≤ 15) && decide (fr.payload.length ≤ 56)

/-- A wrap address of a marker (R162). -/
def wrapWf (x : Option Nat) : Bool :=
  match x with
  | none => true
  | some a => decide (1 ≤ a ∧ a ≤ 255)

/-- A marker's payload (R162). -/
def MarkerFrame.wf (m : MarkerFrame) : Bool :=
  decide (m.number ≤ 255) && decide (m.hops ≤ 255) && wrapWf m.forwardWrap && wrapWf m.reverseWrap

/-- The frame of a DEMAND item (R160). -/
def DemandCtx.wf (d : DemandCtx) : Bool := stationSource d.src && decide (d.seq ≤ 15)

/-- An optional two-byte part (R160). -/
def halfWf (x : Option Nat) : Bool :=
  match x with
  | none => true
  | some v => decide (v ≤ 65535)

/-- A DEMAND item's fields (R43, R160). -/
def DemandItem.wf (it : DemandItem) : Bool :=
  decide (it.resource ≤ 15) && decide (it.cls ≤ 3) && decide (it.weight ≤ 15) && decide (it.q ≤ 65535) &&
    halfWf it.floor && halfWf it.fallback

/-- The frame of a MANAGE operation (R160). -/
def ManageCtx.wf (m : ManageCtx) : Bool := stationSource m.src && decide (m.seq ≤ 15)

/-- An operand of one byte (R162). -/
def byteWf (n : Nat) : Bool := decide (n ≤ 255)

/-- A well-formed command. -/
def Instr.wf : Instr → Bool
  | .hardReset => true
  | .dropInvalidFrame => true
  | .frameForward cls fr => decide (cls ≤ 15) && fr.wf
  | .ownFrameStrip fr => fr.wf
  | .markerReturn _ m => m.wf
  | .sample fr => fr.wf
  | .statusFrame fr => fr.wf
  | .intercept fr => fr.wf
  | .acquireShared d it => d.wf && it.wf
  | .acquireExclusive d it => d.wf && it.wf
  | .upgrade d it => d.wf && it.wf
  | .downgrade d it => d.wf && it.wf
  | .refresh d it => d.wf && it.wf
  | .release d it => d.wf && it.wf
  | .yieldDone d it => d.wf && it.wf
  | .reserve d it => d.wf && it.wf
  | .commitIf d it _ generation => d.wf && it.wf && byteWf generation
  | .badItem d it => d.wf && it.wf
  | .malformed d => d.wf
  | .load m table index cls part contents =>
    m.wf && byteWf table && byteWf index && byteWf cls && decide (part.number ≤ 127) && decide (contents.length ≤ 51)
  | .read m table index => m.wf && byteWf table && byteWf index
  | .status m item index => m.wf && byteWf item && byteWf index
  | .start m => m.wf
  | .restart m => m.wf
  | .enterConfig m => m.wf
  | .holdChannel m n => m.wf && byteWf n
  | .freeChannel m n => m.wf && byteWf n
  | .returnStation m address => m.wf && byteWf address
  | .clearSequence m n => m.wf && byteWf n
  | .clearAlert m category index => m.wf && byteWf category && byteWf index
  | .ackOldest m => m.wf
  | .clearCounts m => m.wf
  | .clearLoop m => m.wf
  | .probe m kind resource client quantity =>
    m.wf && byteWf kind && byteWf resource && byteWf client && decide (quantity ≤ 65535)
  | .badOperation m op => m.wf && byteWf op
  | .evict => true
  | .evictAll => true
  | .demote => true
  | .freeze => true
  | .thaw => true
  | .cap => true
  | .uncap => true
  | .staleTimerExpiry point => decide (point < 48)
  | .leaseExpiry resource client => decide (resource < 12) && decide (client < 3)
  | .yieldTimerExpiry record => decide (record < 8)
  | .passStart => true
  | .passCompletion => true
  | .rampExpiry channel => decide (channel < 16)
  | .ackTimeout channel => decide (channel < 16)
  | .refreshTimerExpiry channel => decide (channel < 16)
  | .watchExpiry slot => decide (slot < 4)
  | .stopDelayExpiry slot => decide (slot < 4)
  | .antiCycleExpiry slot => decide (slot < 4)
  | .markerTimerExpiry => true
  | .returnWatchExpiry _ => true
  | .silenceExpiry record => decide (record < 30)
  | .pollTimeout record => decide (record < 30)

end Sys2Proof
end

