-- ==== Sys2Proof/Decode.lean ====
section
/-! DEFINITION. What arrives at a ring input, read into commands (R159 to R162). The opcode table gives its rows no bits, so
no word spells a command (`decodeTableWord`); the bytes of a frame do (`receive`). -/

namespace Sys2Proof

open Sys2Proof.Machine

/-- The command that a word of the opcode table's bits spells: the table gives no row any bits, so there is none. -/
def decodeTableWord (nbits w : Nat) : Option Instr :=
  match nbits, w with
  | _, _ => none

/-! ## Validity (R159) -/

/-- The fields of a received frame. -/
structure Received where
  dest    : Nat
  src     : Nat
  cls     : Nat
  seq     : Nat
  payload : List Byte
deriving DecidableEq, Repr

/-- The frame that bytes hold, when they are a valid frame (R159): the CRC agrees, the length field is at most 56 and
agrees with the payload received, and both addresses are at most 31. -/
def readFrame (bytes : List Byte) : Option Received :=
  let body := bytes.take (bytes.length - 2)
  match body with
  | d :: s :: c :: n :: payload =>
    if bytes.drop (bytes.length - 2) = word16 (crc16 body) ∧ n.toNat ≤ 56 ∧ n.toNat = payload.length ∧ d.toNat ≤ 31
        ∧ s.toNat ≤ 31 then
      some { dest := d.toNat, src := s.toNat, cls := c.toNat / 16, seq := c.toNat % 16, payload := payload }
    else none
  | _ => none

/-! ## MARKER (R162) -/

/-- A wrap address, 0 for absent (R162; log 32). -/
def readWrap (b : Byte) : Option Nat := if b.toNat = 0 then none else some b.toNat

/-- A MARKER's payload; absent when it is too short or names no ring (R162). Bytes past the fifth are not read, which is the
model's choice (log 32). -/
def readMarker (payload : List Byte) : Option MarkerFrame :=
  match payload with
  | number :: ring :: hops :: f :: r :: _ =>
    if ring.toNat ≤ 1 then
      some { number := number.toNat, sentOn := if ring.toNat = 0 then .forward else .reverse, hops := hops.toNat,
             forwardWrap := readWrap f, reverseWrap := readWrap r }
    else none
  | _ => none

/-! ## DEMAND (R43) -/

/-- The command of a whole item. -/
def itemCommand (d : DemandCtx) (x : ItemOp × DemandItem) : Instr :=
  match x.1 with
  | .acquire .shared => .acquireShared d x.2
  | .acquire .exclusive => .acquireExclusive d x.2
  | .upgrade => .upgrade d x.2
  | .downgrade => .downgrade d x.2
  | .refresh => .refresh d x.2
  | .release => .release d x.2
  | .yieldDone => .yieldDone d x.2
  | .reserve => .reserve d x.2
  | .commitIf level generation => .commitIf d x.2 level generation
  | .bad => .badItem d x.2

/-- The command of one step of a DEMAND frame. -/
def stepCommand (x : DemandCtx × Option (ItemOp × DemandItem)) : Instr :=
  match x.2 with
  | some it => itemCommand x.1 it
  | none => .malformed x.1

/-- The commands of a DEMAND frame to address 0 (R43). -/
def demandCommands (input : Ring) (f : Received) : List Instr :=
  (frameSteps input f.src f.seq f.payload).map stepCommand

/-! ## MANAGE (R162, R196) -/

/-- The command of a MANAGE payload: an operation with its operands, or BAD_OPERATION for a code that names none or a
payload too short (R162, R196). Bytes after the operands are not read (log 30). -/
def manageCommand (m : ManageCtx) (payload : List Byte) : Instr :=
  match payload with
  | [] => .badOperation m 0
  | op :: rest =>
    match op.toNat, rest with
    | 1, table :: index :: cls :: part :: contents =>
      .load m table.toNat index.toNat cls.toNat (readPart part) contents
    | 2, table :: index :: _ => .read m table.toNat index.toNat
    | 3, item :: index :: _ => .status m item.toNat index.toNat
    | 4, _ => .start m
    | 5, _ => .restart m
    | 6, _ => .enterConfig m
    | 7, n :: _ => .holdChannel m n.toNat
    | 8, n :: _ => .freeChannel m n.toNat
    | 9, a :: _ => .returnStation m a.toNat
    | 10, n :: _ => .clearSequence m n.toNat
    | 11, category :: index :: _ => .clearAlert m category.toNat index.toNat
    | 12, _ => .ackOldest m
    | 13, _ => .clearCounts m
    | 14, _ => .clearLoop m
    | 15, kind :: resource :: client :: h :: l :: _ =>
      .probe m kind.toNat resource.toNat client.toNat (be16 h l)
    | code, _ => .badOperation m code

/-! ## A frame (R163 to R165) -/

/-- The commands of a valid frame at a ring input. An own MARKER is a marker whatever its destination and sequence, which
is the model's choice (log 32). -/
def frameCommands (input : Ring) (f : Received) : List Instr :=
  let fr : RxFrame := { input := input, dest := f.dest, src := f.src, seq := f.seq, payload := f.payload }
  if f.src = 0 then
    match f.cls == classMarker, readMarker f.payload with
    | true, some m => [.markerReturn input m]
    | _, _ => [.ownFrameStrip { input := input, dest := f.dest, cls := f.cls, seq := f.seq, payload := f.payload }]
  else if f.cls = classSample then [.sample fr]
  else if f.cls = classStatus then [.statusFrame fr]
  else if f.cls = classCommand then [.intercept fr]
  else if f.cls = classDemand ∧ f.dest = 0 then demandCommands input f
  else if f.cls = classManage ∧ f.dest = 0 then
    [manageCommand { input := input, src := f.src, seq := f.seq } f.payload]
  else [.frameForward f.cls fr]

/-- The commands that bytes arriving at a ring input stand for (R159, R163). -/
def receive (input : Ring) (bytes : List Byte) : List Instr :=
  match readFrame bytes with
  | none => [.dropInvalidFrame]
  | some f => frameCommands input f

end Sys2Proof
end

