-- ==== Sys2Proof/Machine/Alerts.lean ====
section
/-! DEFINITION. The operations on the alert list, the counts and the loop statistics: CLEAR_ALERT, ACK_OLDEST,
CLEAR_COUNTS and CLEAR_LOOP (R174, R191, R192, R194). -/

namespace Sys2Proof.Machine

/-- Whether an index is in the range of its category (R189). -/
def alertIndexValid (category index : Nat) : Bool :=
  match category with
  | 1 => decide (index ≤ 5)
  | 2 => decide (1 ≤ index ∧ index ≤ 30)
  | 3 => decide (index ≤ 47)
  | 4 => decide (index ≤ 15)
  | 5 => decide (index ≤ 3)
  | 6 => decide (index ≤ 11)
  | 7 => decide (index ≤ 2)
  | 8 => decide (index = 0)
  | _ => false

/-- CLEAR-ALERT (R191). -/
def takeClearAlert (category index : Nat) (s : State) : Answer :=
  if alertIndexValid category index then
    if ⟨category, index⟩ ∈ s.alc.alerts then
      .of .done (sendAlert { s with alc.alerts := s.alc.alerts.filter (· ≠ ⟨category, index⟩) })
    else .of .wrongState s
  else .of .badIndex s

/-- ACK-OLDEST (R191). -/
def takeAckOldest (s : State) : Answer :=
  match s.alc.alerts with
  | [] => .of .wrongState s
  | _ :: rest => .of .done (sendAlert { s with alc.alerts := rest })

/-- CLEAR-COUNTS (R194): every count and the overflow count 0, with an ALERT frame when the overflow count was above
0. -/
def takeClearCounts (s : State) : Answer :=
  let cleared := { s with alc.counts := Table.all 20 0, alc.overflow := 0 }
  .of .done (if 0 < s.alc.overflow then sendAlert cleared else cleared)

/-- CLEAR-LOOP (R174). -/
def takeClearLoop (s : State) : Answer :=
  .of .done
    { s with
      lpu.forwardWrap := none, lpu.reverseWrap := none, lpu.presentTrip := none, lpu.minTrip := none,
      lpu.maxTrip := none, lpu.lastHops := none }

/-! ## Meanings -/

/-- CLEAR_ALERT (R191). -/
def execClearAlert (m : ManageCtx) (category index : Nat) (s : State) : Host.Outcome State Fault Refusal :=
  .next (manage m Op.clearAlert.code (takeClearAlert category index) s)

/-- ACK_OLDEST (R191). -/
def execAckOldest (m : ManageCtx) (s : State) : Host.Outcome State Fault Refusal :=
  .next (manage m Op.ackOldest.code takeAckOldest s)

/-- CLEAR_COUNTS (R194). -/
def execClearCounts (m : ManageCtx) (s : State) : Host.Outcome State Fault Refusal :=
  .next (manage m Op.clearCounts.code takeClearCounts s)

/-- CLEAR_LOOP (R174). -/
def execClearLoop (m : ManageCtx) (s : State) : Host.Outcome State Fault Refusal :=
  .next (manage m Op.clearLoop.code takeClearLoop s)

end Sys2Proof.Machine
end

