-- ==== Sys2Proof/Machine/Events.lean ====
section
/-! DEFINITION. The timer rows of the channels, slots and stations, and the management rows that act on one channel, one
slot or one station (R129, R132, R133, R137, R138, R149, R151, R153, R154, R181, R182, R185). -/

namespace Sys2Proof.Machine

/-! ## Channel timers (R129, R132, R133) -/

/-- An expiry of an ACTIVE channel's timer, with the reports of the change it brings and the test of the head of the
probe queue (R84, R128, R132, R133, R135). -/
def channelExpiry (timer : Channel → Timer) (act : Nat → State → State) (n : Nat) (s : State) : State :=
  match s.channel n with
  | none => s
  | some ch =>
    if ch.state = .active then
      match expire (timer ch) s with
      | none => s
      | some s => testHead (reportChanges s (act n s))
    else s

/-- RAMP_EXPIRY (R129). -/
def execRampExpiry (n : Nat) (s : State) : Host.Outcome State Fault Refusal :=
  .next (channelExpiry (·.rampTimer) rampExpiry n s)

/-- ACK_TIMEOUT (R132). -/
def execAckTimeout (n : Nat) (s : State) : Host.Outcome State Fault Refusal :=
  .next (channelExpiry (·.ackTimer) ackExpiry n s)

/-- REFRESH_TIMER_EXPIRY (R133). -/
def execRefreshTimerExpiry (n : Nat) (s : State) : Host.Outcome State Fault Refusal :=
  .next (channelExpiry (·.refreshTimer) refreshExpiry n s)

/-! ## Slot timers (R149, R151, R153) -/

/-- WATCH_EXPIRY (R149, R152): the slot becomes FAILED; the head of the probe queue is tested (R84). -/
def execWatchExpiry (k : Nat) (s : State) : Host.Outcome State Fault Refusal :=
  match s.slot k with
  | none => .next s
  | some sl =>
    match expire sl.watch s with
    | none => .next s
    | some s => .next (testHead (failSlot k s))

/-- STOP_DELAY_EXPIRY (R151); the head of the probe queue is tested (R84). -/
def execStopDelayExpiry (k : Nat) (s : State) : Host.Outcome State Fault Refusal :=
  match s.slot k with
  | none => .next s
  | some sl =>
    match expire sl.stopDelayTimer s with
    | none => .next s
    | some s => .next (testHead (stopDelayExpired k s))

/-- ANTI_CYCLE_EXPIRY (R153): the timer is stopped. -/
def execAntiCycleExpiry (k : Nat) (s : State) : Host.Outcome State Fault Refusal :=
  match s.slot k with
  | none => .next s
  | some sl =>
    match expire sl.antiCycleTimer s with
    | none => .next s
    | some s => .next (s.setSlot k (some { sl with antiCycleTimer := .stopped }))

/-! ## Station timers (R181, R182) -/

/-- SILENCE_EXPIRY (R181): the silence timer runs in ABSENT and ONLINE alone. -/
def execSilenceExpiry (i : Nat) (s : State) : Host.Outcome State Fault Refusal :=
  match s.station i with
  | none => .next s
  | some st =>
    match st.state with
    | .absent | .online =>
      match expire st.silenceTimer s with
      | none => .next s
      | some s => .next (silenceExpired i st s)
    | .polling _ | .faulty => .next s

/-- POLL_TIMEOUT (R182): the poll timer runs in POLLING alone. -/
def execPollTimeout (i : Nat) (s : State) : Host.Outcome State Fault Refusal :=
  match s.station i with
  | none => .next s
  | some st =>
    match st.state with
    | .polling n =>
      match expire st.pollTimer s with
      | none => .next s
      | some s => .next (pollExpired i n st s)
    | .absent | .online | .faulty => .next s

/-! ## HOLD-CHANNEL and FREE-CHANNEL (R137, R138); the CHU's reports make each an event of R84 -/

/-- HOLD-CHANNEL (R137). -/
def takeHoldChannel (n : Nat) (s : State) : Answer :=
  match s.channel n with
  | none => .of .badIndex s
  | some ch =>
    let held := if ch.state = .active then ch.enterHeld else ch
    .tested (reportChanges s (s.setChannel n (some { held with hold := true })))

/-- FREE-CHANNEL (R138). -/
def takeFreeChannel (n : Nat) (s : State) : Answer :=
  match s.channel n with
  | none => .of .badIndex s
  | some ch =>
    if ch.state = .active then .of .done s
    else if stationFaulty ch.station s then .of .wrongState s
    else
      .tested (reportChanges s
        (returnChannel n (s.mgu.part == .run) (s.setChannel n (some { ch with hold := false }))))

/-- HOLD_CHANNEL (R137). -/
def execHoldChannel (m : ManageCtx) (n : Nat) (s : State) : Host.Outcome State Fault Refusal :=
  .next (manage m Op.holdChannel.code (takeHoldChannel n) s)

/-- FREE_CHANNEL (R138). -/
def execFreeChannel (m : ManageCtx) (n : Nat) (s : State) : Host.Outcome State Fault Refusal :=
  .next (manage m Op.freeChannel.code (takeFreeChannel n) s)

/-! ## RETURN-STATION and CLEAR-SEQUENCE (R185, R154) -/

/-- RETURN-STATION (R185). -/
def takeReturnStation (a : Nat) (s : State) : Answer :=
  match stationRecord a s with
  | none => .of .badIndex s
  | some i =>
    match s.station i with
    | none => .of .badIndex s
    | some st =>
      match st.state with
      | .faulty => .of .done (returnStation i st s)
      | .absent | .online | .polling _ => .of .wrongState s

/-- RETURN_STATION (R185). -/
def execReturnStation (m : ManageCtx) (a : Nat) (s : State) : Host.Outcome State Fault Refusal :=
  .next (manage m Op.returnStation.code (takeReturnStation a) s)

/-- CLEAR-SEQUENCE (R154): a FAILED slot becomes STOPPED and its rest begins (R153). -/
def takeClearSequence (k : Nat) (s : State) : Answer :=
  match s.slot k with
  | none => .of .badIndex s
  | some sl =>
    if sl.state = .failed then
      .of .done (s.setSlot k (some
        { sl with state := .stopped, antiCycleTimer := Timer.startUnlessZero s.now (1000 * sl.antiCycle) }))
    else .of .wrongState s

/-- CLEAR_SEQUENCE (R154). -/
def execClearSequence (m : ManageCtx) (k : Nat) (s : State) : Host.Outcome State Fault Refusal :=
  .next (manage m Op.clearSequence.code (takeClearSequence k) s)

end Sys2Proof.Machine
end

