-- ==== Sys2Proof/Machine/Probes.lean ====
section
/-! DEFINITION. Supervisor probes (R83 to R88): the checks of a PROBE operation, and the commands for the seven kinds as
each reaches execution at the head of the queue. -/

namespace Sys2Proof.Machine

/-! ## Queueing (R83) -/

/-- The kind a code names (R162). -/
def probeKind (code : Nat) : Option ProbeKind :=
  match code with
  | 1 => some .evict
  | 2 => some .evictAll
  | 3 => some .demote
  | 4 => some .freeze
  | 5 => some .thaw
  | 6 => some .cap
  | 7 => some .uncap
  | _ => none

/-- Whether a resource's kind admits a probe (R83 check 4). -/
def probeKindFits (k : ProbeKind) (r : ResKind) : Bool :=
  match r with
  | .plain | .child => true
  | .parent => k == .cap || k == .uncap
  | .unused => false

/-- A PROBE operation: the checks of R83 in order; a probe that passes them joins the queue unanswered. -/
def takeProbe (kind resource client quantity seq : Nat) (s : State) : Answer :=
  if s.mgu.part = .config then .of .wrongState s
  else match probeKind kind with
    | none => .of .badValue s
    | some k =>
      if 11 < resource ∨ (k = .evict ∧ 2 < client) then .of .badIndex s
      else if probeKindFits k (s.resource resource).kind = false then .of .badIndex s
      else if k = .cap ∧ 10000 < quantity then .of .badValue s
      else if 4 ≤ s.gtb.probes.length then .of .busy s
      else
        { state :=
            { s with gtb.probes := s.gtb.probes ++
                [{ kind := k, resource := resource, client := client, quantity := quantity, seq := seq }] }
          status := none
          tests := true }

/-- PROBE (R83). -/
def execProbe (m : ManageCtx) (kind resource client quantity : Nat) (s : State) : Host.Outcome State Fault Refusal :=
  .next (manage m Op.probe.code (takeProbe kind resource client quantity m.seq) s)

/-! ## Execution by command (R84; log 3) -/

/-- The execution of the head of the probe queue given as a command: when it is of the kind and the condition of R84
holds, it executes and the new head is tested. A command for a kind that is not at the head, or whose head stalls, finds
nothing to execute. -/
def executeHead (k : ProbeKind) (s : State) : State :=
  match s.gtb.probes with
  | [] => s
  | p :: rest => if p.kind = k ∧ probeReady s p then testHead (runHead p rest s) else s

/-! ## Meanings -/

/-- EVICT (R85). -/
def execEvict (s : State) : Host.Outcome State Fault Refusal := .next (executeHead .evict s)

/-- EVICT_ALL (R85). -/
def execEvictAll (s : State) : Host.Outcome State Fault Refusal := .next (executeHead .evictAll s)

/-- DEMOTE (R86). -/
def execDemote (s : State) : Host.Outcome State Fault Refusal := .next (executeHead .demote s)

/-- FREEZE (R86). -/
def execFreeze (s : State) : Host.Outcome State Fault Refusal := .next (executeHead .freeze s)

/-- THAW (R86). -/
def execThaw (s : State) : Host.Outcome State Fault Refusal := .next (executeHead .thaw s)

/-- CAP (R87). -/
def execCap (s : State) : Host.Outcome State Fault Refusal := .next (executeHead .cap s)

/-- UNCAP (R87). -/
def execUncap (s : State) : Host.Outcome State Fault Refusal := .next (executeHead .uncap s)

end Sys2Proof.Machine
end

