-- ==== Sys2Proof/Machine/Forward.lean ====
section
/-! DEFINITION. FRAME_FORWARD: a frame of any class given whole (R163 to R165). The row is for frames whose content no block
takes; a frame whose content one does take is handled as its class's own rows handle it (log 25). -/

namespace Sys2Proof.Machine

/-- The operation of a MANAGE payload, with the code its REPLY answers (R162, R196): an unknown code, or a payload too
short for its operands, is answered BAD-VALUE. Bytes after the operands are not read (log 30). -/
def operationOf (seq : Nat) (payload : List Byte) : Nat × (State → Answer) :=
  match payload with
  | [] => (0, .of .badValue)
  | op :: rest =>
    (op.toNat,
      match op.toNat, rest with
      | 1, table :: index :: cls :: part :: contents =>
        takeLoad table.toNat index.toNat cls.toNat (readPart part) contents
      | 2, table :: index :: _ => takeRead table.toNat index.toNat
      | 3, item :: index :: _ => takeStatusItem item.toNat index.toNat
      | 4, _ => takeStart
      | 5, _ => takeRestart
      | 6, _ => takeRestart
      | 7, n :: _ => takeHoldChannel n.toNat
      | 8, n :: _ => takeFreeChannel n.toNat
      | 9, a :: _ => takeReturnStation a.toNat
      | 10, n :: _ => takeClearSequence n.toNat
      | 11, category :: index :: _ => takeClearAlert category.toNat index.toNat
      | 12, _ => takeAckOldest
      | 13, _ => takeClearCounts
      | 14, _ => takeClearLoop
      | 15, kind :: resource :: client :: h :: l :: _ =>
        takeProbe kind.toNat resource.toNat client.toNat (be16 h l) seq
      | _, _ => .of .badValue)

/-- A MANAGE frame to address 0 (R164, R196). -/
def manageFrame (fr : RxFrame) (s : State) : State :=
  let x := operationOf fr.seq fr.payload
  manage { input := fr.input, src := fr.src, seq := fr.seq } x.1 x.2 s

/-- A DEMAND frame to address 0, its items one after another (R42, R43). -/
def demandFrame (fr : RxFrame) (s : State) : State :=
  (frameSteps fr.input fr.src fr.seq fr.payload).foldl takeDemandStep s

/-- A frame of another station steered by destination and class (R164, R165). -/
def steer (cls : Nat) (fr : RxFrame) (s : State) : State :=
  if cls = classSample then sampleFrame fr s
  else if cls = classStatus then statusFrame fr s
  else if cls = classCommand then commandFrame fr s
  else if cls = classDemand ∧ fr.dest = 0 then demandFrame fr s
  else if cls = classManage ∧ fr.dest = 0 then manageFrame fr s
  else steerPlain cls fr (arrive fr.src s)

/-- FRAME_FORWARD (R164, R165). -/
def execFrameForward (cls : Nat) (fr : RxFrame) (s : State) : Host.Outcome State Fault Refusal :=
  .next (unlessOwn cls fr (steer cls fr) s)

end Sys2Proof.Machine
end

