-- ==== Sys2Proof/Machine/Loop.lean ====
section
/-! DEFINITION. The Loop Port Unit's markers and loop states (R169 to R174). -/

namespace Sys2Proof.Machine

/-! ## Outstanding markers (R169) -/

/-- The outstanding marker of a ring. -/
def outstanding (s : State) : Ring → Option Outstanding
  | .forward => s.lpu.forwardMarker
  | .reverse => s.lpu.reverseMarker

def setOutstanding (ring : Ring) (x : Option Outstanding) (s : State) : State :=
  match ring with
  | .forward => { s with lpu.forwardMarker := x }
  | .reverse => { s with lpu.reverseMarker := x }

/-- The number a marker carries (R169; log 8). -/
def carriedNumber (n : Nat) : Nat := if Config.markerCarriesNext then (n + 1) % 256 else n

/-- A marker sent on a ring in a role: its number, hop count 0 and no wrap address, its return watch started (R169). -/
def sendMarker (ring : Ring) (role : MarkerRole) (s : State) : State :=
  let number := carriedNumber s.lpu.markerNumber
  let s := setOutstanding ring
    (some { number := number, role := role, sentAt := s.now, watch := Timer.start s.now s.lpu.returnLimit }) s
  let s := { s with lpu.markerNumber := (s.lpu.markerNumber + 1) % 256 }
  sendOn ring 31
    (.marker { number := number, sentOn := ring, hops := 0, forwardWrap := none, reverseWrap := none }) s

/-- Every outstanding marker abandoned (R172, R173). -/
def abandonMarkers (s : State) : State :=
  { s with lpu.forwardMarker := none, lpu.reverseMarker := none }

/-- A paired round started: outstanding markers abandoned, a PAIRED marker sent on each ring (R172; log 8). -/
def startRound (s : State) : State :=
  let s := { abandonMarkers s with lpu.round := some ⟨none, none⟩ }
  if Config.pairedForwardFirst then sendMarker .reverse .paired (sendMarker .forward .paired s)
  else sendMarker .forward .paired (sendMarker .reverse .paired s)

/-! ## Changes of loop state (R173) -/

/-- The loop state becomes another, with all its effects at once (R173; log 18). -/
def changeLoop (new : LoopState) (s : State) : State :=
  let old := s.lpu.loop
  let s := countEvent .loopSwitches s
  let s := { abandonMarkers s with lpu.loop := new, lpu.missCount := 0, lpu.recoveryCount := 0, lpu.round := none }
  chuLoopChange old (raiseAlert .loop new.index s)

/-! ## Returns (R169, R171, R172) -/

/-- The loop state a return indicates (R169). -/
def indicates (sentOn arrivedAt : Ring) (forwardWrap reverseWrap : Option Nat) : Option LoopState :=
  match sentOn, arrivedAt, forwardWrap, reverseWrap with
  | .forward, .forward, none, none => some .forward
  | .reverse, .reverse, none, none => some .reverse
  | .forward, .forward, some _, some _ => some .wrapBoth
  | .forward, .reverse, some _, none => some .wrapFwd
  | .reverse, .forward, none, some _ => some .wrapRev
  | _, _, _, _ => none

/-- The statistics and wrap addresses of a return recorded (R169). -/
def recordReturn (trip : Nat) (m : MarkerFrame) (s : State) : State :=
  { s with
    lpu.presentTrip := some trip
    lpu.minTrip := some (match s.lpu.minTrip with | some x => min x trip | none => trip)
    lpu.maxTrip := some (match s.lpu.maxTrip with | some x => max x trip | none => trip)
    lpu.lastHops := some m.hops
    lpu.forwardWrap := if m.forwardWrap.isSome then m.forwardWrap else s.lpu.forwardWrap
    lpu.reverseWrap := if m.reverseWrap.isSome then m.reverseWrap else s.lpu.reverseWrap }

/-- A miss, or a REGULAR return that indicates nothing: the miss count rises, and at 3 the loop state changes, or in
REVERSE the wrap attempt starts (R171). -/
def regularMiss (s : State) : State :=
  let s := { s with lpu.missCount := min 3 (s.lpu.missCount + 1) }
  if s.lpu.missCount < 3 then s
  else match s.lpu.loop with
    | .forward => changeLoop .reverse s
    | .reverse => startRound s
    | .wrapBoth | .wrapFwd | .wrapRev => changeLoop .down s
    | .down => s

/-- The outcome of a REGULAR marker's return (R171). -/
def regularReturn (indicated : Option LoopState) (s : State) : State :=
  match indicated with
  | none => regularMiss s
  | some l => if l = s.lpu.loop then { s with lpu.missCount := 0 } else changeLoop l s

/-- The outcome of a RECOVERY marker's return (R171). -/
def recoveryReturn (indicated : Option LoopState) (s : State) : State :=
  if indicated = some .forward ∧ s.lpu.loop ≠ .forward then changeLoop .forward s else s

/-- The loop state a paired round decides: the first row of R172 that applies. That a round in which the forward marker
indicated WRAP-BOTH, which no row names, ends in DOWN where rows 1 to 5 do not apply is the model's choice (log 39). -/
def roundResult (forwardEnd reverseEnd : Option LoopState) : LoopState :=
  if forwardEnd = some .forward then .forward
  else if reverseEnd = some .reverse then .reverse
  else if forwardEnd = some .wrapFwd ∧ reverseEnd = some .wrapRev then .wrapBoth
  else if forwardEnd = some .wrapFwd then .wrapFwd
  else if reverseEnd = some .wrapRev then .wrapRev
  else .down

/-- A paired round whose markers have both ended decides the loop state; a wrap attempt that ends in REVERSE clears
the miss count (R172). -/
def decideRound (forwardEnd reverseEnd : Option LoopState) (s : State) : State :=
  let new := roundResult forwardEnd reverseEnd
  let s := { s with lpu.round := none }
  if new = s.lpu.loop then
    if new = .reverse then { s with lpu.missCount := 0 } else s
  else changeLoop new s

/-- A PAIRED marker's part of the round ends, by return or by its return watch (R172). -/
def pairedEnd (ring : Ring) (indicated : Option LoopState) (s : State) : State :=
  match s.lpu.round with
  | none => s
  | some r =>
    let r := match ring with
      | .forward => { r with forwardEnd := some indicated }
      | .reverse => { r with reverseEnd := some indicated }
    match r.forwardEnd, r.reverseEnd with
    | some f, some v => decideRound f v s
    | _, _ => { s with lpu.round := some r }

/-- A marker that came home judged for its role (R171, R172). -/
def judgeReturn (role : MarkerRole) (ring : Ring) (indicated : Option LoopState) (s : State) : State :=
  match role with
  | .regular => regularReturn indicated s
  | .recovery => recoveryReturn indicated s
  | .paired => pairedEnd ring indicated s

/-- A marker taken by the marker mechanism (R169): a return when it matches the outstanding marker of the ring it was
sent on, and ignored otherwise. -/
def markerHome (input : Ring) (m : MarkerFrame) (s : State) : State :=
  match outstanding s m.sentOn with
  | none => s
  | some o =>
    if o.number = m.number then
      judgeReturn o.role m.sentOn (indicates m.sentOn input m.forwardWrap m.reverseWrap)
        (recordReturn (s.now - o.sentAt) m (setOutstanding m.sentOn none s))
    else s

/-! ## Meanings -/

/-- MARKER_RETURN (R169): relayed in WRAP-BOTH at the reverse input, where it has not come home; otherwise stripped and
handed to the marker mechanism (R163, R166). It is relayed in the form of R161 and R162, whatever its destination, its
sequence and bytes past the fifth were, which is the model's choice (log 32). -/
def execMarkerReturn (input : Ring) (m : MarkerFrame) (s : State) : Host.Outcome State Fault Refusal :=
  if s.lpu.loop = .wrapBoth ∧ input = .reverse then .next (sendOn .reverse 31 (.marker m) s)
  else .next (markerHome input m s)

/-- What the LPU sends at a marker timer expiry outside a paired round (R170). That the REGULAR marker is sent, and takes
its number, before the RECOVERY marker of the same expiry is the model's choice (log 40). -/
def sendMarkers (s : State) : State :=
  match s.lpu.loop with
  | .forward | .wrapBoth | .wrapFwd => sendMarker .forward .regular s
  | .reverse | .wrapRev =>
    let s := sendMarker .reverse .regular s
    if s.lpu.recoveryCount + 1 < 10 then { s with lpu.recoveryCount := s.lpu.recoveryCount + 1 }
    else sendMarker .forward .recovery { s with lpu.recoveryCount := 0 }
  | .down => startRound s

/-- MARKER_TIMER_EXPIRY (R170): the timer restarts with the period held, and markers are sent unless a paired round is in
progress (R169, R170). -/
def execMarkerTimerExpiry (s : State) : Host.Outcome State Fault Refusal :=
  match expire s.lpu.markerTimer s with
  | none => .next s
  | some s =>
    let s := { s with lpu.markerTimer := Timer.start s.now s.lpu.markerPeriod }
    .next (if s.lpu.round.isSome then s else sendMarkers s)

/-- A return watch's expiry, by the role of its marker (R171, R172). -/
def watchMissed (ring : Ring) (role : MarkerRole) (s : State) : State :=
  let s := setOutstanding ring none s
  match role with
  | .regular => regularMiss s
  | .recovery => s
  | .paired => pairedEnd ring none s

/-- RETURN_WATCH_EXPIRY (R171). -/
def execReturnWatchExpiry (ring : Ring) (s : State) : Host.Outcome State Fault Refusal :=
  match outstanding s ring with
  | none => .next s
  | some o =>
    match expire o.watch s with
    | none => .next s
    | some s => .next (watchMissed ring o.role s)

end Sys2Proof.Machine
end

