-- ==== Sys2Proof/Machine/Allocation.lean ====
section
/-! DEFINITION. The computation of an allocation pass from its latched inputs (R98 to R109): the exclusive rule, the
sharing of a class by weight with its floors, and the parent cut. -/

namespace Sys2Proof.Machine

/-! ## Sharing a class (R100 to R103) -/

/-- A claim that takes part in the sharing of a class. -/
structure Ask where
  client : Nat
  q      : Nat
  f      : Nat
  weight : Nat
deriving DecidableEq, Repr

/-- A client's computed grant. -/
abbrev Share := Nat × Nat

def asked (asks : List Ask) : Nat := (asks.map (·.q)).sum

def weights (asks : List Ask) : Nat := (asks.map (·.weight)).sum

/-- The provisional share of a claim (R101). -/
def provisional (budget total : Nat) (a : Ask) : Nat := budget * a.weight / total

/-- The leftover handed out one unit to each claim, in ascending client number, until it is used up (R102). -/
def handOut : Nat → List Share → List Share
  | _, [] => []
  | 0, shares => shares
  | n + 1, (c, x) :: rest => (c, x + 1) :: handOut n rest

/-- The rounds of R101 over the uncapped claims, and the leftover of the last one (R102). The fuel is more than the
number of rounds. -/
def shareRounds : Nat → Nat → List Ask → List Share
  | 0, _, _ => []
  | fuel + 1, budget, asks =>
    let total := weights asks
    let capped := asks.filter fun a => decide (a.q ≤ provisional budget total a)
    if capped = [] then
      let shares := asks.map fun a => (a.client, provisional budget total a)
      handOut (budget - (shares.map (·.2)).sum) shares
    else
      capped.map (fun a => (a.client, a.q)) ++
        shareRounds fuel (budget - asked capped) (asks.filter fun a => !decide (a.q ≤ provisional budget total a))

/-- A client's share; 0 for a client that has none. -/
def shareOf (shares : List Share) (c : Nat) : Nat :=
  match shares.find? fun x => x.1 == c with
  | some x => x.2
  | none => 0

/-- A class shared within its budget, with the floor tests and at most `reshares` re-sharings (R100 to R103): the
computed grants, and the number of claims dropped with a grant above 0. -/
def shareClass (reshares budget : Nat) (asks : List Ask) : List Share × Nat :=
  if asked asks ≤ budget then (asks.map fun a => (a.client, a.q), 0)
  else
    let shares := shareRounds (asks.length + 1) budget asks
    let failing := asks.filter fun a => decide (shareOf shares a.client < a.f)
    let kept := asks.filter fun a => !decide (shareOf shares a.client < a.f)
    let drops := (failing.filter fun a => decide (0 < shareOf shares a.client)).length
    if failing = [] then (shares, 0)
    else match reshares with
      | 0 => (kept.map fun a => (a.client, shareOf shares a.client), drops)
      | n + 1 =>
        let again := shareClass n budget kept
        (again.1, drops + again.2)

/-! ## Dividing a record (R98 to R104) -/

/-- The result of dividing a record: its computed grants and the claims dropped for their floor. -/
structure Division where
  shares : List Share
  drops  : Nat
deriving DecidableEq, Repr, Inhabited

/-- The latched claims of a record with their clients, in ascending client number. -/
def LatchedRecord.claims (l : LatchedRecord) : List (Nat × Claim) :=
  [0, 1, 2].filterMap fun c => (l.claim c).map fun x => (c, x)

/-- The claims of one class that take part in sharing: those with q above 0 (R98). -/
def classAsks (claims : List (Nat × Claim)) (k : Nat) : List Ask :=
  (claims.filter fun x => x.2.cls == k && decide (0 < x.2.q)).map fun x =>
    { client := x.1, q := x.2.q, f := x.2.f, weight := x.2.weight }

/-- The classes listed divided in turn, each leaving its remainder to the next (R100, R104). -/
def divideClasses (claims : List (Nat × Claim)) : List Nat → Nat → Division
  | [], _ => ⟨[], 0⟩
  | k :: ks, remainder =>
    let d := shareClass 2 remainder (classAsks claims k)
    let more := divideClasses claims ks (remainder - (d.1.map (·.2)).sum)
    ⟨d.1 ++ more.shares, d.2 + more.drops⟩

/-- The exclusive rule (R99). -/
def divideExclusive (capacity : Nat) (c : Nat) (x : Claim) : Division :=
  let g := min x.q capacity
  if g < x.f then ⟨[(c, 0)], if 0 < g then 1 else 0⟩ else ⟨[(c, g)], 0⟩

/-- A record divided among its latched claims (R98). -/
def divideRecord (l : LatchedRecord) : Division :=
  match l.kind with
  | .plain | .child =>
    match l.claims.find? fun x => x.2.level == .exclusive with
    | some (c, x) => divideExclusive l.capacity c x
    | none => divideClasses l.claims [0, 1, 2, 3] l.capacity
  | _ => ⟨[], 0⟩

/-! ## The parent cut (R105 to R108) -/

/-- A non-zero child grant charged to a parent. -/
structure Line where
  resource : Nat
  client   : Nat
  cls      : Nat
  f        : Nat
  draw     : Nat
  g        : Nat
deriving DecidableEq, Repr

/-- The draw of a grant (R3, R105). -/
def drawOf (g draw : Nat) : Nat := divUp (g * draw) 100

def Line.charge (l : Line) : Nat := drawOf l.g l.draw

/-- The sum of the draws of grants. -/
def chargeOf (ls : List Line) : Nat := (ls.map Line.charge).sum

/-- The grants of one class. -/
def ofClass (k : Nat) (ls : List Line) : List Line := ls.filter fun l => l.cls == k

/-- The trim of a class until its draw is within the budget (R107): one unit from each grant in turn; a grant taken
below its floor is dropped and counted. `out` holds the grants that have left the turn. -/
def trimClass : Nat → Nat → List Line → List Line → Nat → List Line × Nat
  | 0, _, turn, out, drops => (turn ++ out, drops)
  | fuel + 1, budget, turn, out, drops =>
    if chargeOf turn ≤ budget then (turn ++ out, drops)
    else match turn with
      | [] => (out, drops)
      | l :: rest =>
        let g := l.g - 1
        if g < l.f then trimClass fuel budget rest ({ l with g := 0 } :: out) (drops + 1)
        else if g = 0 then trimClass fuel budget rest ({ l with g := 0 } :: out) drops
        else trimClass fuel budget (rest ++ [{ l with g := g }]) out drops

/-- The outcome of a parent cut: the grants, the most urgent class scaled, and the claims dropped for their floor. -/
structure Cut where
  lines : List Line
  cls   : Option Nat
  drops : Nat
deriving DecidableEq, Repr

/-- A class scaled into its budget, with its floors and its trim (R106, R107). -/
def scaleClass (k budget : Nat) (c : Cut) : Cut :=
  let mine := ofClass k c.lines
  let total := chargeOf mine
  let scaled := mine.map fun l => { l with g := l.g * budget / total }
  let drops := (scaled.filter fun l => decide (l.g < l.f ∧ 0 < l.g)).length
  let kept := scaled.map fun l => if l.g < l.f then { l with g := 0 } else l
  let turn := kept.filter fun l => decide (0 < l.g)
  let done := trimClass ((turn.map (·.g)).sum + 1) budget turn (kept.filter fun l => l.g == 0) 0
  { lines := c.lines.filter (fun l => l.cls != k) ++ done.1, cls := some k, drops := c.drops + drops + done.2 }

/-- One class of a parent cut, least urgent first (R106): nothing once the total draw fits, nor when the class fits its
budget. -/
def cutClass (capacity : Nat) (c : Cut) (k : Nat) : Cut :=
  if chargeOf c.lines ≤ capacity then c
  else
    let budget := capacity - chargeOf (c.lines.filter fun l => decide (l.cls < k))
    if chargeOf (ofClass k c.lines) ≤ budget then c else scaleClass k budget c

/-- The cut of a parent (R106 to R108). The grants stand in the trim's order: descending client, then descending
resource (R107). -/
def cutParent (capacity : Nat) (ls : List Line) : Cut :=
  [3, 2, 1, 0].foldl (cutClass capacity) ⟨ls, none, 0⟩

/-! ## The whole pass -/

/-- The non-zero computed grants on the children of parent `p`, in the trim's order. -/
def childLines (t : Table 12 LatchedRecord) (divisions : Table 12 Division) (p : Nat) : List Line :=
  [2, 1, 0].flatMap fun c => (List.range 12).reverse.filterMap fun r =>
    let l := t.get r
    let g := shareOf (divisions.get r).shares c
    match l.claim c with
    | some x =>
      if l.kind = .child ∧ l.parent = some p ∧ 0 < g then
        some { resource := r, client := c, cls := x.cls, f := x.f, draw := l.draw, g := g }
      else none
    | none => none

/-- The final computed grant of a client on a record: what its parent's cut leaves it on a CHILD, its share
otherwise (R104, R108). -/
def finalGrant (t : Table 12 LatchedRecord) (divisions : Table 12 Division) (cuts : Table 12 (Option Cut))
    (r c : Nat) : Nat :=
  let share := shareOf (divisions.get r).shares c
  match (t.get r).kind, (t.get r).parent with
  | .child, some p =>
    match cuts.get p with
    | some cut =>
      match cut.lines.find? fun l => l.resource == r && l.client == c with
      | some l => l.g
      | none => 0
    | none => share
  | _, _ => share

/-- What a pass computes, before departures are regarded. -/
structure PassOutcome where
  /-- The final computed grants by record and client. -/
  grants     : Table 12 StoredResult
  /-- D before the cut, for each PARENT (R105, R116). -/
  demandDraw : Table 12 Nat
  /-- The most urgent class scaled, for each PARENT (R116). -/
  cutClass   : Table 12 (Option Nat)
  /-- Whether any parent was cut (R108). -/
  anyCut     : Bool
  /-- The claims dropped for their floor (R113). -/
  drops      : Nat
deriving DecidableEq, Repr

/-- The computation of a pass from its latched inputs (R98 to R108). -/
def computePass (t : Table 12 LatchedRecord) : PassOutcome :=
  let divisions := Table.build 12 fun r => divideRecord (t.get r)
  let lines (p : Nat) : List Line := if (t.get p).kind = .parent then childLines t divisions p else []
  let cuts := Table.build 12 fun p =>
    if (t.get p).kind = .parent then some (cutParent (t.get p).capacity (lines p)) else none
  let isCut (p : Nat) : Bool := (t.get p).kind == .parent && decide ((t.get p).capacity < chargeOf (lines p))
  { grants := Table.build 12 fun r =>
      { total := 0, drive := finalGrant t divisions cuts r 0, pack := finalGrant t divisions cuts r 1,
        cab := finalGrant t divisions cuts r 2 },
    demandDraw := Table.build 12 fun p => chargeOf (lines p),
    cutClass := Table.build 12 fun p => ((cuts.get p).map (·.cls)).getD none,
    anyCut := (List.range 12).any isCut,
    drops := (divisions.data.map (·.drops)).sum + (cuts.data.map fun c => (c.map (·.drops)).getD 0).sum }

/-! ## Departures and totals (R109, R111) -/

/-- The grant written to a client on a record: none without a claim or for a departed one (R109). -/
def writtenGrant (t : Table 12 LatchedRecord) (out : PassOutcome) (r c : Nat) : Option Nat :=
  match (t.get r).claim c with
  | some x => if x.departed then none else some ((out.grants.get r).g c)
  | none => none

/-- The written grant, 0 for a holder with no write (R111). -/
def handedGrant (t : Table 12 LatchedRecord) (out : PassOutcome) (r c : Nat) : Nat :=
  (writtenGrant t out r c).getD 0

/-- The draw of the grants written on the children of a parent (R108, R109). -/
def drawTotal (t : Table 12 LatchedRecord) (out : PassOutcome) (p : Nat) : Nat :=
  ((List.range 12).map fun r =>
    if (t.get r).kind = .child ∧ (t.get r).parent = some p then
      ([0, 1, 2].map fun c => drawOf (handedGrant t out r c) (t.get r).draw).sum
    else 0).sum

/-- The results handed to the CHU for a record: its total and its holders' grants (R109, R111). -/
def handedResult (t : Table 12 LatchedRecord) (out : PassOutcome) (r : Nat) : StoredResult :=
  match (t.get r).kind with
  | .unused => {}
  | .parent => { total := drawTotal t out r, drive := 0, pack := 0, cab := 0 }
  | _ =>
    { total := handedGrant t out r 0 + handedGrant t out r 1 + handedGrant t out r 2,
      drive := handedGrant t out r 0, pack := handedGrant t out r 1, cab := handedGrant t out r 2 }

end Sys2Proof.Machine
end

