-- ==== Sys2Proof/Machine/Capacity.lean ====
section
/-! DEFINITION. The Capacity Unit's evaluation at a pass start (R12 to R20), stage by stage. -/

namespace Sys2Proof.Machine

/-- The base of a record and the source that gave it (R13). -/
def baseOf (s : State) (x : Resource) : BaseSource × Nat :=
  match x.input.bind (usableValue s) with
  | some v => (.curve, interpolate x.curve v)
  | none => (.blind, x.blind.getD 0)

/-- The lost channel whose derate acts, with its derate: the lowest derate, and the lowest-numbered channel among those
that share it (R15). -/
def worstLoss (s : State) (bindings : List Binding) : Option (Nat × Nat) :=
  (bindings.filter fun b => lost s b.channel).foldl (fun best b =>
    match best with
    | none => some (b.channel, b.loss)
    | some (n, d) =>
      if b.loss < d ∨ (b.loss = d ∧ b.channel < n) then some (b.channel, b.loss) else some (n, d)) none

/-- The limit a limit point sets: a usable value held to 0 to 10000, or 0 when it is unusable (R16). -/
def limitOf (s : State) (p : Nat) : BoundBy × Nat :=
  match usableValue s p with
  | some v => (.limit, (max 0 (min v 10000)).toNat)
  | none => (.limitStale, 0)

/-- A stage that lowers the capacity to at most `limit`, noted when it does (R20). -/
def capStage (name : BoundBy) (limit : Nat) (x : BoundBy × Nat) : BoundBy × Nat :=
  if limit < x.2 then (name, limit) else x

/-- The limit stage (R16). -/
def limitStage (s : State) (limitPoint : Option Nat) (x : BoundBy × Nat) : BoundBy × Nat :=
  match limitPoint with
  | none => x
  | some p => capStage (limitOf s p).1 (limitOf s p).2 x

/-- The probe-cap stage (R17). -/
def probeCapStage (cap : Option Nat) (x : BoundBy × Nat) : BoundBy × Nat :=
  match cap with
  | none => x
  | some c => capStage .cap c x

/-- The sequence-gate stage (R18). -/
def gateStage (s : State) (slot : Option Nat) (x : BoundBy × Nat) : BoundBy × Nat :=
  if gateOpen s slot then x else capStage .gate 0 x

/-- The availability of a record from its base, and the channel whose derate acted (R15). A lost channel with the lowest
derate is taken to have acted also where the availability equals the base, which is the model's reading (log 42). -/
def availabilityOf (s : State) (x : Resource) (base : Nat) : Option Nat × Nat :=
  match worstLoss s x.bindings with
  | none => (none, base)
  | some (n, d) => (some n, base * d / 100)

/-- The evaluation of one record that is not UNUSED: its capacity report (R12 to R20). -/
def evaluate (s : State) (x : Resource) : Report :=
  let base := baseOf s x
  let avail := availabilityOf s x base.2
  let derated : BoundBy × Nat := if avail.2 < base.2 then (.derate, avail.2) else (.none, avail.2)
  let last := gateStage s x.slot (probeCapStage x.probeCap (limitStage s x.limitPoint derated))
  { computed := true, baseSource := some base.1, base := base.2, availability := avail.2, derating := avail.1,
    effective := min last.2 10000, boundBy := last.1 }

/-- The reports of a pass start: a record that is not UNUSED is evaluated, an UNUSED one keeps its report (R12, R20). -/
def evaluateAll (s : State) : Table 12 Report :=
  Table.build 12 fun r =>
    if (s.resource r).kind = .unused then s.cau.reports.get r else evaluate s (s.resource r)

end Sys2Proof.Machine
end

