-- ==== Sys2Proof/Machine/Passes.lean ====
section
/-! DEFINITION. The Allocation Engine's two steps: the pass start, with what the CAU and the SSU do at it, and the pass
completion, with what the GTB and the CHU do at it (chapter 5). -/

namespace Sys2Proof.Machine

/-! ## Pass start (R92, R94, R95, R97) -/

/-- The claim latched for a holder (R95). -/
def claimOf (h : Holder) : Option Claim :=
  match h.state with
  | .shared | .upgrading =>
    some { level := .shared, q := h.q, f := h.f, cls := h.cls, weight := h.weight, departed := false }
  | .exclusive =>
    some { level := .exclusive, q := h.q, f := h.f, cls := h.cls, weight := h.weight, departed := false }
  | _ => none

/-- What a pass latches of record `r` (R94, R95), its capacity being the effective capacity just reported (R19). -/
def latchRecord (s : State) (r : Nat) : LatchedRecord :=
  let x := s.resource r
  { kind := x.kind
    capacity := if x.kind = .unused then 0 else (s.cau.reports.get r).effective
    parent := x.parent
    draw := x.draw.getD 100
    drive := claimOf (s.holder r 0)
    pack := claimOf (s.holder r 1)
    cab := claimOf (s.holder r 2) }

/-- The sum of q over the latched claims of a record. -/
def LatchedRecord.demand (l : LatchedRecord) : Nat := (l.claims.map (·.2.q)).sum

/-- The claim sum of a gated resource: its own claims, or its children's for a PARENT (R97). -/
def claimSum (t : Table 12 LatchedRecord) (r : Nat) : Nat :=
  match (t.get r).kind with
  | .parent =>
    ((List.range 12).map fun i =>
      if (t.get i).kind = .child ∧ (t.get i).parent = some r then (t.get i).demand else 0).sum
  | .plain | .child => (t.get r).demand
  | .unused => 0

/-- Every loaded slot given its claim sum, in ascending number (R147). -/
def slotsPassStart (t : Table 12 LatchedRecord) (s : State) : State :=
  forEach [0, 1, 2, 3] (fun k s =>
    match s.slot k with
    | some sl => slotPassStart k (claimSum t sl.resource) s
    | none => s) s

/-- A pass start: the timer restarts with the pass period held (R91), capacities are evaluated (R12), capacities and
claims latched (R94, R95), live revocation records see the start (R78), and the slots act (R147; log 10). -/
def startPass (s : State) : State :=
  let s := { s with ale.passTimer := Timer.start s.now s.ale.passPeriod, cau.reports := evaluateAll s }
  let t := Table.build 12 (latchRecord s)
  slotsPassStart t (markPassSeen { s with ale.pass := some t })

/-- PASS_START (R92): passes start in RUN, at the expiry of the pass timer; the head of the probe queue is tested
(R84). R92 says that none falls while a pass is in progress; given then all the same, it latches anew in the place of the
pass in progress, which is not counted: the model's choice (log 45). -/
def execPassStart (s : State) : Host.Outcome State Fault Refusal :=
  match expire s.ale.passTimer s with
  | none => .next s
  | some s' => if s.mgu.part = .run then .next (testHead (startPass s')) else .next s

/-! ## Pass completion (R109 to R112, R78) -/

/-- The grants of a pass written into the holders of one record (R110). -/
def writeRecord (t : Table 12 LatchedRecord) (out : PassOutcome) (r : Nat) (s : State) : State :=
  forEach [0, 1, 2] (fun c s =>
    match writtenGrant t out r c with
    | some g => s.setHolder r c { s.holder r c with g := g }
    | none => s) s

/-- The GRANTED notices of one client: one for each record whose write changed its g, in ascending record number
(R112). -/
def grantNotices (before s : State) (c : Nat) : List Notice :=
  (List.range 12).filterMap fun r =>
    if (before.holder r c).g = (s.holder r c).g then none
    else some ⟨r, .granted (s.holder r c).state.level (s.holder r c).g⟩

/-- One NOTICE frame to each client with a changed grant (R112). -/
def sendGrantNotices (before s : State) : State :=
  forEach [0, 1, 2] (fun c x => if grantNotices before s c = [] then x else notify c (grantNotices before s c) x) s

/-- The ALE's results of a completion, by record (R116). -/
def passResults (t : Table 12 LatchedRecord) (out : PassOutcome) : Table 12 PassResult :=
  Table.build 12 fun r =>
    match (t.get r).kind with
    | .unused => {}
    | .parent =>
      { latched := some (t.get r).capacity, total := (handedResult t out r).total,
        demandDraw := out.demandDraw.get r, cutClass := out.cutClass.get r }
    | _ => { latched := some (t.get r).capacity, total := (handedResult t out r).total }

/-- The results store after a completion: every record that is not UNUSED replaced (R111, R123). -/
def newStore (t : Table 12 LatchedRecord) (out : PassOutcome) (s : State) : Table 12 StoredResult :=
  Table.build 12 fun r => if (t.get r).kind = .unused then s.chu.store.get r else handedResult t out r

/-- The CHU takes the results: the store is replaced, then every channel derives its target (R123, R126). -/
def chuTakeResults (t : Table 12 LatchedRecord) (out : PassOutcome) (s : State) : State :=
  forEach (List.range 16) deriveTarget { s with chu.store := newStore t out s }

/-- The counts of a completion (R113). -/
def countPass (out : PassOutcome) (s : State) : State :=
  let s := countEvent .passes s
  let s := if out.anyCut then countEvent .parentCuts s else s
  countBy .floorDrops out.drops s

/-- A pass completion with the inputs latched at its start: grants written and noticed (R110, R112), the ALE back
BETWEEN with its results (R92, R116), the CHU's targets derived (R111), the ramp marks judged (R78), and the channels'
changes reported (R135; log 11). -/
def completePass (t : Table 12 LatchedRecord) (s : State) : State :=
  let out := computePass t
  let written := forEach (List.range 12) (writeRecord t out) { s with ale.pass := none, ale.results := passResults t out }
  let told := sendGrantNotices s (countPass out written)
  let moved := chuTakeResults t out told
  reportChanges told (judgePassMarks moved)

/-- PASS_COMPLETION (R109): a pass completes when the ALE is IN-PASS; the head of the probe queue is tested (R84). -/
def execPassCompletion (s : State) : Host.Outcome State Fault Refusal :=
  match s.ale.pass with
  | none => .next s
  | some t => .next (testHead (completePass t s))

end Sys2Proof.Machine
end

