-- ==== Sys2Proof/Machine/Dispatch.lean ====
section
/-! DEFINITION. The dispatch of a command to its meaning, one arm for each constructor. -/

namespace Sys2Proof.Machine

def exec (i : Instr) (s : State) : Host.Outcome State Fault Refusal :=
  match i with
  | .hardReset => Sys2Proof.Machine.execHardReset s
  | .dropInvalidFrame => Sys2Proof.Machine.execDropInvalidFrame s
  | .frameForward cls fr => Sys2Proof.Machine.execFrameForward cls fr s
  | .ownFrameStrip fr => Sys2Proof.Machine.execOwnFrameStrip fr s
  | .markerReturn input m => Sys2Proof.Machine.execMarkerReturn input m s
  | .sample fr => Sys2Proof.Machine.execSample fr s
  | .statusFrame fr => Sys2Proof.Machine.execStatusFrame fr s
  | .intercept fr => Sys2Proof.Machine.execIntercept fr s
  | .acquireShared d it => Sys2Proof.Machine.execAcquireShared d it s
  | .acquireExclusive d it => Sys2Proof.Machine.execAcquireExclusive d it s
  | .upgrade d it => Sys2Proof.Machine.execUpgrade d it s
  | .downgrade d it => Sys2Proof.Machine.execDowngrade d it s
  | .refresh d it => Sys2Proof.Machine.execRefresh d it s
  | .release d it => Sys2Proof.Machine.execRelease d it s
  | .yieldDone d it => Sys2Proof.Machine.execYieldDone d it s
  | .reserve d it => Sys2Proof.Machine.execReserve d it s
  | .commitIf d it level generation => Sys2Proof.Machine.execCommitIf d it level generation s
  | .badItem d it => Sys2Proof.Machine.execBadItem d it s
  | .malformed d => Sys2Proof.Machine.execMalformed d s
  | .load m table index cls part contents => Sys2Proof.Machine.execLoad m table index cls part contents s
  | .read m table index => Sys2Proof.Machine.execRead m table index s
  | .status m item index => Sys2Proof.Machine.execStatus m item index s
  | .start m => Sys2Proof.Machine.execStart m s
  | .restart m => Sys2Proof.Machine.execRestart m s
  | .enterConfig m => Sys2Proof.Machine.execEnterConfig m s
  | .holdChannel m n => Sys2Proof.Machine.execHoldChannel m n s
  | .freeChannel m n => Sys2Proof.Machine.execFreeChannel m n s
  | .returnStation m address => Sys2Proof.Machine.execReturnStation m address s
  | .clearSequence m n => Sys2Proof.Machine.execClearSequence m n s
  | .clearAlert m category index => Sys2Proof.Machine.execClearAlert m category index s
  | .ackOldest m => Sys2Proof.Machine.execAckOldest m s
  | .clearCounts m => Sys2Proof.Machine.execClearCounts m s
  | .clearLoop m => Sys2Proof.Machine.execClearLoop m s
  | .probe m kind resource client quantity => Sys2Proof.Machine.execProbe m kind resource client quantity s
  | .badOperation m op => Sys2Proof.Machine.execBadOperation m op s
  | .evict => Sys2Proof.Machine.execEvict s
  | .evictAll => Sys2Proof.Machine.execEvictAll s
  | .demote => Sys2Proof.Machine.execDemote s
  | .freeze => Sys2Proof.Machine.execFreeze s
  | .thaw => Sys2Proof.Machine.execThaw s
  | .cap => Sys2Proof.Machine.execCap s
  | .uncap => Sys2Proof.Machine.execUncap s
  | .staleTimerExpiry point => Sys2Proof.Machine.execStaleTimerExpiry point s
  | .leaseExpiry resource client => Sys2Proof.Machine.execLeaseExpiry resource client s
  | .yieldTimerExpiry record => Sys2Proof.Machine.execYieldTimerExpiry record s
  | .passStart => Sys2Proof.Machine.execPassStart s
  | .passCompletion => Sys2Proof.Machine.execPassCompletion s
  | .rampExpiry channel => Sys2Proof.Machine.execRampExpiry channel s
  | .ackTimeout channel => Sys2Proof.Machine.execAckTimeout channel s
  | .refreshTimerExpiry channel => Sys2Proof.Machine.execRefreshTimerExpiry channel s
  | .watchExpiry slot => Sys2Proof.Machine.execWatchExpiry slot s
  | .stopDelayExpiry slot => Sys2Proof.Machine.execStopDelayExpiry slot s
  | .antiCycleExpiry slot => Sys2Proof.Machine.execAntiCycleExpiry slot s
  | .markerTimerExpiry => Sys2Proof.Machine.execMarkerTimerExpiry s
  | .returnWatchExpiry ring => Sys2Proof.Machine.execReturnWatchExpiry ring s
  | .silenceExpiry record => Sys2Proof.Machine.execSilenceExpiry record s
  | .pollTimeout record => Sys2Proof.Machine.execPollTimeout record s

end Sys2Proof.Machine
end

