-- ==== Sys2Proof/Machine/Step.lean ====
section
/-! DEFINITION. One step of the block: the command at the front of the queue, or on an empty queue the passing of one unit
of time (logs 1, 28). -/

namespace Sys2Proof.Machine

/-- One unit of 0.01 ms passes (log 1). -/
def tick (s : State) : State := { s with now := s.now + 1 }

/-- One step: the command at the front of the queue is executed with the queue's rest. On an empty queue the block
idles, and the clock moves by one unit (log 1). -/
def step (s : State) : Host.Outcome State Fault Refusal :=
  match s.pending with
  | [] => .next (tick s)
  | c :: rest => exec c { s with pending := rest }

/-- The state with the command that a word spells put at the front of its queue; the table's rows have no bits, so no
word spells one. -/
def State.withFetchWord (s : State) (nbits w : Nat) : State :=
  match decodeTableWord nbits w with
  | none => s
  | some c => { s with pending := c :: s.pending }

end Sys2Proof.Machine
end

