-- ==== Sys2Proof/Safety.lean ====
section
/-! DEFINITION. What holds of the arbiter in every state: the laws that the rules name, as the claims use them, and the
conditions on a state and a command that statements share. -/

namespace Sys2Proof.Machine

/-! ## Laws of a state -/

/-- The alert list holds at most 8 alert numbers, none twice, and the counts saturate (R190, R194). -/
def AlcLaw (s : State) : Prop :=
  s.alc.alerts.length ≤ 8 ∧ s.alc.alerts.Nodup ∧ s.alc.overflow ≤ 255 ∧ ∀ n ∈ s.alc.counts.data, n ≤ 65535

/-- The PRF holds at most 8 entries and the probe queue at most 4 probes (R54, R83). -/
def QueueLaw (s : State) : Prop := s.din.prf.length ≤ 8 ∧ s.gtb.probes.length ≤ 4

/-- The head of the probe queue stalls: between two events no head waits that could execute (R84; log 3). -/
def HeadLaw (s : State) : Prop := ∀ p rest, s.gtb.probes = p :: rest → probeReady s p = false

/-- Out of RUN no pass runs, the pass timer is stopped and no channel is ACTIVE (R91, R93, R136). -/
def QuietLaw (s : State) : Prop :=
  s.mgu.part ≠ .run →
    s.ale.pass = none ∧ s.ale.passTimer = .stopped ∧ ∀ n ch, s.channel n = some ch → ch.state ≠ .active

/-- A holder that has left its standing has g 0, and so has every holder whose latched claim has not departed a standing
to receive its grant (R63, R96). -/
def GrantLaw (s : State) : Prop :=
  (∀ r c, (s.holder r c).state.leaves = true → (s.holder r c).g = 0) ∧
    ∀ t, s.ale.pass = some t → ∀ r c x, (t.get r).claim c = some x → x.departed = false →
      (s.holder r c).state.leaves = false

/-- The states in which a holder excludes every other standing: EXCLUSIVE, and the two that wait for it or for the last
holder to go (R63, R67, R68, R70). -/
def HolderState.excludes : HolderState → Bool
  | .exclusive | .upgrading | .waiting => true
  | _ => false

/-- The states without a standing: NONE and YIELDING. -/
def HolderState.apart : HolderState → Bool
  | .none | .yielding => true
  | _ => false

/-- The law of R63, with what keeps it: a holder that excludes stands beside NONE and YIELDING holders only; every live
revocation record names a YIELDING holder, no two the same (R76); every PRF entry names a WAITING or UPGRADING holder,
no two of one resource (R54). -/
def StandingLaw (s : State) : Prop :=
  (∀ r c c', c < 3 → c' < 3 → c ≠ c' → (s.holder r c).state.excludes = true →
      (s.holder r c').state.apart = true) ∧
    (∀ k v, s.record k = some v → v.resource < 12 ∧ v.client < 3 ∧ (s.holder v.resource v.client).state = .yielding) ∧
    (∀ k l v w, s.record k = some v → s.record l = some w → v.resource = w.resource → v.client = w.client → k = l) ∧
    (∀ e ∈ s.din.prf, e.resource < 12 ∧ e.client < 3 ∧ (s.holder e.resource e.client).state.pends = true) ∧
    s.din.prf.Pairwise fun a b => a.resource ≠ b.resource

/-- A state in which every law holds. -/
def SafeState (s : State) : Prop := AlcLaw s ∧ QueueLaw s ∧ HeadLaw s ∧ QuietLaw s ∧ GrantLaw s ∧ StandingLaw s

/-! ## Conditions that statements share -/

/-- The state in which an operation of a MANAGE frame is taken: its source has been heard (R163), and is the management
station (R164). -/
def FromManager (m : ManageCtx) (s : State) : Prop := m.src = (arrive m.src s).mgu.manager

/-- The state in which an item is decided: its frame's arrival taken (R163), the item counted in DEMAND_ITEMS (R44). -/
def itemTaken (d : DemandCtx) (s : State) : State := countEvent .demandItems (openFrame d s)

/-- An item that passes the checks of R42 and R44 as one of client `c`. -/
def ItemPasses (d : DemandCtx) (it : DemandItem) (c : Nat) (s : State) : Prop :=
  takenClient d.src (openFrame d s) = some c ∧ (openFrame d s).mgu.part = .run ∧
    (((openFrame d s).resource it.resource).kind = .plain ∨ ((openFrame d s).resource it.resource).kind = .child)

/-- A decision answered to the item's client, with its refusal counted (R42, R46), and the test of the head of the probe
queue that ends the event (R84; log 3). -/
def answered (d : DemandCtx) (it : DemandItem) (x : Decision) : State :=
  testHead (answerItem d ⟨it.resource, x.2⟩ (countRefusal x).1)

/-- An item of a client's frame as its client is found after the frame's arrival: client `c`, with entry `e` (R40, R42). -/
def ItemOf (d : DemandCtx) (it : DemandItem) (c : Nat) (e : ClientEntry) (s : State) : Prop :=
  ItemPasses d it c s ∧ ((openFrame d s).client c).entry = some e

/-- A state with one holder replaced and the generation of its resource moved on by `n` (R64). -/
def withHolder (r c n : Nat) (h : Holder) (s : State) : State :=
  { s with
    gtb.holders := s.gtb.holders.set r ((s.gtb.holders.get r).set c h)
    gtb.generations := s.gtb.generations.set r ((s.gtb.generations.get r + n) % 256) }

/-- The parameters of an item in a holder, clamped (R45), with the lease its client's entry gives it from the clock of `s`
on, and the lapsed mark clear (R49, R51, R62). -/
def Holder.renewedBy (h : Holder) (it : DemandItem) (e : ClientEntry) (s : State) : Holder :=
  { h with
    q := min it.q 10000
    f := min (it.floor.getD 0) (min it.q 10000)
    fallback := it.fallback.map (min · 10000)
    cls := it.cls
    weight := if it.weight = 0 then 1 else it.weight
    lease := .running (s.now + 100 * e.leasePeriod)
    lapsed := false }

/-- A state in which a client's lapse-alert mark is set, as every start of a lease sets it (R51). -/
def markRenewed (c : Nat) (s : State) : State := s.setClient c { s.client c with lapseAlert := true }

/-- Whether another client's holder of a resource is in one of the states listed (R67, R68, R70). -/
def OtherIn (s : State) (r c : Nat) (states : List HolderState) : Prop :=
  ∃ c', c' < 3 ∧ c' ≠ c ∧ (s.holder r c').state ∈ states

/-- Whether a live revocation record names a resource (R76). -/
def RecordNames (s : State) (r : Nat) : Prop := ∃ k v, s.record k = some v ∧ v.resource = r

/-- An operation answered to the management station that sent it: one REPLY frame, on the output of the loop state
(R166, R196). -/
def replied (m : ManageCtx) (op : Nat) (st : Status) (s : State) : State :=
  { s with sent := s.sent ++ [⟨originRing s.lpu.loop, m.src, .reply m.seq { op := op, status := st }⟩] }

/-- A paired round decided by its two endings, the forward one and the reverse one: the first row of R172's table that
applies gives the loop state, and a forward WRAP-BOTH that no row names gives DOWN, as the model chooses (log 39). A round
that leaves the state as it was changes nothing further, but that one which ends in REVERSE sets the miss count to 0
(R172). -/
def roundDecided (forward reverse : Option LoopState) (s : State) : State :=
  let new : LoopState :=
    if forward = some .forward then .forward
    else if reverse = some .reverse then .reverse
    else if forward = some .wrapFwd then (if reverse = some .wrapRev then .wrapBoth else .wrapFwd)
    else if reverse = some .wrapRev then .wrapRev
    else .down
  let ended := { s with lpu.round := none }
  if new ≠ s.lpu.loop then changeLoop new ended
  else if new = .reverse then { ended with lpu.missCount := 0 } else ended

/-- A count raised by one, held at 65535 (R194). -/
def raised (n : Nat) : Nat := min 65535 (n + 1)

/-- The alert list after a raise of a number (R190). -/
def raisedList (a : AlertNo) (l : List AlertNo) : List AlertNo := if a ∈ l ∨ 8 ≤ l.length then l else l ++ [a]

/-- The numbers of the free revocation records, rising (R76, R77). -/
def freeList (s : State) : List Nat := (List.range 8).filter fun k => (s.record k).isNone

/-- The clients whose holders a request has to revoke, rising: for SHARED the EXCLUSIVE others, for EXCLUSIVE the SHARED
and EXCLUSIVE ones, for an UPGRADE the SHARED ones (R67, R68, R70). -/
def victims (s : State) (r c : Nat) (states : List HolderState) : List Nat :=
  [0, 1, 2].filter fun c' => c' != c && decide ((s.holder r c').state ∈ states)

/-- What the end of a stop delay does to slot `k` (R151, R152). In the state `s` the slot is `sl`, its stop-delay timer
stopped, and `t` is the state it leaves. From RUNNING the slot enters the last step of a stop, from a later step of a start
the step before, and from the first step of a start it is STOPPED with its rest begun (R153). A step is entered with its
minimum removed and its watch running, and the slot stays in it while its channel is not Settled; otherwise it may be steps
further, or STOPPED. The minimum of the step it leaves is 0 when no other step of a slot names the channel. In any other
state nothing happens. -/
def StopBegins (k : Nat) (sl : Slot) (s t : State) : Prop :=
  let rested : Slot :=
    { sl with state := .stopped, watch := .stopped,
              antiCycleTimer := if sl.antiCycle = 0 then .stopped else .running (s.now + 100 * (1000 * sl.antiCycle)) }
  let inStep (i : Nat) (st : Step) : Slot :=
    { sl with state := .stopping i, watch := .running (s.now + 100 * (1000 * st.limit)) }
  let past (i : Nat) : Prop :=
    t.slot k = some rested ∨ ∃ j st, 1 ≤ j ∧ j < i ∧ sl.steps[j - 1]? = some st ∧ t.slot k = some (inStep j st)
  let removed (n : Nat) : Prop := ∀ ch, s.channel n = some ch →
    (∀ j x, j ≠ k → s.slot j = some x → ∀ st ∈ x.steps, st.channel ≠ n) →
    (sl.steps.filter fun st => st.channel == n).length = 1 →
    ∃ ch', t.channel n = some ch' ∧ ch'.seqMin = 0
  match sl.state with
  | .running => ∀ st, sl.steps.getLast? = some st →
    let entered := refreshMinimum st.channel (s.setSlot k (some (inStep sl.steps.length st)))
    removed st.channel ∧ (settled entered st.channel = false → t = entered) ∧
      (settled entered st.channel = true → past sl.steps.length)
  | .starting i => ∀ st, 1 ≤ i → sl.steps[i - 1]? = some st →
    removed st.channel ∧ (i = 1 → t.slot k = some rested) ∧
      ∀ before, 1 < i → sl.steps[i - 2]? = some before →
        let aborted := refreshMinimum st.channel (s.setSlot k (some { sl with state := .stopping (i - 1), watch := .stopped }))
        let entered := refreshMinimum before.channel (aborted.setSlot k (some (inStep (i - 1) before)))
        (settled aborted st.channel = false → settled entered before.channel = false → t = entered) ∧
          (t.slot k = some (inStep (i - 1) before) ∨ past (i - 1))
  | .stopped | .stopping _ | .failed => t = s

/-! ## Frames of one event -/

/-- The unsolicited NOTICE frame that carries notices to a client: none without a loaded entry, and none while its station
is FAULTY (R82). -/
def noticeTo (s : State) (c : Nat) (l : List Notice) : List TxFrame :=
  match (s.client c).entry with
  | none => []
  | some e => if stationFaulty e.station s = true then [] else [⟨originRing s.lpu.loop, e.station, .notice 0 true l⟩]

/-- Frames that are GRANTED notices of quantity 0, one each: those of the PRF entries that an event completes (R57). -/
def OnlyCompletions (s : State) (l : List TxFrame) : Prop :=
  ∀ f ∈ l, ∃ dest r level, f = ⟨originRing s.lpu.loop, dest, .notice 0 true [⟨r, .granted (some level) 0⟩]⟩

/-- A COMMAND sent for channel `n`, whose record is otherwise `ch`: one frame on the output of the loop state, counted in
COMMANDS_SENT; the handshake AWAITING with what was sent and the retries, the ack timer as given, the refresh timer started
unless its period is 0 (R130, R133). -/
def commanded (n : Nat) (ch : Channel) (seq setting retries : Nat) (ack : Timer) (s : State) : State :=
  { s with
    sent := s.sent ++ [⟨originRing s.lpu.loop, ch.station, .command seq ch.output setting⟩]
    alc.counts := s.alc.counts.set 15 (raised (s.alc.counts.get 15))
    chu.channels := s.chu.channels.set n (some { ch with
      handshake := .awaiting seq setting retries
      ackTimer := ack
      refreshTimer := if ch.refreshPeriod = 0 then .stopped else .running (s.now + 100 * ch.refreshPeriod) }) }

/-- A new COMMAND of channel `n` with a setting: the next sequence number, retries 0, and the ack timer started, but in DOWN
(R130, R134). -/
def commandedNew (n : Nat) (ch : Channel) (setting : Nat) (s : State) : State :=
  let q := (ch.cmdSeq + 1) % 16
  commanded n { ch with cmdSeq := q } q setting 0
    (if s.lpu.loop = .down then .stopped else .running (s.now + 100 * ch.ackLimit)) s

/-! ## Revocations and the freeing of records -/

/-- A holder as a revocation leaves it: YIELDING with g 0, its parameters kept (R62, R77). -/
def Holder.revoked (h : Holder) : Holder :=
  { h with state := .yielding, target := none, g := 0, lease := .stopped, lapsed := false }

/-- The record of a revocation of the state `s` (R76, R77): the grant held, the ramp mark in PASS, the notice mark set, the
yield timer started with the resource's yield timeout. -/
def revocationOf (s : State) (cause : Cause) (r c : Nat) : Revocation :=
  { resource := r, client := c, grant := (s.holder r c).g, cause := cause, ramp := .pass, notice := true,
    timer := .running (s.now + 100 * ((s.resource r).yieldTimeout.getD 5000)), passSeen := false }

/-- The REVOKED notice of a revocation of the state `s`: the grant held, the yield timeout and the cause (R77, R82). -/
def revokedFrames (s : State) (cause : Cause) (r c : Nat) : List TxFrame :=
  noticeTo s c [⟨r, .revoked (s.holder r c).g ((s.resource r).yieldTimeout.getD 5000) cause⟩]

/-- The holders of `cs` on resource `r` have been revoked between `s` and `t`, in their order, each into the lowest record
then free: the records, the holders, REVOCATIONS, and the departed marks of their latched claims (R76, R77, R96). -/
def HoldersRevoked (cause : Cause) (r : Nat) (cs : List Nat) (s t : State) : Prop :=
  (∀ (j k c : Nat), cs[j]? = some c → (freeList s)[j]? = some k → t.record k = some (revocationOf s cause r c)) ∧
    (∀ k, k ∉ (freeList s).take cs.length → t.record k = s.record k) ∧
    (∀ c ∈ cs, t.holder r c = (s.holder r c).revoked) ∧
    (s.count .revocations ≤ 65535 → t.count .revocations = min 65535 (s.count .revocations + cs.length)) ∧
    ∀ l, t.ale.pass = some l → ∀ c ∈ cs, ∀ x, (l.get r).claim c = some x → x.departed = true

/-- The record `k`, which was `v`, has freed between `s` and `t` (R80): its holder is NONE, a claim latched for it has
departed, and the generation of its resource has moved on. With no other record of the resource the PRF entry of the
resource has completed (R57): the holder it names has its target level, EXCLUSIVE after UPGRADING, with everything else as it
was, the entry has left the PRF, the generation has moved on again, and the client has been sent GRANTED with quantity 0.
Every other holder, record and generation is as it was, and so is every block but the GTB, the PRF and the pass. -/
def RecordFreed (k : Nat) (v : Revocation) (s t : State) : Prop :=
  let r := v.resource
  let another : Prop := ∃ j w, j ≠ k ∧ s.record j = some w ∧ w.resource = r
  t.record k = none ∧ (∀ j, j ≠ k → t.record j = s.record j) ∧ t.holder r v.client = {} ∧
    (∀ x, x ≠ r → t.generation x = s.generation x) ∧ t.gtb.frozen = s.gtb.frozen ∧ t.gtb.probes = s.gtb.probes ∧
    (s.ale.pass = none → t.ale.pass = none) ∧
    (∀ l, t.ale.pass = some l → ∀ x, (l.get r).claim v.client = some x → x.departed = true) ∧
    { t with gtb := s.gtb, din.prf := s.din.prf, ale.pass := s.ale.pass, sent := s.sent } = s ∧
    (another ∨ (∀ e ∈ s.din.prf, e.resource ≠ r) →
      (∀ r' c', (r', c') ≠ (r, v.client) → t.holder r' c' = s.holder r' c') ∧ t.din.prf = s.din.prf ∧
      t.generation r = (s.generation r + 1) % 256 ∧ t.sent = s.sent) ∧
    (¬another → ∀ e ∈ s.din.prf, e.resource = r →
      let h := s.holder r e.client
      let level : Level := if h.state = .waiting then e.target else .exclusive
      t.holder r e.client =
          { h with state := (match level with | .shared => .shared | .exclusive => .exclusive), target := none } ∧
        (∀ r' c', (r', c') ≠ (r, v.client) → (r', c') ≠ (r, e.client) → t.holder r' c' = s.holder r' c') ∧
        t.din.prf = s.din.prf.filter (fun y => y.resource != r) ∧
        t.generation r = (s.generation r + 2) % 256 ∧
        t.sent = s.sent ++ noticeTo s e.client [⟨r, .granted (some level) 0⟩])

/-! ## The division of a class -/

/-- The claims of one class that take part in its sharing, with their clients, rising (R98, R100). -/
def classClaims (l : LatchedRecord) (k : Nat) : List (Nat × Claim) :=
  [0, 1, 2].filterMap fun c => match l.claim c with
    | some x => if x.cls = k ∧ 0 < x.q then some (c, x) else none
    | none => none

/-- The sum of what claims ask for (R100). -/
def requestSum (cs : List (Nat × Claim)) : Nat := (cs.map (·.2.q)).sum

/-- Shares `g` of the budget `b` by weight, in at most as many rounds as the first number (R101, R102). A round gives each
claim its part of the budget by weight, rounded down. The claims that this gives all they ask for get that, and the others
share the rest of the budget in a new round. In a round that caps none each claim gets its part, and the units left over go
one each to the claims in ascending client number. -/
def SharedByWeight : Nat → Nat → List (Nat × Claim) → (Nat → Nat) → Prop
  | 0, _, _, _ => False
  | n + 1, b, cs, g =>
    let part (x : Claim) : Nat := b * x.weight / (cs.map (·.2.weight)).sum
    let capped := cs.filter fun y => decide (y.2.q ≤ part y.2)
    if capped = [] then
      ∀ (i c : Nat) (x : Claim), cs[i]? = some (c, x) →
        g c = part x + if i < b - (cs.map fun y => part y.2).sum then 1 else 0
    else
      (∀ y ∈ capped, g y.1 = y.2.q) ∧
        SharedByWeight n (b - requestSum capped) (cs.filter fun y => decide (part y.2 < y.2.q)) g

/-- Grants `g` of a class with the budget `b`, shared again at most as many times as the first number, with `d` claims
dropped that had a grant above 0 (R100, R103): what is asked for where the budget holds it; otherwise the shares by weight,
where a claim below its floor gets 0 and the others share the whole budget again. -/
def ClassDivided : Nat → Nat → List (Nat × Claim) → (Nat → Nat) → Nat → Prop
  | n, b, cs, g, d =>
    if requestSum cs ≤ b then (∀ y ∈ cs, g y.1 = y.2.q) ∧ d = 0
    else ∃ w : Nat → Nat, SharedByWeight 3 b cs w ∧
      let failing := cs.filter fun y => decide (w y.1 < y.2.f)
      let kept := cs.filter fun y => decide (y.2.f ≤ w y.1)
      let counted := (failing.filter fun y => decide (0 < w y.1)).length
      (∀ y ∈ failing, g y.1 = 0) ∧
        if failing = [] then (∀ y ∈ kept, g y.1 = w y.1) ∧ d = 0
        else match n with
          | 0 => (∀ y ∈ kept, g y.1 = w y.1) ∧ d = counted
          | n + 1 => ∃ d', ClassDivided n b kept g d' ∧ d = counted + d'

/-! ## Loads of one part -/

/-- A LOAD whose single part carries field items (R162). -/
def loadOf (m : ManageCtx) (table index cls : Nat) (items : List FieldItem) : Instr :=
  .load m table index cls ⟨0, true⟩ (items.flatMap (·.bytes))

/-- The state in which the owner of a table takes a load: its frame's arrival taken, no parts held (R162, R163). -/
def loadTaken (m : ManageCtx) (s : State) : State := { arrive m.src s with mgu.held := none }

/-- A value that two signed bytes carry (R160). -/
def Carries (v : Int) : Prop := -32768 ≤ v ∧ v ≤ 32767

/-- A load taken and answered DONE, which leaves the state `t` before its REPLY and the test of the head (R84, R200). -/
def LoadDone (m : ManageCtx) (i : Instr) (s t : State) : Prop := exec i s = .next (testHead (replied m 1 .done t))

/-- A load refused with a status, nothing changed by it but the parts held (R200). -/
def LoadRefused (m : ManageCtx) (i : Instr) (s : State) (st : Status) : Prop :=
  exec i s = .next (replied m 1 st (loadTaken m s))

/-! ## The ranges of loaded records -/

/-- A curve of 2 to 8 breakpoints with x and y values in their ranges (R4, R6). -/
def CurveInRange (lo hi : Int) (top : Nat) (l : List Breakpoint) : Prop :=
  2 ≤ l.length ∧ l.length ≤ 8 ∧ ∀ b ∈ l, lo ≤ b.x ∧ b.x ≤ hi ∧ b.y ≤ top

/-- A binding in the ranges of R6. -/
def Binding.InRange (b : Binding) : Prop :=
  b.channel ≤ 15 ∧ b.loss ≤ 100 ∧
    (∀ l, b.mode = .level l → CurveInRange 0 10000 1023 l) ∧ ∀ c, b.mode = .split c → c ≤ 2

/-- A resource record whose fields are those that its kind carries, in the ranges of R1, R4 and R6, without a probe cap. -/
def Resource.InRange (x : Resource) : Prop :=
  x.probeCap = none ∧
    if x.kind = .unused then x = {}
    else CurveInRange (-32768) 32767 10000 x.curve ∧ (∃ p ≤ 47, x.input = some p) ∧ (∃ b ≤ 10000, x.blind = some b) ∧
      (∀ p, x.limitPoint = some p → p ≤ 47) ∧ x.bindings.length ≤ 3 ∧ (∀ b ∈ x.bindings, b.InRange) ∧
      (∀ k, x.slot = some k → k ≤ 3) ∧
      (if x.kind = .parent then x.yieldTimeout = none else ∃ y, x.yieldTimeout = some y ∧ 500 ≤ y ∧ y ≤ 60000) ∧
      (if x.kind = .child then (∃ p ≤ 11, x.parent = some p) ∧ ∃ d, x.draw = some d ∧ 50 ≤ d ∧ d ≤ 200
        else x.parent = none ∧ x.draw = none)

/-- The loaded fields of a channel in the ranges of R118. -/
def Channel.InRange (ch : Channel) : Prop :=
  (1 ≤ ch.station ∧ ch.station ≤ 30) ∧ ch.output ≤ 7 ∧ ch.minRun ≤ 1023 ∧ (1 ≤ ch.slew ∧ ch.slew ≤ 1023) ∧
    (10 ≤ ch.rampInterval ∧ ch.rampInterval ≤ 2550 ∧ ch.rampInterval % 10 = 0) ∧ ch.tolerance ≤ 1023 ∧
    (5 ≤ ch.ackLimit ∧ ch.ackLimit ≤ 255) ∧ ch.refreshPeriod ≤ 10000 ∧
    if ch.kind = .valve then ∃ l, ch.characteristic = some l ∧ l.length = 9 ∧ ∀ v ∈ l, v ≤ 1000
    else ch.characteristic = none

/-- The loaded fields of a slot in the ranges of R143. -/
def Slot.InRange (sl : Slot) : Prop :=
  sl.resource ≤ 11 ∧ (1 ≤ sl.steps.length ∧ sl.steps.length ≤ 6) ∧
    (∀ st ∈ sl.steps, st.channel ≤ 15 ∧ (1 ≤ st.run ∧ st.run ≤ 1023) ∧ 1 ≤ st.limit ∧ st.limit ≤ 255) ∧
    sl.stopDelay ≤ 60 ∧ sl.antiCycle ≤ 600

/-! ## The constraints that START checks

A constraint between two records breaks at the later of them (log 43). -/

/-- The station table has a record for an address, the lowest-numbered one with it, and its role is `role` (R178). -/
def HasRole (s : State) (a : Nat) (role : Role) : Prop :=
  ∃ i st, s.station i = some st ∧ st.address = a ∧ st.role = role ∧
    ∀ j < i, ∀ x, s.station j = some x → x.address ≠ a

/-- R178: the address is that of a lower-numbered record. -/
def StationBreaks (s : State) (n : Nat) : Prop :=
  ∃ st, s.station n = some st ∧ ∃ i < n, ∃ x, s.station i = some x ∧ x.address = st.address

/-- One of the constraints of R26 fails at a point. -/
def PointBreaks (s : State) (n : Nat) : Prop :=
  (s.point n).hi < (s.point n).lo ∨
    (∃ a k, (s.point n).source = some (a, k) ∧
      ((∀ i st, s.station i = some st → st.address ≠ a) ∨ ∃ q < n, (s.point q).source = some (a, k))) ∨
    ∃ fallback, (s.point n).substitute = some (.point n fallback)

/-- One of the constraints of R41 fails at a client entry. -/
def ClientBreaks (s : State) (n : Nat) : Prop :=
  ∃ e, (s.client n).entry = some e ∧
    (¬HasRole s e.station .client ∨ ∃ d < n, ∃ x, (s.client d).entry = some x ∧ x.station = e.station)

/-- A curve whose x values do not rise strictly from each breakpoint to the next. -/
def XsFall (l : List Breakpoint) : Prop := ∃ i a b, l[i]? = some a ∧ l[i + 1]? = some b ∧ b.x ≤ a.x

/-- A resource record with a binding of a channel in a mode. -/
def BindsLevel (x : Resource) (n : Nat) : Prop := ∃ b ∈ x.bindings, b.channel = n ∧ ∃ l, b.mode = .level l

def BindsSplit (x : Resource) (n : Nat) : Prop := ∃ b ∈ x.bindings, b.channel = n ∧ ∃ c, b.mode = .split c

/-- One of the nine constraints of R11 is charged to a resource record. -/
def ResourceBreaks (s : State) (n : Nat) : Prop :=
  let x := s.resource n
  x.kind ≠ .unused ∧
    (XsFall x.curve ∨
      (∃ b ∈ x.bindings, ∃ l, b.mode = .level l ∧ (XsFall l ∨ ∃ p ∈ l, ¬(0 ≤ p.x ∧ p.x ≤ 10000))) ∨
      ¬(x.bindings.map (·.channel)).Nodup ∨
      (x.kind = .child ∧ ∀ p, x.parent = some p → (s.resource p).kind ≠ .parent) ∨
      (x.kind = .parent ∧ 3 ≤ ((List.range n).filter fun i => decide ((s.resource i).kind = .parent)).length) ∨
      (x.kind = .parent ∧ ∃ k, BindsSplit x k) ∨
      (∃ k, BindsSplit x k ∧ ∃ i < n, BindsSplit (s.resource i) k) ∨
      (∃ k, BindsSplit x k ∧ BindsLevel x k ∨ ∃ i < n, BindsSplit x k ∧ BindsLevel (s.resource i) k ∨
        BindsLevel x k ∧ BindsSplit (s.resource i) k) ∨
      ∃ k, x.slot = some k ∧
        ((∀ sl, s.slot k = some sl → sl.resource ≠ n) ∨ ∃ i < n, (s.resource i).slot = some k))

/-- One of the constraints of R122 is charged to a channel. -/
def ChannelBreaks (s : State) (n : Nat) : Prop :=
  ∃ ch, s.channel n = some ch ∧
    (¬HasRole s ch.station .actuator ∨
      (∃ i < n, ∃ x, s.channel i = some x ∧ x.station = ch.station ∧ x.output = ch.output) ∨
      (∃ l i a b, ch.characteristic = some l ∧ l[i]? = some a ∧ l[i + 1]? = some b ∧ b < a) ∨
      (ch.kind ≠ .valve ∧ ∃ r < 12, BindsSplit (s.resource r) n))

/-- One of the constraints of R146 fails at a slot. -/
def SlotBreaks (s : State) (n : Nat) : Prop :=
  ∃ sl, s.slot n = some sl ∧
    ((s.resource sl.resource).kind = .unused ∨ (s.resource sl.resource).slot ≠ some n ∨
      (∃ st ∈ sl.steps, ∀ ch, s.channel st.channel = some ch → st.run < ch.minRun) ∨
      ¬(sl.steps.map (·.channel)).Nodup)

/-- One of the constraints of R168 is charged to an intercept entry. -/
def InterceptBreaks (s : State) (n : Nat) : Prop :=
  ∃ e, interceptAt s n = some e ∧
    ((∀ c x, (s.client c).entry = some x → x.station ≠ e.source) ∨ ¬HasRole s e.destination .actuator ∨
      (∃ i < n, ∃ x, interceptAt s i = some x ∧ x.source = e.source ∧ x.destination = e.destination) ∨
      (∃ m ∈ e.mappings, (s.resource m.resource).kind ≠ .plain ∧ (s.resource m.resource).kind ≠ .child) ∨
      ¬(e.mappings.map fun m => (m.output, m.resource)).Nodup)

/-- A table, by its code, fails its checks at an index (R199). -/
def TableBreaks (s : State) (table index : Nat) : Prop :=
  match table with
  | 1 => StationBreaks s index
  | 3 => index = 0 ∧ ¬HasRole s s.mgu.manager .manager
  | 4 => PointBreaks s index
  | 5 => ClientBreaks s index
  | 6 => ResourceBreaks s index
  | 7 => ChannelBreaks s index
  | 8 => SlotBreaks s index
  | 9 => InterceptBreaks s index
  | _ => False

end Sys2Proof.Machine
end

