-- ==== Sys2Proof/Certificates/Slice0/Obligations.lean ====
section
/-! DEFINITION. The statements for the provers: what each command of the arbiter does, and the laws that every step keeps.
Times are in units of 0.01 ms, and a running timer holds its deadline on the clock (log 1). -/

open Sys2Proof Sys2Proof.Machine

/-! ## The queue, the clock and the hard reset -/

/-- A step executes the command at the front of the queue with the queue's rest; on an empty queue only the clock moves,
by one unit, which is the model's choice (log 1). -/
def Obligations.StepRunsFrontCommandOrIdles : Prop :=
  ∀ s : State,
    (∀ c rest, s.pending = c :: rest → step s = exec c { s with pending := rest }) ∧
      (s.pending = [] → step s = .next { s with now := s.now + 1 })

/-- A hard reset gives every block its hard-reset values (R21, R39, R61, R90, R117, R142, R158, R177, R188, R195, R202).
That it keeps the queue of waiting commands is the model's choice (log 17). -/
def Obligations.HardResetTakesResetValues : Prop :=
  ∀ s : State, ∃ t, exec .hardReset s = .next t ∧ t.pending = s.pending ∧
    (t.mgu.part = .config ∧ t.mgu.manager = 1 ∧ t.mgu.held = none) ∧
    (t.lpu.loop = .forward ∧ t.lpu.missCount = 0 ∧ t.lpu.recoveryCount = 0 ∧ t.lpu.forwardMarker = none ∧
      t.lpu.reverseMarker = none ∧ t.lpu.round = none ∧ t.lpu.markerNumber = 0 ∧ t.lpu.markerPeriod = 100 ∧
      t.lpu.returnLimit = 20 ∧ t.lpu.markerTimer = .running (t.now + 100 * 100)) ∧
    (t.lpu.presentTrip = none ∧ t.lpu.minTrip = none ∧ t.lpu.maxTrip = none ∧ t.lpu.lastHops = none ∧
      t.lpu.forwardWrap = none ∧ t.lpu.reverseWrap = none) ∧
    (∀ n, interceptAt t n = none) ∧
    ((∀ i, t.station i = none) ∧ t.stm.pollTimeout = 20 ∧ t.stm.retryLimit = 5 ∧ t.stm.returnMode = .auto) ∧
    (∀ p < 48, t.point p = {}) ∧
    (∀ r < 12, t.resource r = {} ∧ t.cau.reports.get r = {}) ∧
    ((∀ c < 3, t.client c = {}) ∧ t.din.prf = []) ∧
    ((∀ r < 12, ∀ c < 3, t.holder r c = {}) ∧ (∀ r, t.generation r = 0) ∧ (∀ r, t.isFrozen r = false) ∧
      (∀ k, t.record k = none) ∧ t.gtb.probes = []) ∧
    (t.ale.passTimer = .stopped ∧ t.ale.passPeriod = 250 ∧ t.ale.pass = none ∧
      ∀ r < 12, t.ale.results.get r = {}) ∧
    ((∀ n, t.channel n = none) ∧ ∀ r < 12, t.chu.store.get r = {}) ∧
    (∀ k, t.slot k = none) ∧
    (t.alc.alerts = [] ∧ t.alc.overflow = 0 ∧ ∀ c : Count, t.count c = 0)

/-! ## Frames -/

/-- Arriving bytes are a valid frame exactly when they are a four-byte header, a payload of the length it gives, at most
56, and the CRC of both, with addresses to 31; otherwise they are given as DROP_INVALID_FRAME, which counts CRC_ERRORS
and changes nothing else (R159). The bytes of a frame are read back as the frame (R159, R160), and the bytes of contents
whose values two signed bytes carry as their field items (R162). The carriage of a negative value in two bytes is the
model's reading (log 6). -/
def Obligations.FrameBytesReadOrDropped : Prop :=
  (∀ (input : Ring) (bytes : List Byte) (s : State),
    (receive input bytes = [.dropInvalidFrame] ↔
      ¬∃ (d a c n h l : Byte) (payload : List Byte), bytes = d :: a :: c :: n :: payload ++ [h, l] ∧
        [h, l] = word16 (crc16 (d :: a :: c :: n :: payload)) ∧ n.toNat = payload.length ∧ payload.length ≤ 56 ∧
        d.toNat ≤ 31 ∧ a.toNat ≤ 31) ∧
    exec .dropInvalidFrame s = .next { s with alc.counts := s.alc.counts.set 1 (raised (s.alc.counts.get 1)) }) ∧
  (((∀ (dest src cls seq : Nat) (payload : List Byte), dest ≤ 31 → src ≤ 31 → cls ≤ 15 → seq ≤ 15 → payload.length ≤ 56 →
    readFrame (frameBytes dest src cls seq payload) =
      some { dest := dest, src := src, cls := cls, seq := seq, payload := payload }) ∧
  ∀ items : List FieldItem,
    (∀ it ∈ items, it.field ≤ 255 ∧ it.values.length ≤ 255 ∧ ∀ v ∈ it.values, Carries v) →
      parseContents (items.flatMap (·.bytes)) = some items))

/-- Frames whose content no block takes. A frame of another station is forwarded byte for byte on the output R166 gives,
or, to address 0, consumed; an unknown class is counted, and so is a class not taken at address 0 (R163 to R166). A
DEMAND frame to address 0 whose items are not taken is counted in DEMANDS_DENIED for each whole item, or once (R42,
R43), and a MANAGE frame from another station than the management station in UNKNOWN_SOURCE, once (R164). The count of a
discarded frame without a whole item is the model's (log 19). An own frame coming home is stripped, or in WRAP-BOTH at
the reverse input relayed on the reverse output, and it is not counted (R163, R165, R166). That a command of a class's
own row with source 0 is handled as the own frame it is, is the model's choice (log 27), and so is the stripping of an
own MARKER frame whose payload is unreadable (log 32). -/
def Obligations.FramesSteeredOrStripped : Prop :=
  (∀ (cls : Nat) (fr : RxFrame) (s : State), fr.src ≠ 0 →
    let s0 := arrive fr.src s
    let forwarded : State :=
      { s0 with
        sent := s0.sent ++ [⟨forwardRing s0.lpu.loop fr.input, fr.dest, .relay fr.src cls fr.seq fr.payload⟩]
        alc.counts := s0.alc.counts.set 0 (raised (s0.alc.counts.get 0)) }
    (cls ≠ 1 → cls ≠ 4 → (cls = 3 → interceptFor s0 fr.src fr.dest = none) → ((cls = 2 ∨ cls = 6) → fr.dest ≠ 0) →
      exec (.frameForward cls fr) s = .next
        (if fr.dest = 0 then countEvent .unknownClass s0
        else if cls = 0 ∨ 11 ≤ cls then countEvent .unknownClass forwarded else forwarded)) ∧
    (cls = 2 → fr.dest = 0 → takenClient fr.src s0 = none →
      exec (.frameForward cls fr) s = .next
        (countBy .demandsDenied (max 1 (takeItems 4 fr.payload).1.length) { s0 with din.draft := [] })) ∧
    (cls = 6 → fr.dest = 0 → fr.src ≠ s0.mgu.manager →
      exec (.frameForward cls fr) s = .next
        (if (stationRecord fr.src s0).isSome then countEvent .unknownSource s0 else s0))) ∧
  (∀ (fr : OwnFrame) (s : State),
    exec (.ownFrameStrip fr) s = .next
      (if s.lpu.loop = .wrapBoth ∧ fr.input = .reverse then
        { s with sent := s.sent ++ [⟨.reverse, fr.dest, .relay 0 fr.cls fr.seq fr.payload⟩] }
      else s) ∧
    let own : RxFrame := { input := fr.input, dest := fr.dest, src := 0, seq := fr.seq, payload := fr.payload }
    ∀ x ∈ [(1, Instr.sample own), (3, .intercept own), (4, .statusFrame own), (fr.cls, .frameForward fr.cls own)],
      x.1 = fr.cls → exec x.2 s = exec (.ownFrameStrip fr) s)

/-- What the arrival of a frame does to its station's record and to UNKNOWN_SOURCE (R163, R180, R184): by the state of
the station's record, and by the return mode when it is FAULTY. -/
def Obligations.ArrivalTakenAsEvidence : Prop :=
  ∀ (a i : Nat) (st : Station) (s : State), a ≠ 0 →
    (stationRecord a s = none → arrive a s = countEvent .unknownSource s) ∧
    (stationRecord a s = some i → s.station i = some st →
      (st.state ≠ .faulty → arrive a s = s.setStation i (some
        { st with state := .online, silenceTimer := .running (s.now + 100 * st.silenceLimit), pollTimer := .stopped })) ∧
      (st.state = .faulty → s.stm.returnMode ≠ .auto →
        arrive a s = s.setStation i (some { st with heard := true })) ∧
      (st.state = .faulty → s.stm.returnMode = .auto →
        (arrive a s).station i = some
          { st with state := .online, silenceTimer := .running (s.now + 100 * st.silenceLimit),
                    pollTimer := .stopped, heard := false } ∧
        (arrive a s).pst = s.pst ∧ (arrive a s).alc.alerts = s.alc.alerts ∧
        (∀ n ch, s.channel n = some ch → ch.station = a → ch.cause = some .station → ch.state = .faulted →
          ∃ ch', (arrive a s).channel n = some ch' ∧ ch'.cause = none ∧ ch'.current = none ∧
            ch'.state = if s.mgu.part = .run ∧ ch.hold = false then .active else .held)))

/-! ## Markers -/

/-- A marker in WRAP-BOTH at the reverse input is relayed; elsewhere a marker that matches no outstanding marker is
ignored, and a matching one is a return, which ends its marker and records its round trip, hop count and wrap addresses
(R166, R169). It is then judged for its role: a REGULAR return that indicates the present state clears the miss count,
one that indicates another state makes it the loop state, and one that indicates nothing is a miss; a RECOVERY return
that indicates FORWARD makes the loop state FORWARD and any other changes nothing (R171); a PAIRED return that is the
second ending of its round decides the loop state by R172's table, and the first is kept (R172). The decision of a round
in which the forward marker indicated WRAP-BOTH is the model's where rows 1 to 5 do not apply (log 39), and so is the
form of the relayed frame where the arriving one was not of the form of R161 (log 32). -/
def Obligations.MarkerReturnJudged : Prop :=
  ∀ (input : Ring) (m : MarkerFrame) (s : State),
    (s.lpu.loop = .wrapBoth ∧ input = .reverse →
      exec (.markerReturn input m) s = .next { s with sent := s.sent ++ [⟨.reverse, 31, .marker m⟩] }) ∧
    (¬(s.lpu.loop = .wrapBoth ∧ input = .reverse) →
      ((∀ o, outstanding s m.sentOn = some o → o.number ≠ m.number) → exec (.markerReturn input m) s = .next s) ∧
      ∀ o, outstanding s m.sentOn = some o → o.number = m.number →
        ∃ home : State, { home with lpu := s.lpu } = s ∧ home.lpu.loop = s.lpu.loop ∧
          home.lpu.missCount = s.lpu.missCount ∧ home.lpu.recoveryCount = s.lpu.recoveryCount ∧
          home.lpu.markerTimer = s.lpu.markerTimer ∧ home.lpu.round = s.lpu.round ∧
          outstanding home m.sentOn = none ∧ (∀ ring, ring ≠ m.sentOn → outstanding home ring = outstanding s ring) ∧
          home.lpu.presentTrip = some (s.now - o.sentAt) ∧
          home.lpu.minTrip = some (match s.lpu.minTrip with
            | some x => min x (s.now - o.sentAt)
            | none => s.now - o.sentAt) ∧
          home.lpu.maxTrip = some (match s.lpu.maxTrip with
            | some x => max x (s.now - o.sentAt)
            | none => s.now - o.sentAt) ∧
          home.lpu.lastHops = some m.hops ∧
          home.lpu.forwardWrap = m.forwardWrap.or s.lpu.forwardWrap ∧
          home.lpu.reverseWrap = m.reverseWrap.or s.lpu.reverseWrap ∧
          let shown := indicates m.sentOn input m.forwardWrap m.reverseWrap
          let into (t : State) : Prop := exec (.markerReturn input m) s = .next t
          (o.role = .regular →
            (shown = some s.lpu.loop → into { home with lpu.missCount := 0 }) ∧
            (∀ l, shown = some l → l ≠ s.lpu.loop → into (changeLoop l home)) ∧
            (shown = none → s.lpu.missCount + 1 < 3 → into { home with lpu.missCount := s.lpu.missCount + 1 }) ∧
            (shown = none → 3 ≤ s.lpu.missCount + 1 →
              (s.lpu.loop = .forward → into (changeLoop .reverse { home with lpu.missCount := 3 })) ∧
              (s.lpu.loop = .reverse → into (startRound { home with lpu.missCount := 3 })) ∧
              (s.lpu.loop ∈ [.wrapBoth, .wrapFwd, .wrapRev] →
                into (changeLoop .down { home with lpu.missCount := 3 })))) ∧
          (o.role = .recovery →
            (shown = some .forward → s.lpu.loop ≠ .forward → into (changeLoop .forward home)) ∧
            (shown ≠ some .forward ∨ s.lpu.loop = .forward → into home)) ∧
          (o.role = .paired → ∀ r, s.lpu.round = some r →
            (m.sentOn = .forward → r.reverseEnd = none →
              into { home with lpu.round := some { r with forwardEnd := some shown } }) ∧
            (m.sentOn = .reverse → r.forwardEnd = none →
              into { home with lpu.round := some { r with reverseEnd := some shown } }) ∧
            (∀ other, m.sentOn = .forward → r.reverseEnd = some other → into (roundDecided shown other home)) ∧
            (∀ other, m.sentOn = .reverse → r.forwardEnd = some other → into (roundDecided other shown home))))

/-- At each marker timer expiry the timer restarts with the marker period, and outside a paired round the markers of
R170 are sent: one REGULAR on the ring of the loop state, a RECOVERY on the forward ring at every tenth expiry in
REVERSE and WRAP-REV, and a paired round in DOWN, one PAIRED marker on each ring; a paired round in progress sends
nothing (R169, R170, R172). Each marker frame goes out on its ring with its number, hop count 0 and no wrap address.
Whether a number is taken before or after its advance, and which marker of a round is first, are free (log 8); that the
REGULAR marker goes before the RECOVERY marker of one expiry is the model's (log 40), and so is that a marker still
outstanding is replaced without a miss (log 22). The move of the clock to the deadline is the model's (log 1), and so is
that a stopped timer does not expire (log 23). -/
def Obligations.MarkersSentAtExpiry : Prop :=
  ∀ (d : Nat) (s : State),
    ((∀ d, s.lpu.markerTimer ≠ .running d) → exec .markerTimerExpiry s = .next s) ∧
    (s.lpu.markerTimer = .running d →
      let now := max s.now d
      let watch : Timer := .running (now + 100 * s.lpu.returnLimit)
      let n0 := s.lpu.markerNumber
      let n1 := (n0 + 1) % 256
      let frame (ring : Ring) (n : Nat) : TxFrame :=
        ⟨ring, 31, .marker
          { number := carriedNumber n, sentOn := ring, hops := 0, forwardWrap := none, reverseWrap := none }⟩
      let marker (role : MarkerRole) (n : Nat) : Outstanding :=
        { number := carriedNumber n, role := role, sentAt := now, watch := watch }
      ∃ t, exec .markerTimerExpiry s = .next t ∧ { t with lpu := s.lpu, sent := s.sent, now := s.now } = s ∧
        t.now = now ∧ t.lpu.loop = s.lpu.loop ∧ t.lpu.missCount = s.lpu.missCount ∧
        t.lpu.markerTimer = .running (now + 100 * s.lpu.markerPeriod) ∧
        (s.lpu.round.isSome → t.sent = s.sent ∧ t.lpu.recoveryCount = s.lpu.recoveryCount) ∧
        (s.lpu.round = none →
          (s.lpu.loop ∈ [.forward, .wrapBoth, .wrapFwd] →
            t.lpu.forwardMarker = some (marker .regular n0) ∧ t.lpu.reverseMarker = s.lpu.reverseMarker ∧
            t.lpu.markerNumber = n1 ∧ t.sent = s.sent ++ [frame .forward n0] ∧
            t.lpu.recoveryCount = s.lpu.recoveryCount) ∧
          (s.lpu.loop ∈ [.reverse, .wrapRev] →
            t.lpu.reverseMarker = some (marker .regular n0) ∧
            (s.lpu.recoveryCount + 1 < 10 → t.lpu.recoveryCount = s.lpu.recoveryCount + 1 ∧
              t.lpu.forwardMarker = s.lpu.forwardMarker ∧ t.lpu.markerNumber = n1 ∧
              t.sent = s.sent ++ [frame .reverse n0]) ∧
            (10 ≤ s.lpu.recoveryCount + 1 → t.lpu.recoveryCount = 0 ∧ t.lpu.markerNumber = (n1 + 1) % 256 ∧
              t.lpu.forwardMarker = some (marker .recovery n1) ∧
              t.sent = s.sent ++ [frame .reverse n0, frame .forward n1])) ∧
          (s.lpu.loop = .down → t.lpu.round = some ⟨none, none⟩ ∧ t.lpu.markerNumber = (n1 + 1) % 256 ∧
            ((t.lpu.forwardMarker = some (marker .paired n0) ∧ t.lpu.reverseMarker = some (marker .paired n1) ∧
                t.sent = s.sent ++ [frame .forward n0, frame .reverse n1]) ∨
              (t.lpu.reverseMarker = some (marker .paired n0) ∧ t.lpu.forwardMarker = some (marker .paired n1) ∧
                t.sent = s.sent ++ [frame .reverse n0, frame .forward n1])))))

/-- A return watch's expiry ends the marker of its ring. A RECOVERY marker's changes nothing else. A REGULAR marker's
raises the miss count, and the third miss makes the loop state REVERSE from FORWARD and DOWN from the WRAP states, and
in REVERSE starts the wrap attempt, one PAIRED marker on each ring (R171, R172). A PAIRED marker's is an ending that
indicates nothing, and the second ending of its round decides it (R172; a forward WRAP-BOTH that no row names is log
39's). The move of the clock to the deadline is the model's (log 1), and so is that a watch that does not run changes
nothing (log 23). -/
def Obligations.ReturnWatchExpiryCounted : Prop :=
  ∀ (ring : Ring) (o : Outstanding) (d : Nat) (s : State), outstanding s ring = some o →
    ((∀ d, o.watch ≠ .running d) → exec (.returnWatchExpiry ring) s = .next s) ∧
    (o.watch = .running d →
      let ended := setOutstanding ring none { s with now := max s.now d }
      let into (t : State) : Prop := exec (.returnWatchExpiry ring) s = .next t
      (o.role = .recovery → into ended) ∧
      (o.role = .regular → s.lpu.missCount + 1 < 3 → into { ended with lpu.missCount := s.lpu.missCount + 1 }) ∧
      (o.role = .regular → 3 ≤ s.lpu.missCount + 1 →
        (s.lpu.loop = .forward → into (changeLoop .reverse { ended with lpu.missCount := 3 })) ∧
        (s.lpu.loop ∈ [.wrapBoth, .wrapFwd, .wrapRev] → into (changeLoop .down { ended with lpu.missCount := 3 })) ∧
        (s.lpu.loop = .reverse →
          ∃ t, into t ∧ { t with lpu := s.lpu, sent := s.sent, now := s.now } = s ∧ t.lpu.loop = .reverse ∧
            t.lpu.missCount = 3 ∧ t.lpu.recoveryCount = s.lpu.recoveryCount ∧ t.lpu.round = some ⟨none, none⟩ ∧
            (∃ f, t.lpu.forwardMarker = some f ∧ f.role = .paired) ∧
            (∃ v, t.lpu.reverseMarker = some v ∧ v.role = .paired) ∧ t.sent.length = s.sent.length + 2)) ∧
      (o.role = .paired → ∀ r, s.lpu.round = some r →
        (ring = .forward → r.reverseEnd = none →
          into { ended with lpu.round := some { r with forwardEnd := some none } }) ∧
        (ring = .reverse → r.forwardEnd = none →
          into { ended with lpu.round := some { r with reverseEnd := some none } }) ∧
        (∀ other, ring = .forward → r.reverseEnd = some other → into (roundDecided none other ended)) ∧
        (∀ other, ring = .reverse → r.forwardEnd = some other → into (roundDecided other none ended))))

/-- A change of loop state has all its effects at once (R173, R134): LOOP_SWITCHES is counted, alert LOOP raised, the
miss and recovery counts are 0, the outstanding markers and a paired round end, the trips and wrap addresses stay; and
each ACTIVE channel re-sends its outstanding command with retries 0, its ack timer suspended into DOWN and started
otherwise, or, out of DOWN with its handshake CLEAR, sends its current setting anew. HELD and FAULTED channels, and the
other blocks, stay. The order of the COMMAND frames, by channel after the ALERT frame, is the model's (log 18). -/
def Obligations.LoopChangeActs : Prop :=
  ∀ (new : LoopState) (s : State), s.lpu.loop ≠ new →
    let t := changeLoop new s
    let started (ch : Channel) : Channel :=
      { ch with refreshTimer := if ch.refreshPeriod = 0 then .stopped else .running (s.now + 100 * ch.refreshPeriod) }
    let command (n : Nat) : Option (Channel × TxFrame) :=
      match s.channel n with
      | none => none
      | some ch =>
        if ch.state = .active then
          match ch.handshake, ch.current with
          | .awaiting q v _, _ => some
            (started { ch with
              handshake := .awaiting q v 0
              ackTimer := if new = .down then .suspended (100 * ch.ackLimit) else .running (s.now + 100 * ch.ackLimit) },
              ⟨originRing new, ch.station, .command q ch.output v⟩)
          | .clear, some c =>
            if s.lpu.loop = .down then
              let q := (ch.cmdSeq + 1) % 16
              some (started { ch with
                cmdSeq := q, handshake := .awaiting q c 0, ackTimer := .running (s.now + 100 * ch.ackLimit) },
                ⟨originRing new, ch.station, .command q ch.output c⟩)
            else none
          | .clear, none => none
        else none
    let commands := (List.range 16).filterMap command
    let list := raisedList ⟨1, new.index⟩ s.alc.alerts
    t.lpu = { s.lpu with
      loop := new, missCount := 0, recoveryCount := 0, forwardMarker := none, reverseMarker := none, round := none } ∧
    t.count .loopSwitches = raised (s.count .loopSwitches) ∧ t.alc.alerts = list ∧
    (s.count .commandsSent ≤ 65535 →
      t.count .commandsSent = min 65535 (s.count .commandsSent + commands.length)) ∧
    (∀ n, t.channel n = ((command n).map (·.1)).or (s.channel n)) ∧
    (∃ alert, alert.length ≤ 1 ∧ (list ≠ s.alc.alerts → alert = [⟨originRing new, 31, .alert list s.alc.overflow⟩]) ∧
      t.sent = s.sent ++ alert ++ commands.map (·.2)) ∧
    { t with lpu := s.lpu, alc := s.alc, chu.channels := s.chu.channels, sent := s.sent } = s

/-! ## Samples, status entries, commands -/

/-- A SAMPLE frame changes only points of its source station, the sample counts, and what its forwarding changes; from a
FAULTY station it changes no point (R23, R27, R164, R165). -/
def Obligations.SampleFrameTouchesOnlyItsPoints : Prop :=
  ∀ (fr : RxFrame) (s : State), fr.src ≠ 0 →
    let s0 := arrive fr.src s
    ∃ t, exec (.sample fr) s = .next t ∧
      { t with pst := s0.pst, alc.counts := s0.alc.counts, sent := s0.sent } = s0 ∧
      t.sent = s0.sent ++ (if fr.dest = 0 then []
        else [⟨forwardRing s0.lpu.loop fr.input, fr.dest, .relay fr.src 1 fr.seq fr.payload⟩]) ∧
      (∀ p, (∀ slot, (s0.point p).source ≠ some (fr.src, slot)) → t.point p = s0.point p) ∧
      (∀ c : Count, c ∉ [.framesForwarded, .samplesAccepted, .samplesRange, .samplesGlitch] → t.count c = s0.count c) ∧
      (stationFaulty fr.src s0 = true → t.pst = s0.pst)

/-- One sample for a mapped point of a station that is not FAULTY (R28, R29, R30): out of range; accepted at once;
confirming the candidate; raising its count; or starting a new candidate. That a STALE or SUBSTITUTED point without an
accepted value, with a step above 0, accepts none at once is the model's choice (log 37). -/
def Obligations.SampleJudgedByRangeAndGlitch : Prop :=
  ∀ (fr : RxFrame) (slot hi lo : Byte) (p : Nat) (s : State),
    let s0 := arrive fr.src s
    let v := signed16 (be16 hi lo)
    let pt := s0.point p
    let taken (c : Count) (pt' : Point) : Prop :=
      exec (.sample fr) s = .next (passOn 1 fr (countEvent c (s0.setPoint p pt')))
    let refused : Quality := if pt.quality = .fresh then .held else pt.quality
    let accepted : Point :=
      { pt with accepted := some v, quality := .fresh, candidate := none,
                staleTimer := .running (s0.now + 100 * pt.staleLimit) }
    let near : Prop := pt.quality = .none ∨ pt.step = 0 ∨ ∃ a, pt.accepted = some a ∧ (v - a).natAbs ≤ pt.step
    fr.src ≠ 0 → fr.payload = [slot, hi, lo] → stationFaulty fr.src s0 = false → pointOf s0 fr.src slot.toNat = some p →
      (¬(pt.lo ≤ v ∧ v ≤ pt.hi) → taken .samplesRange { pt with quality := refused }) ∧
      (pt.lo ≤ v → v ≤ pt.hi → near → taken .samplesAccepted accepted) ∧
      (pt.lo ≤ v → v ≤ pt.hi → ¬near →
        (∀ c, pt.candidate = some c → (v - c.value).natAbs ≤ pt.step → pt.confirm ≤ c.count + 1 →
          taken .samplesAccepted accepted) ∧
        (∀ c, pt.candidate = some c → (v - c.value).natAbs ≤ pt.step → c.count + 1 < pt.confirm →
          taken .samplesGlitch { pt with quality := refused, candidate := some ⟨c.value, c.count + 1⟩ }) ∧
        ((∀ c, pt.candidate = some c → pt.step < (v - c.value).natAbs) →
          taken .samplesGlitch { pt with quality := refused, candidate := some ⟨v, 1⟩ }))

/-- A STATUS frame of one entry (R131, R160): not acted on from a FAULTY station; ignored while the channel's handshake
is CLEAR; counted stale with another sequence; otherwise an acknowledgement, which clears the handshake, stops the ack
timer and records the actual, faults the channel on a fault flag with alert CHANNEL, and sends the setting of an ACTIVE
channel that has moved: one COMMAND with the next sequence number, counted, with its ack and refresh timers started
(R130, R133, R134). Beside the ALERT frame and that COMMAND only GRANTED notices of completed PRF entries are sent, and
none where the acknowledged channel is neither faulted nor Settled. The frame is passed on after its entries (R165).
That the ALERT frame goes before the notices is the model's order (log 26), and the test of the head of the probe queue
at the end log 3's. -/
def Obligations.StatusEntryHandled : Prop :=
  ∀ (fr : RxFrame) (o b hi lo : Byte) (n : Nat) (ch : Channel) (s : State),
    let s0 := arrive fr.src s
    let into (t : State) : Prop := exec (.statusFrame fr) s = .next (testHead (passOn 4 fr t))
    fr.src ≠ 0 →
    (stationFaulty fr.src s0 = true → into s0) ∧
    (fr.payload = [o, b, hi, lo] → stationFaulty fr.src s0 = false → channelOf s0 fr.src o.toNat = some n →
      s0.channel n = some ch →
      (ch.handshake = .clear → into s0) ∧
      (∀ q v k, ch.handshake = .awaiting q v k →
        (b.toNat / 16 ≠ q → into (countEvent .staleStatus s0)) ∧
        (b.toNat / 16 = q →
          let acked :=
            { ch with handshake := .clear, ackTimer := .stopped, lastActual := some (min (be16 hi lo) 1023) }
          (b.toNat % 2 = 1 → ∃ t ch', into t ∧ t.channel n = some ch' ∧ ch'.lastActual = acked.lastActual ∧
            ch'.current = ch.current ∧ ch'.hold = ch.hold ∧ ch'.state = .faulted ∧ ch'.cause = some .status ∧
            ch'.handshake = .clear ∧ ch'.rampTimer = .stopped ∧ ch'.ackTimer = .stopped ∧ ch'.refreshTimer = .stopped ∧
            t.alc = (raiseAlert .channel n s0).alc ∧ t.alc.alerts = raisedList ⟨4, n⟩ s0.alc.alerts ∧
            ∃ notices, OnlyCompletions s0 notices ∧ t.sent = (raiseAlert .channel n s0).sent ++ notices) ∧
          (b.toNat % 2 = 0 →
            (∀ c, ch.state = .active → ch.current = some c → c ≠ v → into (commandedNew n acked c s0)) ∧
            (ch.state ≠ .active ∨ ch.current = none ∨ ch.current = some v →
              (acked.settled = false → into (s0.setChannel n (some acked))) ∧
              ∃ t ch', into t ∧ t.channel n = some ch' ∧ ch'.state = ch.state ∧ ch'.current = ch.current ∧
                ch'.hold = ch.hold ∧ ch'.handshake = .clear ∧ ch'.ackTimer = .stopped ∧ ch'.cmdSeq = ch.cmdSeq ∧
                ch'.lastActual = acked.lastActual ∧ t.alc = s0.alc ∧
                ∃ notices, OnlyCompletions s0 notices ∧ t.sent = s0.sent ++ notices)))))

/-- A COMMAND frame (R165, R167, R47): forwarded when no entry matches it or in CONFIG; otherwise counted and consumed,
dropped in HALTED, and in RUN converted entry by entry, in their order. Each mapping of an entry's output gives one item
of the client, in the order of the list, with the quantity and the operation of R47, taken as a DEMAND item whose notice
is not sent; an entry that no mapping names is counted in DEMANDS_DENIED. The head of the probe queue is tested after
the last item (R84; log 3). -/
def Obligations.CommandFrameIntercepted : Prop :=
  ∀ (fr : RxFrame) (s : State), fr.src ≠ 0 →
    let s0 := arrive fr.src s
    let s1 := countEvent .commandsIntercepted s0
    (interceptFor s0 fr.src fr.dest = none → exec (.intercept fr) s = .next
      (if fr.dest = 0 then countEvent .unknownClass s0
      else countEvent .framesForwarded
        { s0 with sent := s0.sent ++ [⟨forwardRing s0.lpu.loop fr.input, fr.dest, .relay fr.src 3 fr.seq fr.payload⟩] })) ∧
    (∀ x, interceptFor s0 fr.src fr.dest = some x →
      (s0.mgu.part = .halted → exec (.intercept fr) s = .next s1) ∧
      (takenClient fr.src s0 = none → exec (.intercept fr) s = .next s1) ∧
      (∃ t, exec (.intercept fr) s = .next t ∧ t.count .commandsIntercepted = raised (s0.count .commandsIntercepted) ∧
        t.count .framesForwarded = s0.count .framesForwarded) ∧
      (∀ c e, s0.mgu.part = .run → takenClient fr.src s0 = some c → (s0.client c).entry = some e →
        let item (setting : Nat) (u : State) (m : Mapping) : State :=
          let q := min ((2 * (min setting 1023 * m.scale) + 1023) / 2046) 10000
          let op : ItemOp := if q = 0 then .release
            else if (u.holder m.resource c).state = .none then .acquire .shared else .refresh
          (takeClientItem c op
            { resource := m.resource, cls := e.defaultClass, weight := e.defaultWeight, q := q, floor := none,
              fallback := none } u).1
        let entry (u : State) (y : CommandEntry) : State :=
          if ∃ m ∈ x.mappings, m.output = y.output then
            (x.mappings.filter fun m => m.output == y.output).foldl (item y.setting) u
          else countEvent .demandsDenied u
        exec (.intercept fr) s = .next (testHead ((commandEntries fr.payload).foldl entry s1))))

/-! ## Demand items -/

/-- ACQUIRE-SHARED from NONE, by the tests of R67: denied on a frozen resource, beside a WAITING or UPGRADING holder, or
beside an EXCLUSIVE one of a class as urgent; SHARED at once beside no EXCLUSIVE one, with the item's parameters and a
lease; and BUSY when less urgent ones would have to be revoked and records or PRF entries are wanting (R45, R49, R62,
R64, R66, R67). RequestRevokesLessUrgent has the revocation. The test of the head of the probe queue at the end is log
3's. -/
def Obligations.AcquireSharedFromNone : Prop :=
  ∀ (d : DemandCtx) (it : DemandItem) (c : Nat) (e : ClientEntry) (s : State), ItemOf d it c e s →
    let s0 := itemTaken d s
    let r := it.resource
    (s0.holder r c).state = .none →
      (s0.isFrozen r = true → exec (.acquireShared d it) s = .next (answered d it (s0, .denied .frozen))) ∧
      (s0.isFrozen r = false →
        (OtherIn s0 r c [.waiting, .upgrading] →
          exec (.acquireShared d it) s = .next (answered d it (s0, .denied .contended))) ∧
        (¬OtherIn s0 r c [.waiting, .upgrading] →
          (∀ c', c' < 3 → c' ≠ c → (s0.holder r c').state = .exclusive → (s0.holder r c').cls ≤ it.cls →
            exec (.acquireShared d it) s = .next (answered d it (s0, .denied .contended))) ∧
          (victims s0 r c [.exclusive] ≠ [] → (∀ c' ∈ victims s0 r c [.exclusive], it.cls < (s0.holder r c').cls) →
            ((freeList s0).length < (victims s0 r c [.exclusive]).length ∨ 8 ≤ s0.din.prf.length) →
            exec (.acquireShared d it) s = .next (answered d it (s0, .busy))) ∧
          (¬OtherIn s0 r c [.exclusive] →
            exec (.acquireShared d it) s = .next (answered d it
              (markRenewed c (withHolder r c 1
                ({ s0.holder r c with state := .shared, target := none }.renewedBy it e s0) s0),
                .granted (some .shared) 0)))))

/-- ACQUIRE-EXCLUSIVE from NONE, by the tests of R68: denied on a frozen resource and beside a WAITING or UPGRADING
holder; with no other SHARED or EXCLUSIVE holder, EXCLUSIVE at once, or WAITING with a PRF entry while a revocation
record names the resource, or BUSY when the PRF is full; denied beside a holder as urgent; and BUSY when less urgent
ones would have to be revoked and records or PRF entries are wanting (R66, R68). RequestRevokesLessUrgent has the
revocation. The test of the head of the probe queue at the end is log 3's. -/
def Obligations.AcquireExclusiveFromNone : Prop :=
  ∀ (d : DemandCtx) (it : DemandItem) (c : Nat) (e : ClientEntry) (s : State), ItemOf d it c e s →
    let s0 := itemTaken d s
    let r := it.resource
    (s0.holder r c).state = .none →
      (s0.isFrozen r = true → exec (.acquireExclusive d it) s = .next (answered d it (s0, .denied .frozen))) ∧
      (s0.isFrozen r = false →
        (OtherIn s0 r c [.waiting, .upgrading] →
          exec (.acquireExclusive d it) s = .next (answered d it (s0, .denied .contended))) ∧
        (¬OtherIn s0 r c [.waiting, .upgrading] →
          (∀ c', c' < 3 → c' ≠ c → (s0.holder r c').state ∈ [.shared, .exclusive] → (s0.holder r c').cls ≤ it.cls →
            exec (.acquireExclusive d it) s = .next (answered d it (s0, .denied .contended))) ∧
          (let others := victims s0 r c [.shared, .exclusive]
           others ≠ [] → (∀ c' ∈ others, it.cls < (s0.holder r c').cls) →
            ((freeList s0).length < others.length ∨ 8 ≤ s0.din.prf.length) →
            exec (.acquireExclusive d it) s = .next (answered d it (s0, .busy))) ∧
          (¬OtherIn s0 r c [.shared, .exclusive] →
            (¬RecordNames s0 r →
              exec (.acquireExclusive d it) s = .next (answered d it
                (markRenewed c (withHolder r c 1
                  ({ s0.holder r c with state := .exclusive, target := none }.renewedBy it e s0) s0),
                  .granted (some .exclusive) 0))) ∧
            (RecordNames s0 r → 8 ≤ s0.din.prf.length →
              exec (.acquireExclusive d it) s = .next (answered d it (s0, .busy))) ∧
            (RecordNames s0 r → s0.din.prf.length < 8 →
              ∃ t, exec (.acquireExclusive d it) s = .next (answered d it (t, .queued .exclusive)) ∧
                t.holder r c = { s0.holder r c with state := .waiting, target := some .exclusive, g := 0 }.renewedBy
                  it e s0 ∧
                (∀ r' c', (r', c') ≠ (r, c) → t.holder r' c' = s0.holder r' c') ∧
                t.din.prf = s0.din.prf ++ [⟨c, r, .exclusive⟩] ∧ t.generation r = (s0.generation r + 1) % 256 ∧
                t.gtb.records = s0.gtb.records))))

/-- A request that one or two less urgent holders stand in the way of, with records and a PRF entry free (test 3 of R67,
test 5 of R68, test 5 of R70): the holders are revoked in ascending client number, each into the lowest record then
free, and become YIELDING with g 0, their parameters kept; the requester waits with a PRF entry at the tail, WAITING
with the item's parameters and a lease, or UPGRADING with its own; the generation moves by 1 for each of them; every
other holder and record stays (R64, R66, R76, R77). Each revoked client is sent REVOKED with its grant, the yield
timeout and cause REQUEST, in the same order, and nothing else is sent (R77, R82). The answer's NOTICE goes after the
frames that the item sends, which is the model's reading (log 26), and the test of the head of the probe queue at the
end is log 3's. -/
def Obligations.RequestRevokesLessUrgent : Prop :=
  ∀ (d : DemandCtx) (it : DemandItem) (c : Nat) (e : ClientEntry) (s : State), ItemOf d it c e s →
    let s0 := itemTaken d s
    let r := it.resource
    let h := s0.holder r c
    ∀ x ∈ [(ItemOp.acquire .shared, [HolderState.exclusive], HolderState.none),
        (.acquire .exclusive, [.shared, .exclusive], .none), (.upgrade, [.shared], .shared)],
      let others := victims s0 r c x.2.1
      let urgency := if x.1 = .upgrade then h.cls else it.cls
      let level : Level := if x.1 = .acquire .shared then .shared else .exclusive
      h.state = x.2.2 → s0.isFrozen r = false → ¬OtherIn s0 r c [.waiting, .upgrading] → others ≠ [] →
      (∀ c' ∈ others, urgency < (s0.holder r c').cls) → others.length ≤ (freeList s0).length → s0.din.prf.length < 8 →
        ∃ t, exec (itemCommand d (x.1, it)) s = .next (answered d it (t, .queued level)) ∧
          HoldersRevoked .request r others s0 t ∧
          t.sent = s0.sent ++ others.flatMap (revokedFrames s0 .request r) ∧
          t.holder r c = (if x.1 = .upgrade then { h with state := .upgrading, target := none }
            else { h with state := .waiting, target := some level, g := 0 }.renewedBy it e s0) ∧
          (∀ r' c', r' ≠ r ∨ (c' ≠ c ∧ c' ∉ others) → t.holder r' c' = s0.holder r' c') ∧
          t.generation r = (s0.generation r + others.length + 1) % 256 ∧
          t.din.prf = s0.din.prf.filter (fun y => !(y.resource == r && others.contains y.client)) ++ [⟨c, r, level⟩]

/-- UPGRADE (R70): from SHARED, denied on a frozen resource, beside a WAITING or UPGRADING holder or a SHARED one as
urgent; EXCLUSIVE at once when no other is SHARED and no record names the resource; UPGRADING with a PRF entry while one
does; BUSY when less urgent SHARED ones would have to be revoked and records or PRF entries are wanting; denied from any
other state. It writes no parameter and restarts no lease. RequestRevokesLessUrgent has the revocation. The test of the
head of the probe queue at the end is log 3's. -/
def Obligations.UpgradeDecided : Prop :=
  ∀ (d : DemandCtx) (it : DemandItem) (c : Nat) (s : State), ItemPasses d it c s →
    let s0 := itemTaken d s
    let r := it.resource
    let h := s0.holder r c
    (h.state ≠ .shared → exec (.upgrade d it) s = .next (answered d it (s0, .denied .notHeld))) ∧
    (h.state = .shared → s0.isFrozen r = true →
      exec (.upgrade d it) s = .next (answered d it (s0, .denied .frozen))) ∧
    (h.state = .shared → s0.isFrozen r = false →
      (OtherIn s0 r c [.waiting, .upgrading] →
        exec (.upgrade d it) s = .next (answered d it (s0, .denied .contended))) ∧
      (¬OtherIn s0 r c [.waiting, .upgrading] →
        (∀ c', c' < 3 → c' ≠ c → (s0.holder r c').state = .shared → (s0.holder r c').cls ≤ h.cls →
          exec (.upgrade d it) s = .next (answered d it (s0, .denied .contended))) ∧
        (let others := victims s0 r c [.shared]
         others ≠ [] → (∀ c' ∈ others, h.cls < (s0.holder r c').cls) →
          ((freeList s0).length < others.length ∨ 8 ≤ s0.din.prf.length) →
          exec (.upgrade d it) s = .next (answered d it (s0, .busy))) ∧
        (¬OtherIn s0 r c [.shared] →
          (¬RecordNames s0 r →
            exec (.upgrade d it) s = .next (answered d it
              (withHolder r c 1 { h with state := .exclusive, target := none } s0,
                .granted (some .exclusive) h.g))) ∧
          (RecordNames s0 r → 8 ≤ s0.din.prf.length →
            exec (.upgrade d it) s = .next (answered d it (s0, .busy))) ∧
          (RecordNames s0 r → s0.din.prf.length < 8 →
            exec (.upgrade d it) s = .next (answered d it
              ({ withHolder r c 1 { h with state := .upgrading, target := none } s0 with
                  din.prf := s0.din.prf ++ [⟨c, r, .exclusive⟩] }, .queued .exclusive))))))

/-- DOWNGRADE (R71): from EXCLUSIVE, SHARED at once with parameters, lease and g unchanged; from any other state no
change and DENIED(NOT-HELD); a frozen resource makes no difference. REFRESH, and an ACQUIRE of either level from a
standing holder, which is taken as one (R69, R72): the parameters are written, the lease restarted, the lapsed mark
cleared; state, g, generation and PRF stay. The test of the head of the probe queue at the end is log 3's. -/
def Obligations.StandingRenewedOrDowngraded : Prop :=
  (∀ (d : DemandCtx) (it : DemandItem) (c : Nat) (s : State), ItemPasses d it c s →
    let s0 := itemTaken d s
    let h := s0.holder it.resource c
    exec (.downgrade d it) s = .next (answered d it
      (if h.state = .exclusive then
        (withHolder it.resource c 1 { h with state := .shared, target := none } s0, .granted (some .shared) h.g)
      else (s0, .denied .notHeld)))) ∧
  (∀ (d : DemandCtx) (it : DemandItem) (op : ItemOp) (c : Nat) (e : ClientEntry) (s : State), ItemOf d it c e s →
    let s0 := itemTaken d s
    let r := it.resource
    let h := s0.holder r c
    let i := itemCommand d (op, it)
    op ∈ [.refresh, .acquire .shared, .acquire .exclusive] →
      (h.state ∈ [.shared, .exclusive, .upgrading, .waiting] →
        exec i s = .next (answered d it
          (markRenewed c (s0.setHolder r c (h.renewedBy it e s0)),
            match h.state with
            | .shared => .granted (some .shared) h.g
            | .exclusive => .granted (some .exclusive) h.g
            | .waiting => .queued (h.target.getD .exclusive)
            | _ => .queued .exclusive))) ∧
      (h.state = .yielding → exec i s = .next (answered d it
        (s0, .denied (if op = .refresh then .notHeld else .yielding)))) ∧
      (h.state = .none → op = .refresh → exec i s = .next (answered d it (s0, .denied .notHeld))))

/-- RELEASE (R73): from a standing or a wait, the holder takes its NONE values, the generation moves on, its PRF entry
is gone, and in a pass its latched claim is marked departed (R96); nothing else changes. From NONE it is denied. The
test of the head of the probe queue at the end is log 3's. -/
def Obligations.ReleaseEndsStanding : Prop :=
  ∀ (d : DemandCtx) (it : DemandItem) (c : Nat) (s : State), ItemPasses d it c s →
    let s0 := itemTaken d s
    let r := it.resource
    let h := s0.holder r c
    (h.state = .none → exec (.release d it) s = .next (answered d it (s0, .denied .notHeld))) ∧
    (h.state ∈ [.shared, .exclusive, .upgrading, .waiting] →
      ∃ t, exec (.release d it) s = .next (answered d it (t, .granted none 0)) ∧
        t.holder r c = {} ∧ (∀ r' c', (r', c') ≠ (r, c) → t.holder r' c' = s0.holder r' c') ∧
        t.generation r = (s0.generation r + 1) % 256 ∧ (∀ r', r' ≠ r → t.generation r' = s0.generation r') ∧
        t.din.prf = s0.din.prf.filter (fun x => !(x.client == c && x.resource == r)) ∧
        (s0.ale.pass = none → t.ale.pass = none) ∧
        (∀ l, s0.ale.pass = some l → ∃ l', t.ale.pass = some l' ∧
          ∀ r' c', { l'.get r' with drive := none, pack := none, cab := none } =
              { l.get r' with drive := none, pack := none, cab := none } ∧
            (l'.get r').claim c' =
              if r' = r ∧ c' = c then ((l.get r).claim c).map fun x => { x with departed := true } else (l.get r').claim c') ∧
        { t with gtb.holders := s0.gtb.holders, gtb.generations := s0.gtb.generations, din.prf := s0.din.prf,
                 ale.pass := s0.ale.pass } = s0)

/-- YIELD-DONE, and a RELEASE from a YIELDING holder (R73, R74, R80): the notice mark of the record that names the
holder clears and its yield timer stops, or, with the ramp mark CLEAR, the record frees, the holder is NONE, and the PRF
entry of the resource completes when no other record names it (RecordFreed; R57); a mark already clear stays; another
state is denied. The answer's NOTICE goes after the frames that the item sends, which is the model's reading (log 26),
and the test of the head of the probe queue at the end is log 3's. -/
def Obligations.YieldDoneAcknowledges : Prop :=
  ∀ (d : DemandCtx) (it : DemandItem) (c : Nat) (s : State), ItemPasses d it c s →
    let s0 := itemTaken d s
    let r := it.resource
    ((s0.holder r c).state ≠ .yielding →
      exec (.yieldDone d it) s = .next (answered d it (s0, .denied .notHeld))) ∧
    (∀ i ∈ [Instr.yieldDone d it, Instr.release d it], (s0.holder r c).state = .yielding →
      ∀ k v, recordOf s0 r c = some k → s0.record k = some v →
        (v.notice = false → exec i s = .next (answered d it (s0, .granted none 0))) ∧
        (v.notice = true → v.ramp ≠ .clear →
          exec i s = .next (answered d it
            (s0.setRecord k (some { v with notice := false, timer := .stopped }), .granted none 0))) ∧
        (v.notice = true → v.ramp = .clear → StandingLaw s0 →
          ∃ t, exec i s = .next (answered d it (t, .granted none 0)) ∧ RecordFreed k v s0 t))

/-- RESERVE (R59) sets the client's reservation to the resource and its generation; COMMIT-IF (R60) makes the
reservation absent either way, fails when it does not name the item's resource and generation or the generation has
moved on, and otherwise does what R75 says: from NONE it takes the level where the acquisition would complete at once
and fails where it would be denied, queued or revoke; at a level held it renews that level and fails for the other. The
test of the head of the probe queue at the end is log 3's. -/
def Obligations.ReserveAndCommitIfDecided : Prop :=
  ∀ (d : DemandCtx) (it : DemandItem) (c : Nat) (e : ClientEntry) (s : State), ItemOf d it c e s →
    let s0 := itemTaken d s
    let r := it.resource
    let h := s0.holder r c
    let consumed := s0.setClient c { s0.client c with reservation := none }
    exec (.reserve d it) s = .next (answered d it
      (s0.setClient c { s0.client c with reservation := some (r, s0.generation r) }, .reserved (s0.generation r))) ∧
    (∀ level g,
      ((s0.client c).reservation ≠ some (r, g) ∨ g ≠ s0.generation r ∨ h.state ∈ [.waiting, .upgrading, .yielding] ∨
          (h.state = .none ∧ s0.isFrozen r = true) →
        exec (.commitIf d it level g) s = .next (answered d it (consumed, .commitFailed))) ∧
      ((s0.client c).reservation = some (r, g) → g = s0.generation r →
        (h.state = .shared ∧ level = .shared ∨ h.state = .exclusive ∧ level = .exclusive →
          exec (.commitIf d it level g) s = .next (answered d it
            (markRenewed c (consumed.setHolder r c (h.renewedBy it e s0)), .granted (some level) h.g))) ∧
        (h.state = .shared ∧ level = .exclusive ∨ h.state = .exclusive ∧ level = .shared →
          exec (.commitIf d it level g) s = .next (answered d it (consumed, .commitFailed))) ∧
        (h.state = .none → s0.isFrozen r = false → level = .shared →
          ¬OtherIn s0 r c [.waiting, .upgrading, .exclusive] →
          exec (.commitIf d it level g) s = .next (answered d it
            (markRenewed c (withHolder r c 1
              ({ h with state := .shared, target := none }.renewedBy it e s0) consumed),
              .granted (some .shared) 0))) ∧
        (h.state = .none → s0.isFrozen r = false → level = .exclusive →
          ¬OtherIn s0 r c [.waiting, .upgrading, .shared, .exclusive] → ¬RecordNames s0 r →
          exec (.commitIf d it level g) s = .next (answered d it
            (markRenewed c (withHolder r c 1
              ({ h with state := .exclusive, target := none }.renewedBy it e s0) consumed),
              .granted (some .exclusive) 0))) ∧
        (h.state = .none →
          (level = .shared ∧ OtherIn s0 r c [.waiting, .upgrading, .exclusive]) ∨
            (level = .exclusive ∧ (OtherIn s0 r c [.waiting, .upgrading, .shared, .exclusive] ∨ RecordNames s0 r)) →
          exec (.commitIf d it level g) s = .next (answered d it (consumed, .commitFailed)))))

/-- Items that are refused before the GTB decides them (R42 to R44). The part state and the named record refuse an item
of every operation: in CONFIG, in HALTED, and in RUN for a record that takes no claims; the item is counted and nothing
but the answer follows. BAD_ITEM is answered DENIED(BAD-ITEM) in every part state, and an item of a frame whose items
are not taken is only counted. A remainder after whole items is answered DENIED(MALFORMED) for resource 15 and counted
once; a payload without a whole item is counted and not answered. The count of a discarded frame is the model's (log
19), and so is the item given by item (log 4). The test of the head of the probe queue at the end is log 3's. -/
def Obligations.ItemsRefusedByState : Prop :=
  ∀ (d : DemandCtx) (it : DemandItem) (c : Nat) (s : State),
    let s0 := itemTaken d s
    (∀ op, op ≠ .bad → takenClient d.src (openFrame d s) = some c →
      (s0.mgu.part = .config →
        exec (itemCommand d (op, it)) s = .next (answered d it (s0, .denied .notRunning))) ∧
      (s0.mgu.part = .halted → exec (itemCommand d (op, it)) s = .next (answered d it (s0, .denied .halted))) ∧
      (s0.mgu.part = .run → (s0.resource it.resource).kind = .unused ∨ (s0.resource it.resource).kind = .parent →
        exec (itemCommand d (op, it)) s = .next (answered d it (s0, .denied .badResource)))) ∧
    (takenClient d.src (openFrame d s) = some c →
      exec (.badItem d it) s = .next (answered d it (s0, .denied .badItem))) ∧
    (∀ op, takenClient d.src (openFrame d s) = none →
      exec (itemCommand d (op, it)) s = .next (countEvent .demandsDenied (openFrame d s))) ∧
    (d.first = true → exec (.malformed d) s = .next (countEvent .demandsDenied (openFrame d s))) ∧
    (d.first = false → takenClient d.src s = some c →
      exec (.malformed d) s = .next
        (originate d.src (.notice d.seq false (s.din.draft ++ [⟨15, .denied .malformed⟩]))
          { countEvent .demandsDenied s with din.draft := [] }))

/-! ## Management operations -/

/-- The parts of a LOAD (R162) and the refusals of R200: part 0 begins a load, a part that names another load or another
number is answered BAD-VALUE and discards the parts held, a part without the last mark is held and answered DONE; a
complete LOAD is refused with BAD-INDEX for an unknown table, a class the table does not take or an index out of range,
and with WRONG-STATE for a STRUCTURAL load in RUN or HALTED. That no part is held after a complete LOAD is the model's
choice (log 46). -/
def Obligations.LoadPartsAndRefusals : Prop :=
  ∀ (m : ManageCtx) (table index cls : Nat) (part : PartMark) (bytes : List Byte) (s : State), FromManager m s →
    let s0 := arrive m.src s
    let i : Instr := .load m table index cls part bytes
    let fits (h : HeldParts) : Prop := h.table = table ∧ h.index = index ∧ h.cls = cls ∧ h.next = part.number
    (part.number = 0 → part.last = false →
      exec i s = .next (replied m 1 .done { s0 with mgu.held := some ⟨table, index, cls, 1, bytes⟩ })) ∧
    (part.number ≠ 0 → (∀ h, s0.mgu.held = some h → ¬fits h) →
      exec i s = .next (replied m 1 .badValue { s0 with mgu.held := none })) ∧
    (∀ h, part.number ≠ 0 → part.last = false → s0.mgu.held = some h → fits h →
      exec i s = .next (replied m 1 .done
        { s0 with mgu.held := some { h with next := h.next + 1, bytes := h.bytes ++ bytes } })) ∧
    ((part.number = 0 ∨ ∃ h, s0.mgu.held = some h ∧ fits h) → part.last = true →
      (table = 0 ∨ 11 < table ∨ (cls ≠ 1 ∧ cls ≠ 2) ∨ (cls = 2 ∧ table ∈ [1, 2, 3, 9]) ∨
          (cls = 1 ∧ table ∈ [10, 11]) ∨ (table = 4 ∧ 47 < index) ∨ (table = 1 ∧ 29 < index) ∨
          (table ∈ [7, 9] ∧ 15 < index) ∨ (table = 6 ∧ 11 < index) ∨ (table = 8 ∧ 3 < index) ∨
          (table = 5 ∧ 2 < index) ∨ (table ∈ [2, 3, 10, 11] ∧ 0 < index) →
        exec i s = .next (replied m 1 .badIndex { s0 with mgu.held := none })) ∧
      (1 ≤ table → table ≤ 9 → cls = 1 → s0.mgu.part ≠ .config →
        (∀ n, tableShape table = some n → index < n.1) →
        exec i s = .next (replied m 1 .wrongState { s0 with mgu.held := none })))

/-- TUNABLE loads of the pass period, the loop settings, a point, a client entry, a channel and a slot are taken in
every part state, in their ranges alone, and change the values they give and no running timer; an empty client entry, an
unloaded channel or slot, and a step the slot does not have are BAD-INDEX (R91, R174, R25, R40, R121, R145). A taken
load is an event at which the head of the probe queue is tested (log 3). That the REPLY follows the frames of a
channel's reports is the model's reading (log 26). The field numbers and the layout of a step limit are the model's
reading (log 13), and so is BAD-INDEX before BAD-VALUE (log 38) and the end of the held parts at completion (log 46). -/
def Obligations.TunableSettingsLoaded : Prop :=
  ∀ (m : ManageCtx) (n : Nat) (v w x y z : Int) (s : State), FromManager m s →
    Carries v → Carries w → Carries x → Carries y → Carries z →
    let s0 := loadTaken m s
    (let i := loadOf m 10 0 2 [⟨1, [v]⟩]
     (100 ≤ v ∧ v ≤ 2000 ∧ v % 50 = 0 → LoadDone m i s { s0 with ale.passPeriod := v.toNat }) ∧
      (¬(100 ≤ v ∧ v ≤ 2000 ∧ v % 50 = 0) → LoadRefused m i s .badValue)) ∧
    (let i := loadOf m 11 0 2 [⟨1, [v]⟩, ⟨2, [w]⟩]
     (20 ≤ v ∧ v ≤ 500 ∧ 2 ≤ w ∧ w ≤ 100 ∧ w < v →
        LoadDone m i s { s0 with lpu.markerPeriod := v.toNat, lpu.returnLimit := w.toNat }) ∧
      (¬(20 ≤ v ∧ v ≤ 500 ∧ 2 ≤ w ∧ w ≤ 100 ∧ w < v) → LoadRefused m i s .badValue)) ∧
    (0 < n → LoadRefused m (loadOf m 10 n 2 [⟨1, [v]⟩]) s .badIndex) ∧
    (n < 48 →
      let i := loadOf m 4 n 2 [⟨4, [v]⟩, ⟨5, [w]⟩, ⟨6, [x]⟩]
      let fits : Prop := 0 ≤ v ∧ (2 ≤ w ∧ w ≤ 4) ∧ 100 ≤ x ∧ x ≤ 10000
      (fits → LoadDone m i s (s0.setPoint n
          { s0.point n with step := v.toNat, confirm := w.toNat, staleLimit := x.toNat })) ∧
        (¬fits → LoadRefused m i s .badValue)) ∧
    (n < 3 →
      let i := loadOf m 5 n 2 [⟨5, [v]⟩]
      ((s0.client n).entry = none → LoadRefused m i s .badIndex) ∧
        ∀ e, (s0.client n).entry = some e →
          (200 ≤ v ∧ v ≤ 10000 → LoadDone m i s (s0.setClient n
            { s0.client n with entry := some { e with leasePeriod := v.toNat } })) ∧
          (¬(200 ≤ v ∧ v ≤ 10000) → LoadRefused m i s .badValue)) ∧
    (n < 16 →
      let i := loadOf m 7 n 2 [⟨6, [v]⟩, ⟨7, [w]⟩, ⟨8, [x]⟩, ⟨9, [y]⟩, ⟨10, [z]⟩]
      let fits : Prop := (1 ≤ v ∧ v ≤ 1023) ∧ (10 ≤ w ∧ w ≤ 2550 ∧ w % 10 = 0) ∧ (0 ≤ x ∧ x ≤ 1023) ∧
        (5 ≤ y ∧ y ≤ 255) ∧ 0 ≤ z ∧ z ≤ 10000
      (s0.channel n = none → LoadRefused m i s .badIndex) ∧
        ∀ ch, s0.channel n = some ch →
          (fits → LoadDone m i s (reportChanges s0 (s0.setChannel n (some
            { ch with slew := v.toNat, rampInterval := w.toNat, tolerance := x.toNat, ackLimit := y.toNat,
                      refreshPeriod := z.toNat })))) ∧
          (¬fits → LoadRefused m i s .badValue)) ∧
    (n < 4 →
      let i := loadOf m 8 n 2 [⟨5, [v, w]⟩, ⟨6, [x]⟩, ⟨7, [y]⟩]
      let fits : Prop := (1 ≤ w ∧ w ≤ 255) ∧ (0 ≤ x ∧ x ≤ 60) ∧ 0 ≤ y ∧ y ≤ 600
      (s0.slot n = none → LoadRefused m i s .badIndex) ∧
        ∀ sl, s0.slot n = some sl →
          (¬(1 ≤ v ∧ v ≤ sl.steps.length) → LoadRefused m i s .badIndex) ∧
          (1 ≤ v → v ≤ sl.steps.length →
            (fits → LoadDone m i s (s0.setSlot n (some
              { sl with steps := sl.steps.modify (v.toNat - 1) (fun st => { st with limit := w.toNat }),
                        stopDelay := x.toNat, antiCycle := y.toNat }))) ∧
            (¬fits → LoadRefused m i s .badValue)))

/-- STRUCTURAL loads in CONFIG of a station record, the station settings, the management station, a point, a client
entry and an intercept entry: taken when every value lies in its range, when they write the whole record and put the
kept fields as their rules say; refused with BAD-VALUE otherwise; a load that gives no address, station or source
empties the record (R25, R40, R168, R178, R179, R201). A station record whose address a lower-numbered record holds
takes no frames, and a load that ends the fault of a station returns its channels (R178). The field numbers, the codes
of names and the layout of the source, the substitute and the mappings are the model's reading (logs 12, 13), and a
given field without values counts as not given (log 14). The end of the held parts at completion is the model's choice
(log 46). A taken load is an event at which the head of the probe queue is tested (log 3). -/
def Obligations.StructuralRecordsLoaded : Prop :=
  ∀ (m : ManageCtx) (n : Nat) (u v w x y z : Int) (s : State), FromManager m s →
    Carries u → Carries v → Carries w → Carries x → Carries y → Carries z →
    let s0 := loadTaken m s
    s0.mgu.part = .config →
    (n < 30 →
      let i := loadOf m 1 n 1 [⟨1, [u]⟩, ⟨2, [v]⟩, ⟨3, [w]⟩]
      let fits : Prop := (1 ≤ u ∧ u ≤ 30) ∧ (1 ≤ v ∧ v ≤ 5) ∧ 100 ≤ w ∧ w ≤ 5000
      let role : Role := ([.sensor, .actuator, .client, .manager, .other] : List Role).getD (v.toNat - 1) .other
      (¬fits → LoadRefused m i s .badValue) ∧
      (fits → ∃ t, LoadDone m i s t ∧
        t.station n = some
          { address := u.toNat, role := role, silenceLimit := w.toNat, state := .absent, pollTimer := .stopped,
            retryCount := 0, heard := false,
            silenceTimer :=
              if ∃ j < n, (s0.station j).map (·.address) = some u.toNat then .stopped
              else .running (s0.now + 100 * w.toNat) } ∧
        (∀ j st, j ≠ n → s0.station j = some st → st.address ≠ u.toNat →
          (∀ old, s0.station n = some old → old.address ≠ st.address) → t.station j = some st) ∧
        (∀ old, s0.station n = some old → old.state = .faulty → old.address ≤ 30 →
          (∀ j, j ≠ n → (s0.station j).map (·.address) ≠ some old.address) →
          ∀ k ch, s0.channel k = some ch → ch.station = old.address → ch.state = .faulted →
            ch.cause = some .station →
            ∃ ch', t.channel k = some ch' ∧ ch'.state = .held ∧ ch'.cause = none ∧ ch'.current = none) ∧
        t.pst = s0.pst ∧ t.fsu = s0.fsu ∧ t.cau = s0.cau ∧ t.lpu = s0.lpu ∧ t.mgu = s0.mgu ∧
        t.stm.returnMode = s0.stm.returnMode) ∧
      ∃ t, LoadDone m (loadOf m 1 n 1 []) s t ∧ t.station n = none ∧ t.pst = s0.pst ∧ t.cau = s0.cau) ∧
    (let i := loadOf m 2 0 1 [⟨1, [u]⟩, ⟨2, [v]⟩, ⟨3, [w]⟩]
     let fits : Prop := (10 ≤ u ∧ u ≤ 100) ∧ (0 ≤ v ∧ v ≤ 32) ∧ 1 ≤ w ∧ w ≤ 3
     let mode : ReturnMode := if w = 1 then .auto else if w = 2 then .manual else .halt
     (fits → LoadDone m i s
        { s0 with stm := { s0.stm with pollTimeout := u.toNat, retryLimit := v.toNat, returnMode := mode } }) ∧
      (¬fits → LoadRefused m i s .badValue)) ∧
    (let i := loadOf m 3 0 1 [⟨1, [u]⟩]
     (1 ≤ u → u ≤ 30 → LoadDone m i s { s0 with mgu.manager := u.toNat }) ∧
      (¬(1 ≤ u ∧ u ≤ 30) → LoadRefused m i s .badValue)) ∧
    (n < 48 →
      let i := loadOf m 4 n 1
        [⟨1, [2, u, v]⟩, ⟨2, [w, x]⟩, ⟨3, [3, y, z]⟩, ⟨4, [16]⟩, ⟨5, [4]⟩, ⟨6, [100]⟩]
      let fits : Prop := (1 ≤ u ∧ u ≤ 30) ∧ (0 ≤ v ∧ v ≤ 255) ∧ 0 ≤ y ∧ y ≤ 47
      (fits → LoadDone m i s (s0.setPoint n
        { source := some (u.toNat, v.toNat), lo := w, hi := x, substitute := some (.point y.toNat z), step := 16,
          confirm := 4, staleLimit := 100, quality := .none, accepted := none, candidate := none,
          staleTimer := .stopped })) ∧
      (¬fits → LoadRefused m i s .badValue) ∧
      LoadDone m (loadOf m 4 n 1 [⟨1, [1]⟩, ⟨3, [2, y]⟩]) s (s0.setPoint n
        { source := none, lo := -32768, hi := 32767, substitute := some (.fixed y), step := 0, confirm := 3,
          staleLimit := 1000, quality := .none, accepted := none, candidate := none, staleTimer := .stopped })) ∧
    (n < 3 →
      let i := loadOf m 5 n 1 [⟨1, [u]⟩, ⟨2, [v]⟩, ⟨3, [w]⟩, ⟨4, [x]⟩, ⟨5, [y]⟩]
      let fits : Prop := (1 ≤ u ∧ u ≤ 30) ∧ (1 ≤ v ∧ v ≤ 2) ∧ (0 ≤ w ∧ w ≤ 3) ∧ (1 ≤ x ∧ x ≤ 15) ∧ 200 ≤ y ∧ y ≤ 10000
      let entry (e : Option ClientEntry) : State := s0.setClient n { s0.client n with entry := e }
      (fits → LoadDone m i s (entry (some
        { station := u.toNat, policy := if v = 1 then .release else .fallback, defaultClass := w.toNat,
          defaultWeight := x.toNat, leasePeriod := y.toNat }))) ∧
      (¬fits → LoadRefused m i s .badValue) ∧
      (1 ≤ u → u ≤ 30 → LoadDone m (loadOf m 5 n 1 [⟨1, [u]⟩]) s (entry (some
        { station := u.toNat, policy := .release, defaultClass := 2, defaultWeight := 8, leasePeriod := 1000 }))) ∧
      LoadDone m (loadOf m 5 n 1 []) s (entry none)) ∧
    (∀ ms : List Mapping, n < 16 → ms.length ≤ 80 →
      (∀ y ∈ ms, y.output ≤ 32767 ∧ y.resource ≤ 32767 ∧ y.scale ≤ 32767) →
      let i := loadOf m 9 n 1 [⟨1, [u]⟩, ⟨2, [v]⟩,
        ⟨3, (ms.length : Int) :: ms.flatMap fun y => [(y.output : Int), (y.resource : Int), (y.scale : Int)]⟩]
      let fits : Prop := (1 ≤ u ∧ u ≤ 30) ∧ (1 ≤ v ∧ v ≤ 30) ∧ (1 ≤ ms.length ∧ ms.length ≤ 4) ∧
        ∀ y ∈ ms, y.output ≤ 7 ∧ y.resource ≤ 11 ∧ 1 ≤ y.scale ∧ y.scale ≤ 10000
      let entry (e : Option Intercept) : State := { s0 with fsu.entries := s0.fsu.entries.set n e }
      (fits → LoadDone m i s (entry (some { source := u.toNat, destination := v.toNat, mappings := ms }))) ∧
      (¬fits → LoadRefused m i s .badValue) ∧ LoadDone m (loadOf m 9 n 1 []) s (entry none))

/-- Loads of resource, channel and slot records. A STRUCTURAL load in CONFIG of the contents that READ returns of a
record in its ranges writes that record, with the kept fields at their values after RESTART, a channel of a FAULTY
station FAULTED, a channel's load without a kind and a slot's without a resource unload the record, and a resource is
emptied by a load of kind UNUSED (R10, R121, R145). Values out of range, and a field that the kind does not carry, are
BAD-VALUE and change nothing, also in a load that unloads a slot (R10, R121, R145, R200). A TUNABLE load of a resource
writes the values it gives; an UNUSED record, a field its kind does not carry and a channel of no LEVEL binding are
BAD-INDEX, and a list of another length than its curve is BAD-VALUE (R10). The contents are the model's layout (logs 12,
13, 15), the yield timeouts above 32767 travel in two bytes by its reading (log 6), BAD-INDEX before BAD-VALUE is its
choice (log 38), the end of the held parts at completion log 46's, the test of the head of the probe queue log 3's,
BAD-VALUE for a resource load that gives no kind log 14's reading, and the REPLY after the frames of a channel's reports
log 26's. -/
def Obligations.PlantRecordsLoaded : Prop :=
  ∀ (m : ManageCtx) (n j : Nat) (v : Int) (u s : State), FromManager m s → Carries v →
    let s0 := loadTaken m s
    (s0.mgu.part = .config → n < 12 → (u.resource j).InRange →
      LoadDone m (loadOf m 6 n 1 (readContents 6 j u)) s (s0.setResource n (u.resource j))) ∧
    (s0.mgu.part = .config → n < 16 → ∀ ch, u.channel j = some ch → ch.InRange →
      LoadDone m (loadOf m 7 n 1 (readContents 7 j u)) s (reportChanges s0 (s0.setChannel n (some
        { ch with
          state := if stationFaulty ch.station s0 then .faulted else .held
          cause := if stationFaulty ch.station s0 then some .station else none
          hold := false, current := none, target := 0, split := 0, seqMin := 0, handshake := .clear, cmdSeq := 0,
          lastActual := none, rampTimer := .stopped, ackTimer := .stopped, refreshTimer := .stopped })))) ∧
    (s0.mgu.part = .config → n < 4 → ∀ sl, u.slot j = some sl → sl.InRange →
      ∃ t, LoadDone m (loadOf m 8 n 1 (readContents 8 j u)) s t ∧ t.stm = s0.stm ∧ t.pst = s0.pst ∧ t.cau = s0.cau ∧
        t.slot n = some
          { sl with state := .stopped, watch := .stopped, stopDelayTimer := .stopped, claimSum := 0,
                    antiCycleTimer :=
                      if sl.antiCycle = 0 then .stopped else .running (s0.now + 100 * (1000 * sl.antiCycle)) }) ∧
    (s0.mgu.part = .config →
      (n < 12 → LoadDone m (loadOf m 6 n 1 [⟨1, [1]⟩]) s (s0.setResource n {}) ∧
        LoadRefused m (loadOf m 6 n 1 [⟨1, [1]⟩, ⟨7, [100]⟩]) s .badValue ∧
        LoadRefused m (loadOf m 6 n 1 []) s .badValue) ∧
      (n < 16 → LoadDone m (loadOf m 7 n 1 []) s (reportChanges s0 (s0.setChannel n none)) ∧
        (v < 1 ∨ 1023 < v → LoadRefused m (loadOf m 7 n 1 [⟨1, [1]⟩, ⟨2, [5]⟩, ⟨6, [v]⟩]) s .badValue) ∧
        (∀ k ∈ [1, 2, 4, 5], LoadRefused m (loadOf m 7 n 1
          [⟨1, [(k : Int)]⟩, ⟨2, [5]⟩, ⟨4, [9, 0, 1, 2, 3, 4, 5, 6, 7, 8]⟩]) s .badValue)) ∧
      (n < 4 → (∃ t, LoadDone m (loadOf m 8 n 1 []) s t ∧ t.slot n = none) ∧
        (v < 0 ∨ 60 < v → LoadRefused m (loadOf m 8 n 1 [⟨6, [v]⟩]) s .badValue) ∧
        (v < 0 ∨ 600 < v → LoadRefused m (loadOf m 8 n 1 [⟨7, [v]⟩]) s .badValue) ∧
        (v < 1 ∨ 1023 < v → LoadRefused m (loadOf m 8 n 1 [⟨1, [0]⟩, ⟨2, [1, 3, v]⟩]) s .badValue) ∧
        LoadRefused m (loadOf m 8 n 1 [⟨1, [0]⟩, ⟨2, [0]⟩]) s .badValue)) ∧
    (n < 12 →
      let x := s0.resource n
      (x.kind = .unused → LoadRefused m (loadOf m 6 n 2 [⟨7, [v]⟩]) s .badIndex) ∧
      (x.kind ≠ .unused →
        (0 ≤ v → v ≤ 10000 → LoadDone m (loadOf m 6 n 2 [⟨7, [v]⟩]) s (s0.setResource n { x with blind := some v.toNat })) ∧
        (¬(0 ≤ v ∧ v ≤ 10000) → LoadRefused m (loadOf m 6 n 2 [⟨7, [v]⟩]) s .badValue) ∧
        (x.kind = .parent → LoadRefused m (loadOf m 6 n 2 [⟨11, [1000]⟩]) s .badIndex) ∧
        (x.kind ≠ .parent →
          (500 ≤ v → LoadDone m (loadOf m 6 n 2 [⟨11, [v]⟩]) s (s0.setResource n { x with yieldTimeout := some v.toNat })) ∧
          (0 ≤ v → v < 500 → LoadRefused m (loadOf m 6 n 2 [⟨11, [v]⟩]) s .badValue)) ∧
        ∀ ys : List Nat, ys.length ≤ 100 → (∀ y ∈ ys, y ≤ 32767) →
          let list : List Int := (ys.length : Int) :: ys.map fun y => (y : Int)
          let redrawn (l : List Breakpoint) : List Breakpoint := List.zipWith (fun p y => { p with y := y }) l ys
          (ys.length = x.curve.length → (∀ y ∈ ys, y ≤ 10000) →
            LoadDone m (loadOf m 6 n 2 [⟨5, list⟩]) s (s0.setResource n { x with curve := redrawn x.curve })) ∧
          (ys.length ≠ x.curve.length ∨ (∃ y ∈ ys, 10000 < y) →
            LoadRefused m (loadOf m 6 n 2 [⟨5, list⟩]) s .badValue) ∧
          ((∀ b ∈ x.bindings, ∀ l, b.mode = .level l → (b.channel : Int) ≠ v) →
            LoadRefused m (loadOf m 6 n 2 [⟨9, v :: list⟩]) s .badIndex) ∧
          ((∃ b ∈ x.bindings, (b.channel : Int) = v ∧ ∃ l, b.mode = .level l) →
            let fits : Prop := (∀ y ∈ ys, y ≤ 1023) ∧
              ∀ b ∈ x.bindings, ∀ l, b.mode = .level l → (b.channel : Int) = v → l.length = ys.length
            (fits → LoadDone m (loadOf m 6 n 2 [⟨9, v :: list⟩]) s (s0.setResource n
              { x with bindings := x.bindings.map fun b =>
                  match b.mode with
                  | .level l => if (b.channel : Int) = v then { b with mode := .level (redrawn l) } else b
                  | .split _ => b })) ∧
            (¬fits → LoadRefused m (loadOf m 6 n 2 [⟨9, v :: list⟩]) s .badValue))))

/-- READ and STATUS answer DONE for every table, record and item that exists, BAD-INDEX for any other, and change
nothing but by their REPLY (R196, R200); the pass period, the loop settings, the management station and the part are
read as they stand. The codes and the field numbers of the contents are the model's reading (log 12, log 15), and so is
BAD-INDEX for a table or an item that does not exist and for a non-zero index of an item that takes none (log 16). -/
def Obligations.ReadAndStatusChangeNothing : Prop :=
  ∀ (m : ManageCtx) (x index : Nat) (s : State), FromManager m s →
    let s0 := arrive m.src s
    let got (op : Nat) (st : Status) (c : List FieldItem) : State :=
      { s0 with sent := s0.sent ++ [⟨originRing s0.lpu.loop, m.src, .reply m.seq { op := op, status := st, contents := c }⟩] }
    (∃ c, exec (.read m x index) s = .next
      (if ∃ n, tableShape x = some n ∧ index < n.1 then got 2 .done c else got 2 .badIndex [])) ∧
    (∃ c, exec (.status m x index) s = .next
      (if (x ∈ [1, 5, 6, 7, 8, 11, 13, 14] ∧ index = 0) ∨ (x ∈ [2, 4] ∧ index < 12) ∨ (x = 3 ∧ index < 48) ∨
          (x = 9 ∧ index < 16) ∨ (x = 10 ∧ index < 4) ∨ (x = 12 ∧ (stationRecord index s0).isSome) then got 3 .done c
        else got 3 .badIndex [])) ∧
    exec (.read m 10 0) s = .next (got 2 .done [⟨1, [(s0.ale.passPeriod : Int)]⟩]) ∧
    exec (.read m 11 0) s = .next
      (got 2 .done [⟨1, [(s0.lpu.markerPeriod : Int)]⟩, ⟨2, [(s0.lpu.returnLimit : Int)]⟩]) ∧
    exec (.read m 3 0) s = .next (got 2 .done [⟨1, [(s0.mgu.manager : Int)]⟩]) ∧
    exec (.status m 1 0) s = .next (got 3 .done
      [⟨1, [match s0.mgu.part with | .config => 1 | .run => 2 | .halted => 3]⟩, ⟨2, [(s0.mgu.manager : Int)]⟩,
        ⟨3, [match s0.stm.returnMode with | .auto => 1 | .manual => 2 | .halt => 3]⟩,
        ⟨4, [(faultyCount s0 : Int)]⟩])

/-- The contents of READ of the stations, the settings, the points, the client entries and the intercept entries, and of
STATUS of every item but the part: the capacity report (R20), a point (R38), the grants, the revocation records and the
probe queue (R89), the PRF (R58), the allocation (R116), a channel (R141), a slot (R157), the loop (R176), a station
(R187), the alert list (R195) and the event counts (R194), each value as the state holds it. (READ of resources,
channels and slots is read back by PlantRecordsLoaded.) The numbers of fields, the codes of names, and the layout of
lists and optional parts are the model's reading (logs 12, 13, 15), a time with a part of a millisecond is reported as a
free value (log 5), and the absent source state of a mapped point whose station has no record is its choice (log 44). -/
def Obligations.ReadoutsReportState : Prop :=
  ∀ (m : ManageCtx) (x : Nat) (s : State), FromManager m s →
    let s0 := arrive m.src s
    let items (l : List (List Int)) : List FieldItem := l.zipIdx.map fun y => ⟨y.2 + 1, y.1⟩
    let each (field : Nat) (l : List (List Int)) : List FieldItem := l.map fun v => ⟨field, v⟩
    let answer (op : Nat) (c : List FieldItem) : State :=
      { s0 with sent := s0.sent ++
          [⟨originRing s0.lpu.loop, m.src, .reply m.seq { op := op, status := .done, contents := c }⟩] }
    let read (table index : Nat) (c : List FieldItem) : Prop := exec (.read m table index) s = .next (answer 2 c)
    let status (item index : Nat) (c : List FieldItem) : Prop := exec (.status m item index) s = .next (answer 3 c)
    let int (n : Nat) : Int := n
    let mark (b : Bool) : List Int := [if b then 1 else 2]
    let opt (v : Option Nat) : List Int := match v with | none => [] | some v => [int v]
    let part (v : Option Nat) : List Int := match v with | none => [0] | some v => [1, int v]
    let value (v : Option Int) : List Int := match v with | none => [] | some v => [v]
    let left (t : Timer) : Option Nat := match t with
      | .stopped => none
      | .running d => some (reportedMs (d - s0.now))
      | .suspended r => some (reportedMs r)
    let timer (t : Timer) : List Int := match left t with | none => [1] | some v => [2, int v]
    let slotTimer (t : Timer) : List Int := match t with
      | .stopped => [1]
      | .suspended r => [2, int (reportedMs r)]
      | .running d => [3, int (reportedMs (d - s0.now))]
    let level (l : Level) : Int := match l with | .shared => 1 | .exclusive => 2
    let role (r : Role) : Int := match r with | .sensor => 1 | .actuator => 2 | .client => 3 | .manager => 4 | .other => 5
    let holder (h : HolderState) : Int := match h with
      | .none => 1 | .waiting => 2 | .shared => 3 | .upgrading => 4 | .exclusive => 5 | .yielding => 6
    let standing (st : StationState) : List Int := match st with
      | .absent => [1] | .online => [2] | .polling n => [3, int n] | .faulty => [4]
    (x < 30 → read 1 x (items (match s0.station x with
      | none => [[], [], []]
      | some st => [[int st.address], [role st.role], [int st.silenceLimit]]))) ∧
    read 2 0 (items [[int s0.stm.pollTimeout], [int s0.stm.retryLimit],
      [match s0.stm.returnMode with | .auto => 1 | .manual => 2 | .halt => 3]]) ∧
    (x < 48 → let p := s0.point x
      read 4 x (items
        [match p.source with | none => [1] | some (a, n) => [2, int a, int n],
          [p.lo, p.hi],
          (match p.substitute with
            | none => []
            | some (.fixed v) => [2, v]
            | some (.point q fallback) => [3, int q, fallback]),
          [int p.step], [int p.confirm], [int p.staleLimit]]) ∧
      status 3 x (items
        [[match p.quality with | .none => 1 | .fresh => 2 | .held => 3 | .stale => 4 | .substituted => 5],
          value (reportedValue s0 x), value p.accepted,
          (match p.candidate with | none => [] | some c => [c.value, int c.count]),
          timer p.staleTimer,
          match (p.source.bind fun y => stationRecord y.1 s0).bind s0.station with
            | none => []
            | some st => standing st.state])) ∧
    (x < 3 → read 5 x (items (match (s0.client x).entry with
      | none => [[], [], [], [], []]
      | some e => [[int e.station], [match e.policy with | .release => 1 | .fallback => 2], [int e.defaultClass],
          [int e.defaultWeight], [int e.leasePeriod]]))) ∧
    (x < 16 → read 9 x (items (match interceptAt s0 x with
      | none => [[], [], []]
      | some e => [[int e.source], [int e.destination],
          int e.mappings.length :: e.mappings.flatMap fun y => [int y.output, int y.resource, int y.scale]]))) ∧
    (x < 12 → let y := s0.cau.reports.get x
      status 2 x (items
        [mark y.computed, (match y.baseSource with | none => [] | some .curve => [1] | some .blind => [2]), [int y.base],
          [int y.availability], opt y.derating, [int y.effective],
          [match y.boundBy with
            | .none => 1 | .derate => 2 | .limit => 3 | .limitStale => 4 | .cap => 5 | .gate => 6]]) ∧
      status 4 x (items [[int (s0.generation x)], mark (s0.isFrozen x)] ++ each 3 ([0, 1, 2].map fun c =>
        let h := s0.holder x c
        [holder h.state, (match h.target with | none => 1 | some .shared => 2 | some .exclusive => 3), int h.q, int h.f] ++
          part h.fallback ++ [int h.cls, int h.weight, int h.g] ++ mark h.lapsed ++ part (left h.lease)))) ∧
    status 5 0 (each 1 ((List.range 8).map fun k => match s0.record k with
      | none => [1]
      | some v => [2, int v.resource, int v.client, int v.grant, (match v.cause with | .request => 1 | .probe => 2),
          (match v.ramp with | .pass => 1 | .settle => 2 | .clear => 3)] ++ mark v.notice ++ part (left v.timer))) ∧
    status 6 0 (each 1 (s0.gtb.probes.map fun p =>
        [match p.kind with
          | .evict => 1 | .evictAll => 2 | .demote => 3 | .freeze => 4 | .thaw => 5 | .cap => 6 | .uncap => 7,
          int p.resource, int p.client, int p.quantity]) ++
      [⟨2, match s0.gtb.probes with
        | [] => []
        | p :: _ =>
          let marked := noticeMarkSet s0 p.resource
          let wanting := decide ((freeList s0).length < revocationsNeeded s0 p)
          mark (marked || wanting) ++ mark marked ++ mark wanting⟩]) ∧
    status 7 0 (each 1 (s0.din.prf.map fun e =>
      [int e.client, int e.resource, level e.target, holder (s0.holder e.resource e.client).state])) ∧
    (let row (f : PassResult → List Int) (r : Nat) : List Int := int r :: f (s0.ale.results.get r)
     let parents := (List.range 12).filter fun r => decide ((s0.resource r).kind = .parent)
     status 8 0 (items [[if s0.ale.pass = none then 1 else 2], timer s0.ale.passTimer, [int s0.ale.passPeriod]] ++
       each 4 ((List.range 12).map (row fun y => part y.latched)) ++
       each 5 ((List.range 12).map (row fun y => [int y.total])) ++
       each 6 (parents.map (row fun y => [int y.demandDraw])) ++
       each 7 (parents.map (row fun y => part y.cutClass)))) ∧
    (x < 16 → status 9 x (items (match s0.channel x with
      | none => [[1], [], [], [], [], [], [], [], [2]]
      | some ch =>
        [[match ch.state with | .active => 2 | .held => 3 | .faulted => 4],
          [match ch.kind with | .pump => 1 | .fan => 2 | .valve => 3 | .compressor => 4 | .heater => 5],
          mark ch.hold,
          (match ch.cause with
            | none => [] | some .status => [2] | some .ackTimeout => [3] | some .station => [4]),
          (match ch.current with | none => [1] | some c => [2, int c]),
          [int ch.target, int ch.split, int ch.seqMin],
          (match ch.handshake with | .clear => [1] | .awaiting q v k => [2, int q, int v, int k]),
          opt ch.lastActual, mark (settled s0 x)]))) ∧
    (x < 4 → status 10 x (items (match s0.slot x with
      | none => [[1], [0], [1], [1], [1], [0]]
      | some sl =>
        let placed : Nat := match sl.state with
          | .starting i => i
          | .running => sl.steps.length
          | .stopping i => i - 1
          | _ => 0
        [(match sl.state with
            | .stopped => [2] | .starting i => [3, int i] | .running => [4] | .stopping i => [5, int i] | .failed => [6]),
          int sl.steps.length :: sl.steps.zipIdx.flatMap fun y =>
            [if y.2 < placed then 1 else 2, int y.1.channel, int y.1.run],
          slotTimer sl.watch, slotTimer sl.stopDelayTimer, timer sl.antiCycleTimer, [int sl.claimSum]]))) ∧
    status 11 0 (items
      [[match s0.lpu.loop with
          | .forward => 1 | .reverse => 2 | .wrapBoth => 3 | .wrapFwd => 4 | .wrapRev => 5 | .down => 6],
        [int s0.lpu.missCount, int s0.lpu.recoveryCount], mark s0.lpu.round.isSome,
        part s0.lpu.presentTrip ++ part s0.lpu.minTrip ++ part s0.lpu.maxTrip, opt s0.lpu.lastHops,
        part s0.lpu.forwardWrap ++ part s0.lpu.reverseWrap, [int s0.lpu.markerPeriod, int s0.lpu.returnLimit]]) ∧
    (∀ i st, stationRecord x s0 = some i → s0.station i = some st → status 12 x (items
      [[int i], [role st.role], [int st.silenceLimit], standing st.state, timer st.silenceTimer, timer st.pollTimer,
        [int st.retryCount], mark st.heard])) ∧
    status 13 0 (items [[int s0.alc.alerts.length],
      int s0.alc.alerts.length :: s0.alc.alerts.flatMap fun a => [int a.category, int a.index], [int s0.alc.overflow]]) ∧
    status 14 0 (items [20 :: (List.range 20).map fun i => int (s0.alc.counts.get i)])

/-- START is refused in RUN, in HALT mode while a station is FAULTY, and from CONFIG when a table fails its checks, with
the first table and the lowest index charged, and then changes nothing (R199). The constraints are those of the station
table (R178), the MANAGER record (R199), the points (R26), the client entries (R41), the resource records (R11), the
channels (R122), the slots (R146) and the intercept entries (R168). That a constraint between two records is found at
the later of them is the model's choice (log 43). -/
def Obligations.StartTestsRefuse : Prop :=
  ∀ (m : ManageCtx) (s : State), FromManager m s →
    let s0 := arrive m.src s
    let faulty : Prop := ∃ i st, s0.station i = some st ∧ st.state = .faulty
    (s0.mgu.part = .run → exec (.start m) s = .next (replied m 4 .wrongState s0)) ∧
    (s0.mgu.part ≠ .run → s0.stm.returnMode = .halt → faulty →
      exec (.start m) s = .next (replied m 4 .wrongState s0)) ∧
    (s0.mgu.part = .config → ¬(s0.stm.returnMode = .halt ∧ faulty) → ∀ table index, TableBreaks s0 table index →
      (∀ n < index, ¬TableBreaks s0 table n) → (∀ u < table, ∀ n, ¬TableBreaks s0 u n) →
      exec (.start m) s = .next (replied m 4 (.invalidTables table index) s0))

/-- A START that passes its tests makes the part RUN, starts the pass timer with the pass period, makes every HELD
channel without a supervisor hold ACTIVE with its ramp timer running, leaves the others as they are, and keeps the
tables and the alerts; a suspended lease of a holder that stands or waits resumes from its remaining time (R49), and so
do a slot's suspended stop-delay timer and the watch of the step it stays in, while its anti-cycle timer runs on (R155);
its REPLY is DONE (R91, R136, R199). That the REPLY follows the frames of its effects is the model's reading (log 26),
and so is the test of the head of the probe queue after it (log 3). -/
def Obligations.StartEntersRun : Prop :=
  ∀ (m : ManageCtx) (s : State), FromManager m s →
    let s0 := arrive m.src s
    s0.stm.returnMode ≠ .halt ∨ (∀ i st, s0.station i = some st → st.state ≠ .faulty) →
    s0.mgu.part = .halted ∨ (s0.mgu.part = .config ∧ ∀ table n, ¬TableBreaks s0 table n) →
      ∃ t, exec (.start m) s = .next (testHead (replied m 4 .done t)) ∧ t.mgu = { s0.mgu with part := .run } ∧
        t.ale.passTimer = .running (s0.now + 100 * s0.ale.passPeriod) ∧ t.ale.passPeriod = s0.ale.passPeriod ∧
        (∀ n ch, s0.channel n = some ch → ∃ ch', t.channel n = some ch' ∧ ch'.hold = ch.hold ∧
          (ch.state = .held → ch.hold = false → ch'.state = .active ∧ ch'.current = ch.current ∧
            ch'.rampTimer = .running (s0.now + 100 * ch.rampInterval)) ∧
          (ch.state = .held → ch.hold = true → ch'.state = .held) ∧
          (ch.state = .faulted → ch'.state = .faulted ∧ ch'.cause = ch.cause)) ∧
        (StandingLaw s0 → ∀ r < 12, ∀ c < 3, ∀ left, (s0.holder r c).lease = .suspended left →
          (s0.holder r c).state ∈ [.waiting, .shared, .upgrading, .exclusive] →
          (t.holder r c).lease = .running (s0.now + left)) ∧
        (∀ k sl, s0.slot k = some sl →
          let resumed (x : Timer) : Timer := match x with
            | .suspended left => .running (s0.now + left)
            | y => y
          ∃ sl', t.slot k = some sl' ∧ sl'.stopDelayTimer = resumed sl.stopDelayTimer ∧
            (sl'.state = sl.state → sl'.watch = resumed sl.watch ∧ sl'.antiCycleTimer = sl.antiCycleTimer)) ∧
        t.stm = s0.stm ∧ t.pst = s0.pst ∧ t.cau = s0.cau ∧ t.fsu = s0.fsu ∧ t.alc.alerts = s0.alc.alerts

/-- RESTART and ENTER-CONFIG, in every part state: the part is CONFIG, every block has its RESTART values, the loaded
tables, the loop, the intercept table, the settings and the ALC are kept, and the only frame sent is REPLY DONE (R21,
R39, R61, R90, R117, R142, R158, R177, R188, R195, R202). -/
def Obligations.RestartTakesRestartValues : Prop :=
  ∀ (m : ManageCtx) (s : State), FromManager m s →
    let s0 := arrive m.src s
    ∀ x ∈ [(5, Instr.restart m), (6, Instr.enterConfig m)],
      ∃ t, exec x.2 s = .next (replied m x.1 .done t) ∧ t.sent = s0.sent ∧ t.lpu = s0.lpu ∧ t.fsu = s0.fsu ∧
        t.alc = s0.alc ∧ t.mgu = { s0.mgu with part := .config, held := none } ∧
        (t.stm.pollTimeout = s0.stm.pollTimeout ∧ t.stm.retryLimit = s0.stm.retryLimit ∧
          t.stm.returnMode = s0.stm.returnMode) ∧
        (∀ i st, i < 30 → s0.station i = some st → ∃ st', t.station i = some st' ∧ st'.state = .absent ∧
          st'.address = st.address ∧ st'.role = st.role ∧ st'.silenceLimit = st.silenceLimit ∧
          st'.pollTimer = .stopped ∧ st'.retryCount = st.retryCount ∧ st'.heard = false ∧
          (stationRecord st.address s0 = some i → st'.silenceTimer = .running (s0.now + 100 * st.silenceLimit))) ∧
        (∀ p < 48, t.point p =
          { s0.point p with quality := .none, accepted := none, candidate := none, staleTimer := .stopped }) ∧
        (∀ r < 12, t.resource r = { s0.resource r with probeCap := none } ∧ t.cau.reports.get r = {}) ∧
        (∀ c < 3, t.client c = { s0.client c with reservation := none, lapseAlert := false }) ∧ t.din.prf = [] ∧
        (∀ r < 12, ∀ c < 3, t.holder r c = {}) ∧ (∀ r, t.generation r = 0) ∧ (∀ r, t.isFrozen r = false) ∧
        (∀ k, t.record k = none) ∧ t.gtb.probes = [] ∧
        t.ale.passTimer = .stopped ∧ t.ale.pass = none ∧ t.ale.passPeriod = s0.ale.passPeriod ∧
        (∀ r < 12, t.ale.results.get r = {} ∧ t.chu.store.get r = {}) ∧
        (∀ n, t.channel n = (s0.channel n).map fun ch =>
          { ch with state := .held, hold := false, cause := none, current := none, target := 0, split := 0,
                    seqMin := 0, handshake := .clear, cmdSeq := 0, lastActual := none, rampTimer := .stopped,
                    ackTimer := .stopped, refreshTimer := .stopped }) ∧
        (∀ k, t.slot k = (s0.slot k).map fun sl =>
          { sl with state := .stopped, watch := .stopped, stopDelayTimer := .stopped, claimSum := 0,
                    antiCycleTimer :=
                      if sl.antiCycle = 0 then .stopped else .running (s0.now + 100 * (1000 * sl.antiCycle)) })

/-- HOLD-CHANNEL (R137): an ACTIVE channel becomes HELD with its timers stopped, and the supervisor hold mark is set on
any loaded channel; an unloaded or unknown one is BAD-INDEX. FREE-CHANNEL (R138): an ACTIVE channel is left as it is;
one whose station is FAULTY is refused; otherwise its hold mark and fault cause go, its current setting is UNKNOWN and
its handshake CLEAR, and it is ACTIVE in RUN and HELD otherwise. The test of the head of the probe queue after a change
is log 3's. -/
def Obligations.HoldAndFreeChannel : Prop :=
  ∀ (m : ManageCtx) (n : Nat) (s : State), FromManager m s →
    let s0 := arrive m.src s
    (s0.channel n = none → exec (.holdChannel m n) s = .next (replied m 7 .badIndex s0)) ∧
    (∀ ch, s0.channel n = some ch →
      exec (.holdChannel m n) s = .next (testHead (replied m 7 .done (s0.setChannel n (some
        (if ch.state = .active then
          { ch with state := .held, hold := true, rampTimer := .stopped, ackTimer := .stopped, refreshTimer := .stopped }
        else { ch with hold := true })))))) ∧
    (s0.channel n = none → exec (.freeChannel m n) s = .next (replied m 8 .badIndex s0)) ∧
    (∀ ch, s0.channel n = some ch →
      (ch.state = .active → exec (.freeChannel m n) s = .next (replied m 8 .done s0)) ∧
      (ch.state ≠ .active → stationFaulty ch.station s0 = true →
        exec (.freeChannel m n) s = .next (replied m 8 .wrongState s0)) ∧
      (ch.state ≠ .active → stationFaulty ch.station s0 = false → s0.mgu.part ≠ .run →
        exec (.freeChannel m n) s = .next (testHead (replied m 8 .done (s0.setChannel n (some
          { ch with state := .held, hold := false, cause := none, current := none, handshake := .clear,
                    rampTimer := .stopped, ackTimer := .stopped, refreshTimer := .stopped }))))) ∧
      (ch.state ≠ .active → stationFaulty ch.station s0 = false → s0.mgu.part = .run →
        ∃ ch', exec (.freeChannel m n) s = .next (testHead (replied m 8 .done (s0.setChannel n (some ch')))) ∧
          ch'.state = .active ∧ ch'.hold = false ∧ ch'.cause = none ∧ ch'.current = none ∧ ch'.handshake = .clear ∧
          ch'.rampTimer = .running (s0.now + 100 * ch.rampInterval) ∧ ch'.station = ch.station ∧
          (ch'.target = 0 ∨ ch.minRun ≤ ch'.target)))

/-- RETURN-STATION (R185): only a FAULTY station returns, to ONLINE with its silence timer started; its channels faulted
by it leave FAULTED (R139), and no point and no alert changes (R36). CLEAR-SEQUENCE (R154): a FAILED slot becomes
STOPPED and its anti-cycle timer starts (R153); any other loaded slot is refused, an unloaded or unknown one is
BAD-INDEX; no alert is removed. -/
def Obligations.StationReturnedSequenceCleared : Prop :=
  ∀ (m : ManageCtx) (a k : Nat) (s : State), FromManager m s →
    let s0 := arrive m.src s
    (stationRecord a s0 = none → exec (.returnStation m a) s = .next (replied m 9 .badIndex s0)) ∧
    (∀ i st, stationRecord a s0 = some i → s0.station i = some st →
      (st.state ≠ .faulty → exec (.returnStation m a) s = .next (replied m 9 .wrongState s0)) ∧
      (st.state = .faulty →
        ∃ t, exec (.returnStation m a) s = .next (replied m 9 .done t) ∧
          t.stm = { s0.stm with stations := s0.stm.stations.set i (some
            { st with state := .online, silenceTimer := .running (s0.now + 100 * st.silenceLimit),
                      pollTimer := .stopped, heard := false }) } ∧
          t.pst = s0.pst ∧ t.alc.alerts = s0.alc.alerts ∧ t.mgu = s0.mgu ∧
          (∀ n ch, s0.channel n = some ch → ch.station = a → ch.state = .faulted → ch.cause = some .station →
            ∃ ch', t.channel n = some ch' ∧ ch'.cause = none ∧ ch'.current = none ∧
              ch'.state = if s0.mgu.part = .run ∧ ch.hold = false then .active else .held))) ∧
    (s0.slot k = none → exec (.clearSequence m k) s = .next (replied m 10 .badIndex s0)) ∧
    (∀ sl, s0.slot k = some sl →
      (sl.state ≠ .failed → exec (.clearSequence m k) s = .next (replied m 10 .wrongState s0)) ∧
      (sl.state = .failed → exec (.clearSequence m k) s = .next (replied m 10 .done (s0.setSlot k (some
        { sl with state := .stopped, antiCycleTimer :=
            if sl.antiCycle = 0 then .stopped else .running (s0.now + 100 * (1000 * sl.antiCycle)) })))))

/-- CLEAR-ALERT and ACK-OLDEST (R191): the entry named, or the oldest, leaves and the others close up in their order,
with one ALERT frame of the new list (R192); an entry that is not there is WRONG-STATE, a number that is none is
BAD-INDEX; the overflow count stays. CLEAR-COUNTS sets all twenty counts and the overflow count to 0, with an ALERT
frame exactly when the overflow count was above 0 (R194); CLEAR-LOOP makes the wrap addresses and round-trip statistics
absent (R174). That the REPLY follows the ALERT frame is the model's (log 26). -/
def Obligations.AlertsCountsAndLoopCleared : Prop :=
  ∀ (m : ManageCtx) (cat idx : Nat) (s : State), FromManager m s →
    let s0 := arrive m.src s
    let changed (l : List AlertNo) : State :=
      { s0 with alc.alerts := l, sent := s0.sent ++ [⟨originRing s0.lpu.loop, 31, .alert l s0.alc.overflow⟩] }
    let isNumber : Prop := (cat = 1 ∧ idx ≤ 5) ∨ (cat = 2 ∧ 1 ≤ idx ∧ idx ≤ 30) ∨ (cat = 3 ∧ idx ≤ 47) ∨
      (cat = 4 ∧ idx ≤ 15) ∨ (cat = 5 ∧ idx ≤ 3) ∨ (cat = 6 ∧ idx ≤ 11) ∨ (cat = 7 ∧ idx ≤ 2) ∨ (cat = 8 ∧ idx = 0)
    (isNumber → ⟨cat, idx⟩ ∈ s0.alc.alerts → exec (.clearAlert m cat idx) s =
      .next (replied m 11 .done (changed (s0.alc.alerts.filter (· ≠ ⟨cat, idx⟩))))) ∧
    (isNumber → ⟨cat, idx⟩ ∉ s0.alc.alerts →
      exec (.clearAlert m cat idx) s = .next (replied m 11 .wrongState s0)) ∧
    (¬isNumber → exec (.clearAlert m cat idx) s = .next (replied m 11 .badIndex s0)) ∧
    (s0.alc.alerts = [] → exec (.ackOldest m) s = .next (replied m 12 .wrongState s0)) ∧
    (∀ a rest, s0.alc.alerts = a :: rest → exec (.ackOldest m) s = .next (replied m 12 .done (changed rest))) ∧
    exec (.clearCounts m) s = .next (replied m 13 .done
      { s0 with
        alc := { alerts := s0.alc.alerts, overflow := 0, counts := Table.all 20 0 }
        sent := s0.sent ++
          (if 0 < s0.alc.overflow then [⟨originRing s0.lpu.loop, 31, .alert s0.alc.alerts 0⟩] else []) }) ∧
    exec (.clearLoop m) s = .next (replied m 14 .done
      { s0 with lpu := { s0.lpu with
          forwardWrap := none, reverseWrap := none, presentTrip := none, minTrip := none, maxTrip := none,
          lastHops := none } })

/-- A PROBE operation is checked in the order of R83 and answered at the first check it fails; one that passes them all
joins the tail of the queue unanswered, and the head of the queue is tested (R84). BAD_OPERATION is answered BAD-VALUE
and changes nothing (R196). -/
def Obligations.ProbesQueuedOrRefused : Prop :=
  ∀ (m : ManageCtx) (kind r c q : Nat) (s : State), FromManager m s →
    let s0 := arrive m.src s
    let i : Instr := .probe m kind r c q
    exec (.badOperation m kind) s = .next (replied m kind .badValue s0) ∧
    exec i s = .next
      (if s0.mgu.part = .config then replied m 15 .wrongState s0
      else if kind = 0 ∨ 7 < kind then replied m 15 .badValue s0
      else if 11 < r ∨ (kind = 1 ∧ 2 < c) then replied m 15 .badIndex s0
      else if ¬((s0.resource r).kind = .plain ∨ (s0.resource r).kind = .child ∨
          ((s0.resource r).kind = .parent ∧ (kind = 6 ∨ kind = 7))) then replied m 15 .badIndex s0
      else if kind = 6 ∧ 10000 < q then replied m 15 .badValue s0
      else if 4 ≤ s0.gtb.probes.length then replied m 15 .busy s0
      else testHead { s0 with gtb.probes := s0.gtb.probes ++
              [{ kind := (probeKind kind).getD .evict, resource := r, client := c, quantity := q, seq := m.seq }] })

/-- The test of the head of the probe queue, at the end of every event that can end its stall (R80, R84; log 3). A probe
can execute exactly when no live record of its resource has its notice mark set and as many records are free as it
needs: one for the EVICT of a standing holder, the number of standing holders for EVICT-ALL, none otherwise. While it
cannot, nothing happens; when it can, it executes, and the new head is tested at once, until a head stalls or the queue
is empty. Nothing changes but what probes change. -/
def Obligations.HeadOfProbeQueueTested : Prop :=
  ∀ s : State, HeadLaw (testHead s) ∧ (HeadLaw s → testHead s = s) ∧
    (∀ p rest, s.gtb.probes = p :: rest →
      let standing (c : Nat) : Bool := decide ((s.holder p.resource c).state ∈ [.shared, .upgrading, .exclusive])
      let needed : Nat := match p.kind with
        | .evict => if standing p.client then 1 else 0
        | .evictAll => ([0, 1, 2].filter standing).length
        | _ => 0
      (probeReady s p = true ↔
        (∀ k v, s.record k = some v → v.resource = p.resource → v.notice = false) ∧ needed ≤ (freeList s).length) ∧
      (probeReady s p = true → testHead s = testHead (runHead p rest s))) ∧
    (testHead s).gtb.probes <:+ s.gtb.probes ∧
    (∀ r, { (testHead s).resource r with probeCap := none } = { s.resource r with probeCap := none }) ∧
    (∃ frames, (testHead s).sent = s.sent ++ frames) ∧
    { testHead s with
      cau.resources := s.cau.resources, din.prf := s.din.prf, gtb := s.gtb, ale.pass := s.ale.pass,
      alc.counts := s.alc.counts, sent := s.sent } = s

/-- What the head of the probe queue does when it executes, here by the command of its kind (R84 to R87). It leaves the
queue and is answered DONE with its own sequence, and the new head is tested. FREEZE, THAW, CAP and UNCAP change the
frozen mark or the probe cap and nothing else. EVICT and EVICT-ALL revoke the standing holders they name, in ascending
client number, each with its record of cause PROBE, its REVOKED notice and its PRF entry gone (HoldersRevoked; R76,
R77), and EVICT-ALL cancels a WAITING holder, which is NONE without its PRF entry and is sent DENIED(EVICTED); DEMOTE
makes an EXCLUSIVE holder SHARED with its parameters, lease and g, and sends GRANTED(SHARED, g). The generation moves by
1 for each holder changed, and nothing moves where none is; every other resource's holders and generation stay. With a
notice mark of its resource set, with too few free records, or with another kind at the head, nothing happens. That the
execution has commands of its own is the model's (log 3), and so is its REPLY after the NOTICE frames (log 26). -/
def Obligations.ProbesExecute : Prop :=
  ∀ (p : Probe) (rest : List Probe) (s : State), s.gtb.probes = p :: rest →
    let s0 := { s with gtb.probes := rest }
    let finished (t : State) : State := testHead
      { t with sent := t.sent ++
          [⟨originRing s.lpu.loop, s.mgu.manager, .reply p.seq { op := 15, status := .done }⟩] }
    let marked : Prop := ∃ k v, s.record k = some v ∧ v.resource = p.resource ∧ v.notice = true
    let standing (c : Nat) : Prop := (s.holder p.resource c).state ∈ [.shared, .upgrading, .exclusive]
    (∀ x ∈ [(ProbeKind.freeze, Instr.freeze), (.thaw, .thaw), (.cap, .cap), (.uncap, .uncap), (.evict, .evict),
        (.evictAll, .evictAll), (.demote, .demote)],
      (p.kind ≠ x.1 ∨ marked ∨ freeRecords s < revocationsNeeded s p → exec x.2 s = .next s)) ∧
    (¬marked →
      (p.kind = .freeze → exec .freeze s = .next (finished { s0 with gtb.frozen := s.gtb.frozen.set p.resource true })) ∧
      (p.kind = .thaw → exec .thaw s = .next (finished { s0 with gtb.frozen := s.gtb.frozen.set p.resource false })) ∧
      (p.kind = .cap → exec .cap s = .next (finished (s0.setResource p.resource
        { s.resource p.resource with probeCap := some p.quantity }))) ∧
      (p.kind = .uncap → exec .uncap s = .next (finished (s0.setResource p.resource
        { s.resource p.resource with probeCap := none })))) ∧
    let changed (c : Nat) : Bool := decide ((s.holder p.resource c).state ∈ [.waiting, .shared, .upgrading, .exclusive])
    let revoked : List Nat := [0, 1, 2].filter fun c =>
      decide ((s.holder p.resource c).state ∈ [.shared, .upgrading, .exclusive])
    let demoted : List Nat := [0, 1, 2].filter fun c => decide ((s.holder p.resource c).state = .exclusive)
    let moved (t : State) (n : Nat) : Prop :=
      t.generation p.resource = if n = 0 then s.generation p.resource else (s.generation p.resource + n) % 256
    (¬marked → revocationsNeeded s p ≤ freeRecords s → p.resource < 12 →
      ∀ x ∈ [(ProbeKind.evict, Instr.evict), (.evictAll, .evictAll), (.demote, .demote)], p.kind = x.1 →
        ∃ t, exec x.2 s = .next (finished t) ∧ t.gtb.probes = rest ∧ t.cau = s.cau ∧ t.gtb.frozen = s.gtb.frozen ∧
          (∀ r c, r ≠ p.resource → t.holder r c = s.holder r c ∧ t.generation r = s.generation r) ∧
          (x.1 = .evict → p.client < 3 →
            (standing p.client → HoldersRevoked .probe p.resource [p.client] s t ∧
              t.din.prf = s.din.prf.filter (fun y => !(y.resource == p.resource && y.client == p.client)) ∧
              moved t 1 ∧ t.sent = s.sent ++ revokedFrames s .probe p.resource p.client) ∧
            (¬standing p.client → t = s0) ∧
            ∀ c, c < 3 → c ≠ p.client → t.holder p.resource c = s.holder p.resource c) ∧
          (x.1 = .evictAll → HoldersRevoked .probe p.resource revoked s t ∧
            (∀ c < 3, ((s.holder p.resource c).state = .waiting → t.holder p.resource c = {}) ∧
              ((s.holder p.resource c).state ∈ [.none, .yielding] → t.holder p.resource c = s.holder p.resource c)) ∧
            t.din.prf = s.din.prf.filter
              (fun y => !(y.resource == p.resource && decide (y.client < 3) && changed y.client)) ∧
            moved t ([0, 1, 2].filter changed).length ∧
            t.sent = s.sent ++ [0, 1, 2].flatMap fun c =>
              if (s.holder p.resource c).state = .waiting then noticeTo s c [⟨p.resource, .denied .evicted⟩]
              else if revoked.contains c then revokedFrames s .probe p.resource c else []) ∧
          (x.1 = .demote → t.gtb.records = s.gtb.records ∧ t.din.prf = s.din.prf ∧ t.ale = s.ale ∧ t.alc = s.alc ∧
            moved t demoted.length ∧
            (t.sent = s.sent ++ demoted.flatMap fun c =>
              noticeTo s c [⟨p.resource, .granted (some .shared) (s.holder p.resource c).g⟩]) ∧
            ∀ c < 3, t.holder p.resource c =
              if (s.holder p.resource c).state = .exclusive then
                { s.holder p.resource c with state := .shared, target := none } else s.holder p.resource c))

/-! ## Timers and passes -/

/-- A point's stale timer expiry makes the point SUBSTITUTED when it has a substitute and STALE with alert POINT when it
has none; the candidate goes, the accepted value stays (R33). A timer that does not run does not expire. The move of the
clock to the deadline is the model's (log 1, log 23). -/
def Obligations.StaleTimerEndsStanding : Prop :=
  ∀ (p d : Nat) (s : State), p < 48 →
    ((∀ d, (s.point p).staleTimer ≠ .running d) → exec (.staleTimerExpiry p) s = .next s) ∧
    ((s.point p).staleTimer = .running d →
      ∃ t, exec (.staleTimerExpiry p) s = .next t ∧ t.now = max s.now d ∧
        t.point p = { s.point p with candidate := none, staleTimer := .stopped,
                                     quality := if (s.point p).substitute.isSome then .substituted else .stale } ∧
        (∀ p', p' ≠ p → t.point p' = s.point p') ∧
        t.alc.alerts = (if (s.point p).substitute.isSome then s.alc.alerts
          else raisedList ⟨3, p⟩ s.alc.alerts) ∧
        { t with pst := s.pst, alc := s.alc, sent := s.sent, now := s.now } = s)

/-- A lease expiry lapses the holder (R50, R51): WAITING, and any standing under RELEASE, ends in NONE without its PRF
entry; under FALLBACK the standing keeps its state with the fallback quantity, floor 0 and the lapsed mark; LEASE_LAPSES
is counted, the client is sent LAPSED, and alert LEASE is raised when the client's lapse-alert mark is set, which
clears. That the LAPSED notice goes before the ALERT frame is the model's order (log 26). The move of the clock to the
deadline is the model's (log 1, log 23), and the test of the head of the probe queue at the end log 3's. -/
def Obligations.LeaseExpiryLapses : Prop :=
  ∀ (r c d : Nat) (e : ClientEntry) (s : State), r < 12 → c < 3 → (s.client c).entry = some e →
    let h := s.holder r c
    ((∀ d, h.lease ≠ .running d) → exec (.leaseExpiry r c) s = .next s) ∧
    (h.lease = .running d → h.lapsed = false → h.state ∈ [.waiting, .shared, .upgrading, .exclusive] →
      ∃ t, exec (.leaseExpiry r c) s = .next (testHead t) ∧ t.now = max s.now d ∧
        (h.state = .waiting ∨ e.policy = .release → t.holder r c = {} ∧
          t.generation r = (s.generation r + 1) % 256 ∧
          t.din.prf = s.din.prf.filter fun x => !(x.client == c && x.resource == r)) ∧
        (h.state ≠ .waiting → e.policy = .fallback →
          t.holder r c = { h with q := h.fallback.getD 0, f := 0, lapsed := true, lease := .stopped } ∧
          t.generation r = s.generation r ∧ t.din.prf = s.din.prf) ∧
        (∀ r' c', (r', c') ≠ (r, c) → t.holder r' c' = s.holder r' c') ∧
        t.count .leaseLapses = raised (s.count .leaseLapses) ∧ t.gtb.records = s.gtb.records ∧
        t.gtb.probes = s.gtb.probes ∧ t.cau = s.cau ∧
        (t.client c).lapseAlert = false ∧
        (let lapsed : Notice := ⟨r, .lapsed (decide (h.state ≠ .waiting ∧ e.policy = .fallback))⟩
         let told : State := { s with sent := s.sent ++ noticeTo s c [lapsed] }
         t.sent = (if (s.client c).lapseAlert then raiseAlert .lease c told else told).sent) ∧
        t.alc.alerts = (if (s.client c).lapseAlert then raisedList ⟨7, c⟩ s.alc.alerts else s.alc.alerts))

/-- A yield timer expiry raises YIELD-OVERDUE for the resource and clears the record's notice mark; with the ramp mark
CLEAR the record frees, its holder is NONE, the PRF entry of the resource completes when no other record names it
(RecordFreed; R57), and the head of the probe queue is tested (R79, R80). That the ALERT frame goes before the notice of
that entry is the model's order (log 26). The move of the clock to the deadline is the model's (log 1, log 23), and the
moment of the test log 3's. -/
def Obligations.YieldTimerClearsNotice : Prop :=
  ∀ (k d : Nat) (v : Revocation) (s : State), s.record k = some v → v.resource < 12 → v.client < 3 →
    ((∀ d, v.timer ≠ .running d) → exec (.yieldTimerExpiry k) s = .next s) ∧
    (v.timer = .running d → v.notice = true →
      ∃ t, exec (.yieldTimerExpiry k) s = .next (testHead t) ∧ t.now = max s.now d ∧
        t.alc.alerts = raisedList ⟨6, v.resource⟩ s.alc.alerts ∧ (∀ j, j ≠ k → t.record j = s.record j) ∧
        let alarmed := raiseAlert .yieldOverdue v.resource { s with now := max s.now d }
        (v.ramp ≠ .clear → t = alarmed.setRecord k (some { v with notice := false, timer := .stopped })) ∧
        (v.ramp = .clear → StandingLaw s → RecordFreed k v alarmed t))

/-- A pass start in RUN (R91, R92, R94, R95, R12): the timer restarts with the pass period, every used record has the
report of its evaluation at that moment (R13 to R20, an UNUSED one keeps its own), and the pass latches each record's
kind, parent, draw and effective capacity and each holder's claim, no claim departed. The move of the clock to the
deadline is the model's (log 1, log 23), that the capacity is evaluated before the slots act is its reading (log 10),
that a pass in progress gives way log 45's, and the test of the head of the probe queue at the end log 3's. -/
def Obligations.PassStartLatches : Prop :=
  ∀ (d : Nat) (s : State),
    ((s.mgu.part ≠ .run ∨ ∀ d, s.ale.passTimer ≠ .running d) → exec .passStart s = .next s) ∧
    (s.mgu.part = .run → s.ale.passTimer = .running d →
      ∃ t l, exec .passStart s = .next (testHead t) ∧ t.now = max s.now d ∧ t.ale.pass = some l ∧
        t.ale.passTimer = .running (max s.now d + 100 * s.ale.passPeriod) ∧ t.ale.results = s.ale.results ∧
        t.chu.store = s.chu.store ∧ t.alc.alerts = s.alc.alerts ∧ t.cau.resources = s.cau.resources ∧
        t.pst = s.pst ∧ t.stm = s.stm ∧
        (∀ r < 12, let x := s.resource r
          (l.get r).kind = x.kind ∧ (l.get r).parent = x.parent ∧ (l.get r).draw = x.draw.getD 100 ∧
          (x.kind = .unused → t.cau.reports.get r = s.cau.reports.get r) ∧
          (x.kind ≠ .unused → t.cau.reports.get r = evaluate s x ∧ (l.get r).capacity = (evaluate s x).effective)) ∧
        (∀ r < 12, ∀ c < 3, ((l.get r).claim c).map (fun x => (x.level, x.q, x.f, x.cls, x.weight)) =
          (let h := s.holder r c
          match h.state with
          | .shared | .upgrading => some (.shared, h.q, h.f, h.cls, h.weight)
          | .exclusive => some (.exclusive, h.q, h.f, h.cls, h.weight)
          | _ => none)) ∧
        (StandingLaw s → ∀ r < 12, ∀ c < 3, ∀ x, (l.get r).claim c = some x → x.departed = false))

/-- What the slots do at a pass start (R97, R147, R148): after the latching each loaded slot, in ascending number, takes
its claim sum, the quantities requested by the standing claims of its resource, or of the children of a PARENT. At a
claim sum above 0 a STOPPED slot whose anti-cycle timer does not run enters its first step, where it stays, with its
minimum placed and its watch running, while that step's channel is not Settled, and a STARTING or RUNNING slot stops its
stop-delay timer; at 0 a STARTING or RUNNING slot starts a stop-delay timer that is stopped, or begins to stop at once
with a delay of 0, as R151 says (StopBegins); in any other case the slot takes the sum alone. That the slots act after
the latching is the model's choice (log 10), that a pass in progress gives way log 45's, the clock's move to the
deadline log 1's, and the test of the head of the probe queue at the end log 3's. -/
def Obligations.SlotsActAtPassStart : Prop :=
  ∀ (d k : Nat) (sl : Slot) (s : State), s.slot k = some sl →
    let requested (r : Nat) : Nat := ([0, 1, 2].map fun c =>
      if (s.holder r c).state ∈ [.shared, .upgrading, .exclusive] then (s.holder r c).q else 0).sum
    let sum : Nat := match (s.resource sl.resource).kind with
      | .plain | .child => requested sl.resource
      | .parent => ((List.range 12).map fun r =>
          if (s.resource r).kind = .child ∧ (s.resource r).parent = some sl.resource then requested r else 0).sum
      | .unused => 0
    (s.mgu.part = .run → s.ale.passTimer = .running d → sl.resource < 12 →
      ∃ l u, exec .passStart s = .next (testHead (forEach [0, 1, 2, 3] (fun j x => match x.slot j with
          | some y => slotPassStart j (claimSum l y.resource) x
          | none => x) u)) ∧
        u.slot = s.slot ∧ u.channel = s.channel ∧ u.now = max s.now d ∧ u.cau.resources = s.cau.resources ∧
        u.ale.pass = some l ∧ claimSum l sl.resource = sum) ∧
    (∀ n : Nat,
      let given := { sl with claimSum := n }
      let stays (x : Slot) : Prop := slotPassStart k n s = s.setSlot k (some x)
      (sl.state = .stopped → n = 0 ∨ sl.antiCycleTimer.isRunning = true → stays given) ∧
      (∀ st rest, sl.state = .stopped → 0 < n → sl.antiCycleTimer.isRunning = false → sl.steps = st :: rest →
        let entered := { given with state := .starting 1, watch := .running (s.now + 100 * (1000 * st.limit)) }
        let placed := refreshMinimum st.channel (s.setSlot k (some entered))
        placed.slot k = some entered ∧
          (∀ ch, s.channel st.channel = some ch → ∃ ch', placed.channel st.channel = some ch' ∧ st.run ≤ ch'.seqMin) ∧
          (settled placed st.channel = false → slotPassStart k n s = placed)) ∧
      ((∃ i, sl.state = .starting i) ∨ sl.state = .running →
        (0 < n → stays { given with stopDelayTimer := .stopped }) ∧
        (n = 0 → sl.stopDelayTimer ≠ .stopped → stays given) ∧
        (n = 0 → sl.stopDelayTimer = .stopped → 0 < sl.stopDelay →
          stays { given with stopDelayTimer := .running (s.now + 100 * (1000 * sl.stopDelay)) }) ∧
        (n = 0 → sl.stopDelayTimer = .stopped → sl.stopDelay = 0 →
          StopBegins k given (s.setSlot k (some given)) (slotPassStart k n s))) ∧
      ((∃ i, sl.state = .stopping i) ∨ sl.state = .failed → stays given))

/-- The effective capacity of a used record (R13 to R19): the base, by the curve at a usable input point or the blind
capacity, derated by the lowest derate of a lost channel, then limited by the limit point, the probe cap and the gate,
and held to 10000. -/
def Obligations.CapacityEvaluated : Prop :=
  ∀ (s : State) (x : Resource),
    let base := match x.input.bind (usableValue s) with
      | some v => interpolate x.curve v
      | none => x.blind.getD 0
    let availability := (x.bindings.filter fun b => lost s b.channel).foldl (fun a b => min a (base * b.loss / 100)) base
    let limited := match x.limitPoint with
      | none => availability
      | some p => match usableValue s p with
        | some v => min availability (max 0 (min v 10000)).toNat
        | none => 0
    let capped := match x.probeCap with
      | none => limited
      | some c => min limited c
    (∀ b ∈ x.bindings, b.loss ≤ 100) →
      (evaluate s x).base = base ∧ (evaluate s x).availability = availability ∧
        (evaluate s x).effective = min (if gateOpen s x.slot then capped else 0) 10000

/-- A pass completion (R109, R110, R111, R113): the grant computed for a claim that has not departed is written to its
holder, the results store takes the results of every used record, PASSES, PARENT_CUTS and FLOOR_DROPS are counted and
the pass ends (ResourceDivided and ParentCutScalesLeastUrgent have what is computed). Each client whose written grants
changed is sent one NOTICE with a GRANTED notice for each such resource, rising, with the present level, unless its
station is FAULTY (R112). A ramp mark in PASS that saw a pass start goes to CLEAR when every bound channel is Settled,
FAULTED or IDLE after the CHU has taken the results, the record freeing if its notice mark is clear, and to SETTLE
otherwise, from where a report of the same event may clear it (R78, R80). A PRF entry whose last record frees completes:
its holder has its target level, the entry is gone and its client is sent GRANTED with quantity 0 (R57). That the
grants' NOTICE frames go before the event's other frames is the model's order (log 11), and the test of the head of the
probe queue at the end log 3's. That a PASS_COMPLETION without a pass changes nothing is the model's (log 23). -/
def Obligations.PassCompletionWritesGrants : Prop :=
  ∀ s : State, (s.ale.pass = none → exec .passCompletion s = .next s) ∧
    (∀ l, s.ale.pass = some l → GrantLaw s → StandingLaw s →
      let written (r c : Nat) : Option Nat := match (l.get r).claim c with
        | some x => if x.departed then none else some (((computePass l).grants.get r).g c)
        | none => none
      let notices (c : Nat) : List Notice := (List.range 12).filterMap fun r => (written r c).bind fun g =>
        if g = (s.holder r c).g then none
        else some ⟨r, .granted (match (s.holder r c).state with
          | .shared | .upgrading => some .shared
          | .exclusive => some .exclusive
          | _ => none) g⟩
      let frames : List TxFrame := [0, 1, 2].filterMap fun c => (s.client c).entry.bind fun e =>
        if notices c = [] ∨ stationFaulty e.station s = true then none
        else some ⟨originRing s.lpu.loop, e.station, .notice 0 true (notices c)⟩
      let handed := chuTakeResults l (computePass l) s
      let atRest (r : Nat) : Prop :=
        ∀ b ∈ (s.resource r).bindings, settled handed b.channel = true ∨ lost handed b.channel = true
      let noStep : Prop := ∀ j sl, s.slot j = some sl → (∀ i, sl.state ≠ .starting i) ∧ ∀ i, sl.state ≠ .stopping i
      ∃ t, exec .passCompletion s = .next (testHead t) ∧ t.ale.pass = none ∧ t.ale.passTimer = s.ale.passTimer ∧
        t.count .passes = raised (s.count .passes) ∧
        t.count .parentCuts = (if (computePass l).anyCut then raised (s.count .parentCuts) else s.count .parentCuts) ∧
        t.count .floorDrops = min 65535 (s.count .floorDrops + (computePass l).drops) ∧
        t.cau = s.cau ∧ t.stm = s.stm ∧ t.alc.alerts = s.alc.alerts ∧
        (∀ r < 12, ∀ c < 3, ∀ x, (l.get r).claim c = some x → x.departed = false →
          (t.holder r c).g = ((computePass l).grants.get r).g c) ∧
        (∀ r < 12, ∀ c < 3, (l.get r).claim c = none → (s.holder r c).g = 0 → (t.holder r c).g = 0) ∧
        (∀ r < 12, t.chu.store.get r =
          if (l.get r).kind = .unused then s.chu.store.get r else handedResult l (computePass l) r) ∧
        (∃ later, t.sent = s.sent ++ frames ++ later) ∧
        (∀ k v, s.record k = some v → v.ramp = .pass →
          let freed : Prop := v.notice = false ∧ t.record k = none ∧ t.holder v.resource v.client = {}
          let cleared : Prop := v.notice = true ∧ t.record k = some { v with ramp := .clear }
          let settling : Prop := t.record k = some { v with ramp := .settle }
          (v.passSeen = false → t.record k = some v) ∧
          (v.passSeen = true → atRest v.resource → cleared ∨ freed) ∧
          (v.passSeen = true → ¬atRest v.resource → (noStep → settling) ∧ (settling ∨ cleared ∨ freed))) ∧
        (∀ e ∈ s.din.prf, RecordNames s e.resource →
          (RecordNames t e.resource → e ∈ t.din.prf) ∧
          (¬RecordNames t e.resource →
            let h := s.holder e.resource e.client
            let level : Level := if h.state = .waiting then e.target else .exclusive
            e ∉ t.din.prf ∧
              { t.holder e.resource e.client with g := h.g } =
                { h with state := (match level with | .shared => .shared | .exclusive => .exclusive), target := none } ∧
              ∀ f ∈ noticeTo s e.client [⟨e.resource, .granted (some level) 0⟩], f ∈ t.sent)))

/-- The timers of an ACTIVE channel (R129, R130, R132, R133): a ramp step moves the current setting as R129 says and
sends it when the handshake is CLEAR and it has changed; an ack timeout re-sends the outstanding COMMAND with one more
retry, or faults the channel at the third with alert CHANNEL; a refresh sends the current setting again when the
handshake is CLEAR, and otherwise only restarts its timer. Each COMMAND is one frame, counted, with the ack and refresh
timers started (R134 in DOWN). A faulting timeout sends beside the ALERT frame only GRANTED notices of completed PRF
entries. The move of the clock to the deadline is the model's (log 1), that the three commands change nothing on a
channel that is not ACTIVE log 23's, that the ALERT frame goes before the notices log 26's, and the test of the head of
the probe queue log 3's. -/
def Obligations.ChannelTimersAct : Prop :=
  ∀ (n d : Nat) (ch : Channel) (s : State), n < 16 → s.channel n = some ch →
    let s1 := { s with now := max s.now d }
    (ch.state ≠ .active → ∀ i ∈ [Instr.rampExpiry n, .ackTimeout n, .refreshTimerExpiry n], exec i s = .next s) ∧
    (ch.state = .active → ch.rampTimer = .running d →
      let m := ch.minRun
      let new : Nat := match ch.current with
        | none => ch.target
        | some c =>
          if c = ch.target then c
          else if c < ch.target then max (min (c + ch.slew) ch.target) m
          else if max (c - ch.slew) ch.target < m then 0 else max (c - ch.slew) ch.target
      let stepped := { ch with current := some new, rampTimer := .running (s1.now + 100 * ch.rampInterval) }
      exec (.rampExpiry n) s = .next (testHead
        (if ch.handshake = .clear ∧ ch.current ≠ some new then commandedNew n stepped new s1
        else s1.setChannel n (some stepped)))) ∧
    (∀ q v k, ch.state = .active → ch.ackTimer = .running d → ch.handshake = .awaiting q v k →
      let counted := { s1 with alc.counts := s.alc.counts.set 16 (raised (s.alc.counts.get 16)) }
      (k < 2 → exec (.ackTimeout n) s = .next (testHead (commanded n ch q v (k + 1)
        (if s.lpu.loop = .down then .suspended (100 * ch.ackLimit) else .running (s1.now + 100 * ch.ackLimit))
        counted))) ∧
      (2 ≤ k → ∃ t ch', exec (.ackTimeout n) s = .next (testHead t) ∧ t.channel n = some ch' ∧
        ch'.current = ch.current ∧ ch'.state = .faulted ∧ ch'.cause = some .ackTimeout ∧ ch'.handshake = .clear ∧
        ch'.rampTimer = .stopped ∧ ch'.ackTimer = .stopped ∧ ch'.refreshTimer = .stopped ∧ t.now = s1.now ∧
        t.alc = (raiseAlert .channel n counted).alc ∧ t.alc.alerts = raisedList ⟨4, n⟩ s.alc.alerts ∧
        ∃ notices, OnlyCompletions s notices ∧ t.sent = (raiseAlert .channel n counted).sent ++ notices)) ∧
    (ch.state = .active → ch.refreshTimer = .running d →
      let refreshed := { ch with
        refreshTimer := if ch.refreshPeriod = 0 then .stopped else .running (s1.now + 100 * ch.refreshPeriod) }
      (∀ c, ch.handshake = .clear → ch.current = some c →
        exec (.refreshTimerExpiry n) s = .next (testHead (commandedNew n ch c s1))) ∧
      (ch.handshake ≠ .clear ∨ ch.current = none →
        exec (.refreshTimerExpiry n) s = .next (testHead (s1.setChannel n (some refreshed)))))

/-- A derivation of a target (R127): the larger of the binding target and the sequence minimum, and with a minimum-run
setting m a target below m becomes m on a channel at m or above and 0 otherwise, so that a target is 0 or at least m. -/
def Obligations.TargetDerived : Prop :=
  ∀ (s : State) (n : Nat) (ch : Channel),
    let t := max (if (splitOf s n).isSome then splitPosition s n ch else levelTarget s n) ch.seqMin
    ((ch.derive s n).target = 0 ∨ ch.minRun ≤ (ch.derive s n).target) ∧
      (t = 0 ∨ ch.minRun ≤ t → (ch.derive s n).target = t) ∧
      (0 < t → t < ch.minRun →
        (ch.derive s n).target = if ∃ c, ch.current = some c ∧ ch.minRun ≤ c then ch.minRun else 0) ∧
      (splitOf s n = none → (ch.derive s n).split = ch.split)

/-- The timers of a slot: a watch expiry makes it FAILED with alert SEQUENCE and stops its watch and stop-delay timers,
and every minimum that its state had placed is removed, its channel's target derived afresh (R144, R149, R152); where no
other slot is in a step that is all the channels see of it, and beside the ALERT frame only GRANTED notices of completed
PRF entries are sent, after it (order: log 29); a stop-delay expiry stops the timer and begins the stop as R151 says,
from RUNNING at its last step, from STARTING at the step before or in STOPPED (StopBegins), and leaves a slot in any
other state as it is; an anti-cycle expiry only stops the timer (R153). The move of the clock to the deadline is the
model's (log 1, log 23), and the test of the head of the probe queue log 3's. -/
def Obligations.SlotTimersAct : Prop :=
  ∀ (k d : Nat) (sl : Slot) (s : State), k < 4 → s.slot k = some sl →
    ((∀ d, sl.watch ≠ .running d) → exec (.watchExpiry k) s = .next s) ∧
    (sl.watch = .running d →
      let stopped : Slot := { sl with state := .failed, watch := .stopped, stopDelayTimer := .stopped }
      let failed := ({ s with now := max s.now d } : State).setSlot k (some stopped)
      let placed : List Step := match sl.state with
        | .starting i => sl.steps.take i
        | .running => sl.steps
        | .stopping i => sl.steps.take (i - 1)
        | _ => []
      let noStep : Prop := ∀ j x, j ≠ k → s.slot j = some x → (∀ i, x.state ≠ .starting i) ∧ ∀ i, x.state ≠ .stopping i
      ∃ t, exec (.watchExpiry k) s = .next (testHead t) ∧ t.now = max s.now d ∧ t.slot k = some stopped ∧
        t.alc = (raiseAlert .sequence k s).alc ∧ t.alc.alerts = raisedList ⟨5, k⟩ s.alc.alerts ∧
        (∃ notices, OnlyCompletions s notices ∧ t.sent = (raiseAlert .sequence k s).sent ++ notices) ∧
        (∀ st ∈ placed, ∀ ch, s.channel st.channel = some ch →
          (∀ j x, j ≠ k → s.slot j = some x → ∀ y ∈ x.steps, y.channel ≠ st.channel) →
          ∃ ch', t.channel st.channel = some ch' ∧ ch'.seqMin = 0) ∧
        (noStep → ∀ n, t.channel n =
          if ∃ st ∈ placed, st.channel = n then (refreshMinimum n failed).channel n else s.channel n)) ∧
    ((∀ d, sl.stopDelayTimer ≠ .running d) → exec (.stopDelayExpiry k) s = .next s) ∧
    (sl.stopDelayTimer = .running d →
      let stopped := { sl with stopDelayTimer := .stopped }
      ∃ t, exec (.stopDelayExpiry k) s = .next (testHead t) ∧ t.now = max s.now d ∧ t.alc.alerts = s.alc.alerts ∧
        StopBegins k stopped (({ s with now := max s.now d } : State).setSlot k (some stopped)) t) ∧
    ((∀ d, sl.antiCycleTimer ≠ .running d) → exec (.antiCycleExpiry k) s = .next s) ∧
    (sl.antiCycleTimer = .running d →
      exec (.antiCycleExpiry k) s =
        .next (({ s with now := max s.now d } : State).setSlot k (some { sl with antiCycleTimer := .stopped })))

/-- The timers of a station (R181, R182, R183): a silence expiry polls it, or declares it FAULTY with a retry limit of
0; a poll timeout polls again below the limit and declares it FAULTY at it. A declaration raises alert STATION, leaves
no point of the station FRESH, HELD or NONE, and faults every channel of it (R35, R139). For a client's station every
lease of the client lapses as at an expiry, counted in LEASE_LAPSES, to NONE or to the fallback, its reservation goes,
and with a lapse its lapse-alert mark (R50, R51, R53); and the notice marks of its revocation records clear, a record
whose ramp mark is CLEAR freeing (R79, R80). In HALT mode a declaration in RUN makes the part HALTED with alert HALT:
the pass is abandoned, the pass timer stopped and no channel ACTIVE, and the running leases of the other clients'
holders and the watch and stop-delay timers of the slots are suspended with their remaining time, the anti-cycle timers
running on (R49, R155, R198). A WAITING holder may get its level first, when a channel that faults ends the last ramp it
waits for. The move of the clock to the deadline is the model's (log 1, log 23), and the order of the consequences (log
9), and the test of the head of the probe queue at the end (log 3). -/
def Obligations.StationTimersAct : Prop :=
  ∀ (i d n : Nat) (st : Station) (s : State), i < 30 → s.station i = some st →
    let polled (st' : Station) : State :=
      let s0 := { s with now := max s.now d }
      { s0.setStation i (some st') with
        sent := s.sent ++ [⟨originRing s.lpu.loop, st.address, .poll⟩]
        alc.counts := s.alc.counts.set 19 (raised (s.alc.counts.get 19)) }
    let clients (t : State) : Prop := ∀ c e, (s.client c).entry = some e → e.station = st.address →
      (t.client c).reservation = none ∧
      (∀ r, r < 12 → (s.holder r c).lapsed = false →
        let h := s.holder r c
        ((e.policy = .release ∧ h.state ∈ [.waiting, .shared, .upgrading, .exclusive]) ∨
            (h.state = .waiting ∧
              ∀ k v, s.record k = some v → v.resource = r → v.ramp ≠ .settle ∨ v.notice = true) →
          t.holder r c = {} ∧ ∀ y ∈ t.din.prf, ¬(y.resource = r ∧ y.client = c)) ∧
        (e.policy = .fallback → h.state ∈ [.shared, .exclusive] →
          t.holder r c = { h with q := h.fallback.getD 0, f := 0, lapsed := true, lease := .stopped } ∧
          (t.client c).lapseAlert = false)) ∧
      (∀ k v, s.record k = some v → v.client = c → v.notice = true →
        (v.ramp = .pass → t.record k = some { v with notice := false, timer := .stopped }) ∧
        (v.ramp = .settle → ∀ v', t.record k = some v' → v'.notice = false ∧ v'.timer = .stopped) ∧
        (v.ramp = .clear → t.record k = none))
    let lapses : Nat := (([0, 1, 2].filter fun c => decide ((s.client c).entry.map (·.station) = some st.address)).map
      fun c => ((List.range 12).filter fun r => !(s.holder r c).lapsed &&
        decide ((s.holder r c).state ∈ [.waiting, .shared, .upgrading, .exclusive])).length).sum
    let suspended (x : Timer) : Timer := match x with
      | .running e => .suspended (e - max s.now d)
      | y => y
    let halted (t : State) : Prop :=
      (⟨8, 0⟩ ∈ t.alc.alerts ∨ 8 ≤ t.alc.alerts.length) ∧ t.ale.pass = none ∧ t.ale.passTimer = .stopped ∧
      (∀ c ch, t.channel c = some ch → ch.state ≠ .active) ∧
      (∀ k, t.slot k = (s.slot k).map fun sl =>
        { sl with watch := suspended sl.watch, stopDelayTimer := suspended sl.stopDelayTimer }) ∧
      (StandingLaw s → ∀ r < 12, ∀ c < 3, (∀ e, (s.client c).entry = some e → e.station ≠ st.address) →
        (s.holder r c).state ∈ [.waiting, .shared, .upgrading, .exclusive] →
        (t.holder r c).lease = suspended (s.holder r c).lease)
    let declared (t : State) (retries : Nat) : Prop :=
      t.station i = some { st with state := .faulty, silenceTimer := .stopped, pollTimer := .stopped, heard := false,
                                   retryCount := retries } ∧
      ⟨2, st.address⟩ ∈ t.alc.alerts ++ (if 8 ≤ s.alc.alerts.length then [⟨2, st.address⟩] else []) ∧
      (∀ p slot, (s.point p).source = some (st.address, slot) →
        (t.point p).quality ∈ [.stale, .substituted] ∧ (t.point p).staleTimer = .stopped) ∧
      (∀ c ch, c < 16 → s.channel c = some ch → ch.station = st.address →
        ∃ ch', t.channel c = some ch' ∧ ch'.state = .faulted) ∧
      (StandingLaw s → clients t ∧ (s.count .leaseLapses ≤ 65535 →
        t.count .leaseLapses = min 65535 (s.count .leaseLapses + lapses))) ∧
      (s.mgu.part = .run → t.mgu.part = if s.stm.returnMode = .halt then .halted else .run) ∧
      (s.mgu.part = .run → s.stm.returnMode = .halt → halted t)
    (st.state ∈ [.absent, .online] → st.silenceTimer = .running d →
      (0 < s.stm.retryLimit → exec (.silenceExpiry i) s = .next (polled
        { st with state := .polling 0, silenceTimer := .stopped,
                  pollTimer := .running (max s.now d + 100 * s.stm.pollTimeout) })) ∧
      (s.stm.retryLimit = 0 → ∃ t, exec (.silenceExpiry i) s = .next (testHead t) ∧ declared t st.retryCount)) ∧
    (st.state = .polling n → st.pollTimer = .running d →
      (n + 1 < s.stm.retryLimit → exec (.pollTimeout i) s = .next (polled
        { st with state := .polling (n + 1), retryCount := min 255 (st.retryCount + 1),
                  pollTimer := .running (max s.now d + 100 * s.stm.pollTimeout) })) ∧
      (s.stm.retryLimit ≤ n + 1 →
        ∃ t, exec (.pollTimeout i) s = .next (testHead t) ∧ declared t (min 255 (st.retryCount + 1)))) ∧
    ((∀ d, st.silenceTimer ≠ .running d) → exec (.silenceExpiry i) s = .next s) ∧
    ((∀ d, st.pollTimer ≠ .running d) → exec (.pollTimeout i) s = .next s)

/-! ## Alerts -/

/-- A raise (R190, R192): a number already listed changes nothing; a new one joins the tail of a list of fewer than 8,
or raises the overflow count below 255; each change sends one ALERT frame with the list and the count after it. -/
def Obligations.AlertRaiseRule : Prop :=
  ∀ (c : AlertCategory) (index : Nat) (s : State),
    let a : AlertNo := ⟨c.number, index⟩
    let changed (l : List AlertNo) (o : Nat) : State :=
      { s with alc.alerts := l, alc.overflow := o, sent := s.sent ++ [⟨originRing s.lpu.loop, 31, .alert l o⟩] }
    (a ∈ s.alc.alerts → raiseAlert c index s = s) ∧
      (a ∉ s.alc.alerts → s.alc.alerts.length < 8 →
        raiseAlert c index s = changed (s.alc.alerts ++ [a]) s.alc.overflow) ∧
      (a ∉ s.alc.alerts → 8 ≤ s.alc.alerts.length →
        raiseAlert c index s = if s.alc.overflow < 255 then changed s.alc.alerts (s.alc.overflow + 1) else s)

/-! ## The pass as a whole -/

/-- At each completion the results handed for a record stay within the capacity latched for it: the grants written on a
PLAIN or CHILD record in sum, and the draws on a PARENT (R104, R108, R109). Classes are 0 to 3 (R62). -/
def Obligations.CompletionWithinCapacity : Prop :=
  ∀ (l : Table 12 LatchedRecord),
    (∀ r c x, (l.get r).claim c = some x → x.cls ≤ 3) →
      ∀ r, (handedResult l (computePass l) r).total ≤ (l.get r).capacity

/-- Every computed grant is 0 or lies between the floor and the requested quantity of its claim (R99, R103, R107, R110).
A floor is at most its quantity (R45, R62). -/
def Obligations.GrantsBetweenFloorAndRequest : Prop :=
  ∀ (l : Table 12 LatchedRecord), (∀ r c x, (l.get r).claim c = some x → x.f ≤ x.q) →
    ∀ r c x, (l.get r).claim c = some x →
      let g := ((computePass l).grants.get r).g c
      g = 0 ∨ (x.f ≤ g ∧ g ≤ x.q)

/-- The division of a PLAIN or CHILD record among its latched claims (R98 to R104). Without a claim a client gets
nothing. An EXCLUSIVE claim gets the lower of its q and C, or 0 where that is below its floor (R99). SHARED claims are
divided class by class, 0 to 3, each class with what the more urgent ones leave of C (R100, R104): a class that asks for
no more than its budget gets its q; any other is shared by weight in rounds, with the units left over in ascending
client number (R101, R102), and its floors drop claims, at most three tests (R103); a class that asks for more and keeps
every claim at its floor hands out exactly its budget (R102). A claim of q 0 gets 0 and takes no part (R98). The claims
dropped with a grant above 0 are counted (R113). The final grants are these, but on a CHILD whose PARENT is cut (R105).
Floors are at most q (R45), classes 0 to 3 and weights 1 to 15 (R62). -/
def Obligations.ResourceDivided : Prop :=
  (∀ l : LatchedRecord, l.kind = .plain ∨ l.kind = .child →
    (∀ c x, l.claim c = some x → x.f ≤ x.q ∧ x.cls ≤ 3 ∧ 1 ≤ x.weight) →
    let g (c : Nat) : Nat := shareOf (divideRecord l).shares c
    let drops := (divideRecord l).drops
    let before (k : Nat) : Nat := ((List.range k).flatMap fun j => (classClaims l j).map fun y => g y.1).sum
    (∀ c, l.claim c = none → g c = 0) ∧
    (∀ c x, l.claim c = some x → x.level = .exclusive → (∀ c', c' ≠ c → l.claim c' = none) →
      let value := min x.q l.capacity
      (x.f ≤ value → g c = value ∧ drops = 0) ∧ (value < x.f → g c = 0 ∧ drops = if 0 < value then 1 else 0)) ∧
    ((∀ c x, l.claim c = some x → x.level = .shared) →
      (∀ c x, l.claim c = some x → x.q = 0 → g c = 0) ∧
      (∃ d : Nat → Nat, drops = d 0 + d 1 + d 2 + d 3 ∧
        ∀ k < 4, ClassDivided 2 (l.capacity - before k) (classClaims l k) g (d k)) ∧
      ∀ k < 4, l.capacity - before k < requestSum (classClaims l k) → (∀ y ∈ classClaims l k, y.2.f ≤ g y.1) →
        ((classClaims l k).map fun y => g y.1).sum = l.capacity - before k)) ∧
  ∀ (t : Table 12 LatchedRecord) (r c : Nat), r < 12 → c < 3 →
    (t.get r).kind = .plain ∨ ((t.get r).kind = .child ∧ ∀ p, (t.get r).parent = some p → (t.get p).kind = .parent →
      (computePass t).demandDraw.get p ≤ (t.get p).capacity) →
    ((computePass t).grants.get r).g c = shareOf (divideRecord (t.get r)).shares c

/-- The cut of a PARENT (R105 to R108). Each grant divided on a CHILD of it draws g times the child's draw over 100,
rounded up, and D is the sum, which is also what the pass reports (R116). A class whose draw fits what the more urgent
classes leave of C keeps its grants, so that a parent with D within C is not cut. Any other class is scaled into the
room left, each grant to g times the room over the class draw, rounded down, 0 where that is below the floor of its
claim; where the class then fits the room these are its final grants, and otherwise it is trimmed: no grant rises or
ends between 0 and its floor, and the class draw ends within the room (R107). The cut class is the most urgent class
scaled (R116), and PARENT_CUTS is due exactly when a D exceeds its C (R108). Classes are 0 to 3 (R62). -/
def Obligations.ParentCutScalesLeastUrgent : Prop :=
  ∀ (t : Table 12 LatchedRecord), (∀ r c x, (t.get r).claim c = some x → x.cls ≤ 3) →
    ((computePass t).anyCut = true ↔ ∃ p < 12, (t.get p).kind = .parent ∧
      (t.get p).capacity < (computePass t).demandDraw.get p) ∧
    ∀ p < 12, (t.get p).kind = .parent →
      let room0 := (t.get p).capacity
      let divided (r c : Nat) : Nat := shareOf (divideRecord (t.get r)).shares c
      let final (r c : Nat) : Nat := ((computePass t).grants.get r).g c
      let draws (g : Nat → Nat → Nat) (sel : Nat → Bool) : Nat := ((List.range 12).map fun r =>
        if (t.get r).kind = .child ∧ (t.get r).parent = some p then
          ([0, 1, 2].map fun c => match (t.get r).claim c with
            | some x => if sel x.cls then (g r c * (t.get r).draw + 99) / 100 else 0
            | none => 0).sum
        else 0).sum
      let before (k : Nat) : Nat := draws divided (fun j => decide (j < k))
      let mine (k : Nat) : Nat := draws divided (fun j => decide (j = k))
      let exceeds (k : Nat) : Prop := 0 < mine k ∧ room0 < before k + mine k
      let scaled (k f g : Nat) : Nat :=
        let v := g * (room0 - before k) / mine k
        if v < f then 0 else v
      (computePass t).demandDraw.get p = draws divided (fun _ => true) ∧
      (∀ r < 12, (t.get r).kind = .child → (t.get r).parent = some p → ∀ c x, (t.get r).claim c = some x →
        (¬exceeds x.cls → final r c = divided r c) ∧
        (exceeds x.cls →
          let kept (r' c' : Nat) : Nat := match (t.get r').claim c' with
            | some y => scaled x.cls y.f (divided r' c')
            | none => 0
          final r c ≤ kept r c ∧ (final r c = 0 ∨ x.f ≤ final r c) ∧
            (draws kept (fun j => decide (j = x.cls)) ≤ room0 - before x.cls → final r c = kept r c) ∧
            draws final (fun j => decide (j = x.cls)) ≤ room0 - before x.cls)) ∧
      ∀ k, (computePass t).cutClass.get p = some k ↔ exceeds k ∧ ∀ j < k, ¬exceeds j

/-! ## Laws of every state -/

/-- Every law holds at reset. -/
def Obligations.LawsHoldAtReset : Prop := SafeState State.reset

/-- Every step keeps the bounds of the alert list, the counts, the PRF and the probe queue (R54, R83, R190, R194). -/
def Obligations.EveryStepKeepsBounds : Prop :=
  ∀ s t : State, AlcLaw s → QueueLaw s → step s = .next t → AlcLaw t ∧ QueueLaw t

/-- Every step leaves the head of the probe queue stalled, if it found it so: whatever ends a stall ends in the
execution of the head within the same step (R80, R84; log 3). -/
def Obligations.EveryStepKeepsHeadLaw : Prop := ∀ s t : State, HeadLaw s → step s = .next t → HeadLaw t

/-- Every step keeps the law that out of RUN no pass runs and no channel is ACTIVE (R91, R93, R136). -/
def Obligations.EveryStepKeepsQuiet : Prop := ∀ s t : State, QuietLaw s → step s = .next t → QuietLaw t

/-- Every step keeps the law that a holder without a standing has g 0, however passes and departures meet (R63, R96,
R109). -/
def Obligations.EveryStepKeepsGrantLaw : Prop := ∀ s t : State, GrantLaw s → step s = .next t → GrantLaw t

/-- Every step keeps the law of R63, with the records and PRF entries that go with it (R54, R63, R76). -/
def Obligations.EveryStepKeepsStandingLaw : Prop := ∀ s t : State, StandingLaw s → step s = .next t → StandingLaw t

/-! ## Bytes -/

/-- A DEMAND or MANAGE frame to address 0 given whole to FRAME_FORWARD does what the commands read from it do one after
another (R42, R43, R196). That FRAME_FORWARD takes such a frame is the model's (log 25), and so is that the items of a
DEMAND frame are given one at a time (log 4). -/
def Obligations.WholeFrameIsItsCommands : Prop :=
  ∀ (input : Ring) (f : Received) (s : State), f.src ≠ 0 → f.dest = 0 → f.cls = 2 ∨ f.cls = 6 →
    (frameCommands input f).foldl (fun x c => match x with | .next t => exec c t | y => y) (.next s) =
      exec (.frameForward f.cls { input := input, dest := f.dest, src := f.src, seq := f.seq, payload := f.payload }) s
end

