-- ==== Sys2Proof/Laws/Table.lean ====
section
/-! SUPPORT. Tables of numbered records: what a record reads as after every operation on its table, and the search for the
lowest record number. -/

namespace Sys2Proof.Machine

variable {n : Nat} {α : Type}

theorem Table.ext_data {t u : Table n α} (h : t.data = u.data) : t = u := by
  cases t; cases u; cases h; rfl

theorem Table.get_eq [Inhabited α] (t : Table n α) (i : Nat) (h : i < n) :
    t.get i = t.data[i]'(by rw [t.size]; exact h) := by
  have h' : i < t.data.length := by rw [t.size]; exact h
  simp [Table.get, List.getD_eq_getElem?_getD, List.getElem?_eq_getElem h']

theorem Table.get_beyond [Inhabited α] (t : Table n α) (i : Nat) (h : n ≤ i) : t.get i = default := by
  have h' : t.data.length ≤ i := by rw [t.size]; exact h
  simp [Table.get, List.getD_eq_getElem?_getD, List.getElem?_eq_none h']

/-- Two tables that read the same are the same. -/
theorem Table.ext_get [Inhabited α] {t u : Table n α} (h : ∀ i < n, t.get i = u.get i) : t = u := by
  apply Table.ext_data
  apply List.ext_getElem (by rw [t.size, u.size])
  intro i h1 h2
  have hi : i < n := by rw [← t.size]; exact h1
  have := h i hi
  rwa [t.get_eq i hi, u.get_eq i hi] at this

theorem Table.get_set [Inhabited α] (t : Table n α) (i j : Nat) (x : α) :
    (t.set i x).get j = if i = j ∧ j < n then x else t.get j := by
  simp only [Table.get, Table.set, List.getD_eq_getElem?_getD, List.getElem?_set, t.size]
  by_cases hij : i = j
  · subst hij
    by_cases hi : i < n
    · simp [hi]
    · simp [hi, List.getElem?_eq_none (show t.data.length ≤ i by rw [t.size]; omega)]
  · simp [hij]

@[simp] theorem Table.get_set_ne [Inhabited α] (t : Table n α) {i j : Nat} (x : α) (h : i ≠ j) :
    (t.set i x).get j = t.get j := by simp [Table.get_set, h]

@[simp] theorem Table.get_set_same [Inhabited α] (t : Table n α) {i : Nat} (x : α) (h : i < n) :
    (t.set i x).get i = x := by simp [Table.get_set, h]

/-- Writing a record the table does not have changes nothing. -/
theorem Table.set_beyond (t : Table n α) {i : Nat} (x : α) (h : n ≤ i) : t.set i x = t := by
  apply Table.ext_data
  simp [Table.set, List.set_eq_of_length_le, t.size, h]

@[simp] theorem Table.set_set (t : Table n α) (i : Nat) (x y : α) : (t.set i x).set i y = t.set i y := by
  apply Table.ext_data
  simp [Table.set]

/-- Writing a record as it reads changes nothing. -/
@[simp] theorem Table.set_get [Inhabited α] (t : Table n α) (i : Nat) : t.set i (t.get i) = t := by
  apply Table.ext_get
  intro j hj
  by_cases h : i = j
  · subst h; simp [hj]
  · simp [h]

theorem Table.set_comm (t : Table n α) {i j : Nat} (x y : α) (h : i ≠ j) :
    (t.set i x).set j y = (t.set j y).set i x := by
  apply Table.ext_data
  simp only [Table.set]
  rw [List.set_comm _ _ h]

@[simp] theorem Table.get_all [Inhabited α] (x : α) {i : Nat} (h : i < n) : (Table.all n x).get i = x := by
  simp [Table.get, Table.all, List.getD_eq_getElem?_getD, h]

theorem Table.get_map [Inhabited α] (f : α → α) (t : Table n α) (i : Nat) :
    (t.map f).get i = if i < n then f (t.get i) else default := by
  by_cases h : i < n
  · have h' : i < t.data.length := by rw [t.size]; exact h
    simp [Table.get, Table.map, List.getD_eq_getElem?_getD, h, List.getElem?_eq_getElem h']
  · simp [Table.get_beyond _ i (Nat.le_of_not_lt h), h]

@[simp] theorem Table.get_map_of_lt [Inhabited α] (f : α → α) (t : Table n α) {i : Nat} (h : i < n) :
    (t.map f).get i = f (t.get i) := by simp [Table.get_map, h]

/-- A change that keeps an absent record absent reads through at every number. -/
@[simp] theorem Table.get_mapOption {β : Type} (f : β → β) (t : Table n (Option β)) (i : Nat) :
    (t.map (·.map f)).get i = (t.get i).map f := by
  by_cases h : i < n
  · simp [h]
  · rw [Table.get_beyond _ i (Nat.le_of_not_lt h), Table.get_beyond _ i (Nat.le_of_not_lt h)]
    rfl

@[simp] theorem Table.get_build [Inhabited α] (f : Nat → α) {i : Nat} (h : i < n) : (Table.build n f).get i = f i := by
  simp [Table.get, Table.build, List.getD_eq_getElem?_getD, h]

theorem Table.data_mem_get [Inhabited α] (t : Table n α) {x : α} (h : x ∈ t.data) : ∃ i < n, t.get i = x := by
  obtain ⟨i, hi, hx⟩ := List.getElem_of_mem h
  have hn : i < n := by rw [← t.size]; exact hi
  exact ⟨i, hn, by rw [t.get_eq i hn]; exact hx⟩

theorem Table.get_mem_data [Inhabited α] (t : Table n α) {i : Nat} (h : i < n) : t.get i ∈ t.data := by
  rw [t.get_eq i h]; exact List.getElem_mem _

/-- The members of a table after one write: the value written and members it had. -/
theorem Table.mem_set_data {t : Table n α} {i : Nat} {x y : α} (h : y ∈ (t.set i x).data) : y ∈ t.data ∨ y = x := by
  exact List.mem_or_eq_of_mem_set h

/-! ## The lowest number with a property -/

theorem lowest_eq_some {n : Nat} {p : Nat → Bool} {i : Nat} :
    lowest n p = some i ↔ i < n ∧ p i = true ∧ ∀ j < i, p j = false := by
  simp only [lowest, List.find?_range_eq_some]
  constructor
  · rintro ⟨h1, h2, h3⟩; exact ⟨by simpa using h2, h1, fun j hj => by simpa using h3 j hj⟩
  · rintro ⟨h1, h2, h3⟩; exact ⟨h2, by simpa using h1, fun j hj => by simp [h3 j hj]⟩

theorem lowest_eq_none {n : Nat} {p : Nat → Bool} : lowest n p = none ↔ ∀ i < n, p i = false := by
  simp [lowest]

end Sys2Proof.Machine
end

