-- ==== Sys2Proof/Laws/State.lean ====
section
/-! SUPPORT. One lemma per field per update of the state: what an update leaves and what it writes. A proof about an
operation cites these and unfolds no record update. -/

namespace Sys2Proof.Machine

variable (s : State)

/-! ## setResource -/
@[simp] theorem setResource_now (r : Nat) (x : Resource) : (s.setResource r x).now = s.now := rfl
@[simp] theorem setResource_lpu (r : Nat) (x : Resource) : (s.setResource r x).lpu = s.lpu := rfl
@[simp] theorem setResource_fsu (r : Nat) (x : Resource) : (s.setResource r x).fsu = s.fsu := rfl
@[simp] theorem setResource_stm (r : Nat) (x : Resource) : (s.setResource r x).stm = s.stm := rfl
@[simp] theorem setResource_pst (r : Nat) (x : Resource) : (s.setResource r x).pst = s.pst := rfl
@[simp] theorem setResource_cau (r : Nat) (x : Resource) :
    (s.setResource r x).cau = { s.cau with resources := s.cau.resources.set r x } := rfl
@[simp] theorem setResource_din (r : Nat) (x : Resource) : (s.setResource r x).din = s.din := rfl
@[simp] theorem setResource_gtb (r : Nat) (x : Resource) : (s.setResource r x).gtb = s.gtb := rfl
@[simp] theorem setResource_ale (r : Nat) (x : Resource) : (s.setResource r x).ale = s.ale := rfl
@[simp] theorem setResource_chu (r : Nat) (x : Resource) : (s.setResource r x).chu = s.chu := rfl
@[simp] theorem setResource_ssu (r : Nat) (x : Resource) : (s.setResource r x).ssu = s.ssu := rfl
@[simp] theorem setResource_alc (r : Nat) (x : Resource) : (s.setResource r x).alc = s.alc := rfl
@[simp] theorem setResource_mgu (r : Nat) (x : Resource) : (s.setResource r x).mgu = s.mgu := rfl
@[simp] theorem setResource_sent (r : Nat) (x : Resource) : (s.setResource r x).sent = s.sent := rfl
@[simp] theorem setResource_pending (r : Nat) (x : Resource) : (s.setResource r x).pending = s.pending := rfl
@[simp] theorem setResource_point (r : Nat) (x : Resource) : (s.setResource r x).point = s.point := rfl
@[simp] theorem setResource_client (r : Nat) (x : Resource) : (s.setResource r x).client = s.client := rfl
@[simp] theorem setResource_holder (r : Nat) (x : Resource) : (s.setResource r x).holder = s.holder := rfl
@[simp] theorem setResource_generation (r : Nat) (x : Resource) : (s.setResource r x).generation = s.generation := rfl
@[simp] theorem setResource_isFrozen (r : Nat) (x : Resource) : (s.setResource r x).isFrozen = s.isFrozen := rfl
@[simp] theorem setResource_record (r : Nat) (x : Resource) : (s.setResource r x).record = s.record := rfl
@[simp] theorem setResource_channel (r : Nat) (x : Resource) : (s.setResource r x).channel = s.channel := rfl
@[simp] theorem setResource_slot (r : Nat) (x : Resource) : (s.setResource r x).slot = s.slot := rfl
@[simp] theorem setResource_station (r : Nat) (x : Resource) : (s.setResource r x).station = s.station := rfl
@[simp] theorem setResource_count (r : Nat) (x : Resource) : (s.setResource r x).count = s.count := rfl

/-! ## setPoint -/
@[simp] theorem setPoint_now (p : Nat) (x : Point) : (s.setPoint p x).now = s.now := rfl
@[simp] theorem setPoint_lpu (p : Nat) (x : Point) : (s.setPoint p x).lpu = s.lpu := rfl
@[simp] theorem setPoint_fsu (p : Nat) (x : Point) : (s.setPoint p x).fsu = s.fsu := rfl
@[simp] theorem setPoint_stm (p : Nat) (x : Point) : (s.setPoint p x).stm = s.stm := rfl
@[simp] theorem setPoint_pst (p : Nat) (x : Point) :
    (s.setPoint p x).pst = { points := s.pst.points.set p x } := rfl
@[simp] theorem setPoint_cau (p : Nat) (x : Point) : (s.setPoint p x).cau = s.cau := rfl
@[simp] theorem setPoint_din (p : Nat) (x : Point) : (s.setPoint p x).din = s.din := rfl
@[simp] theorem setPoint_gtb (p : Nat) (x : Point) : (s.setPoint p x).gtb = s.gtb := rfl
@[simp] theorem setPoint_ale (p : Nat) (x : Point) : (s.setPoint p x).ale = s.ale := rfl
@[simp] theorem setPoint_chu (p : Nat) (x : Point) : (s.setPoint p x).chu = s.chu := rfl
@[simp] theorem setPoint_ssu (p : Nat) (x : Point) : (s.setPoint p x).ssu = s.ssu := rfl
@[simp] theorem setPoint_alc (p : Nat) (x : Point) : (s.setPoint p x).alc = s.alc := rfl
@[simp] theorem setPoint_mgu (p : Nat) (x : Point) : (s.setPoint p x).mgu = s.mgu := rfl
@[simp] theorem setPoint_sent (p : Nat) (x : Point) : (s.setPoint p x).sent = s.sent := rfl
@[simp] theorem setPoint_pending (p : Nat) (x : Point) : (s.setPoint p x).pending = s.pending := rfl
@[simp] theorem setPoint_resource (p : Nat) (x : Point) : (s.setPoint p x).resource = s.resource := rfl
@[simp] theorem setPoint_client (p : Nat) (x : Point) : (s.setPoint p x).client = s.client := rfl
@[simp] theorem setPoint_holder (p : Nat) (x : Point) : (s.setPoint p x).holder = s.holder := rfl
@[simp] theorem setPoint_generation (p : Nat) (x : Point) : (s.setPoint p x).generation = s.generation := rfl
@[simp] theorem setPoint_isFrozen (p : Nat) (x : Point) : (s.setPoint p x).isFrozen = s.isFrozen := rfl
@[simp] theorem setPoint_record (p : Nat) (x : Point) : (s.setPoint p x).record = s.record := rfl
@[simp] theorem setPoint_channel (p : Nat) (x : Point) : (s.setPoint p x).channel = s.channel := rfl
@[simp] theorem setPoint_slot (p : Nat) (x : Point) : (s.setPoint p x).slot = s.slot := rfl
@[simp] theorem setPoint_station (p : Nat) (x : Point) : (s.setPoint p x).station = s.station := rfl
@[simp] theorem setPoint_count (p : Nat) (x : Point) : (s.setPoint p x).count = s.count := rfl

/-! ## setClient -/
@[simp] theorem setClient_now (c : Nat) (x : Client) : (s.setClient c x).now = s.now := rfl
@[simp] theorem setClient_lpu (c : Nat) (x : Client) : (s.setClient c x).lpu = s.lpu := rfl
@[simp] theorem setClient_fsu (c : Nat) (x : Client) : (s.setClient c x).fsu = s.fsu := rfl
@[simp] theorem setClient_stm (c : Nat) (x : Client) : (s.setClient c x).stm = s.stm := rfl
@[simp] theorem setClient_pst (c : Nat) (x : Client) : (s.setClient c x).pst = s.pst := rfl
@[simp] theorem setClient_cau (c : Nat) (x : Client) : (s.setClient c x).cau = s.cau := rfl
@[simp] theorem setClient_din (c : Nat) (x : Client) :
    (s.setClient c x).din = { s.din with clients := s.din.clients.set c x } := rfl
@[simp] theorem setClient_gtb (c : Nat) (x : Client) : (s.setClient c x).gtb = s.gtb := rfl
@[simp] theorem setClient_ale (c : Nat) (x : Client) : (s.setClient c x).ale = s.ale := rfl
@[simp] theorem setClient_chu (c : Nat) (x : Client) : (s.setClient c x).chu = s.chu := rfl
@[simp] theorem setClient_ssu (c : Nat) (x : Client) : (s.setClient c x).ssu = s.ssu := rfl
@[simp] theorem setClient_alc (c : Nat) (x : Client) : (s.setClient c x).alc = s.alc := rfl
@[simp] theorem setClient_mgu (c : Nat) (x : Client) : (s.setClient c x).mgu = s.mgu := rfl
@[simp] theorem setClient_sent (c : Nat) (x : Client) : (s.setClient c x).sent = s.sent := rfl
@[simp] theorem setClient_pending (c : Nat) (x : Client) : (s.setClient c x).pending = s.pending := rfl
@[simp] theorem setClient_resource (c : Nat) (x : Client) : (s.setClient c x).resource = s.resource := rfl
@[simp] theorem setClient_point (c : Nat) (x : Client) : (s.setClient c x).point = s.point := rfl
@[simp] theorem setClient_holder (c : Nat) (x : Client) : (s.setClient c x).holder = s.holder := rfl
@[simp] theorem setClient_generation (c : Nat) (x : Client) : (s.setClient c x).generation = s.generation := rfl
@[simp] theorem setClient_isFrozen (c : Nat) (x : Client) : (s.setClient c x).isFrozen = s.isFrozen := rfl
@[simp] theorem setClient_record (c : Nat) (x : Client) : (s.setClient c x).record = s.record := rfl
@[simp] theorem setClient_channel (c : Nat) (x : Client) : (s.setClient c x).channel = s.channel := rfl
@[simp] theorem setClient_slot (c : Nat) (x : Client) : (s.setClient c x).slot = s.slot := rfl
@[simp] theorem setClient_station (c : Nat) (x : Client) : (s.setClient c x).station = s.station := rfl
@[simp] theorem setClient_count (c : Nat) (x : Client) : (s.setClient c x).count = s.count := rfl

/-! ## setHolder -/
@[simp] theorem setHolder_now (r c : Nat) (h : Holder) : (s.setHolder r c h).now = s.now := rfl
@[simp] theorem setHolder_lpu (r c : Nat) (h : Holder) : (s.setHolder r c h).lpu = s.lpu := rfl
@[simp] theorem setHolder_fsu (r c : Nat) (h : Holder) : (s.setHolder r c h).fsu = s.fsu := rfl
@[simp] theorem setHolder_stm (r c : Nat) (h : Holder) : (s.setHolder r c h).stm = s.stm := rfl
@[simp] theorem setHolder_pst (r c : Nat) (h : Holder) : (s.setHolder r c h).pst = s.pst := rfl
@[simp] theorem setHolder_cau (r c : Nat) (h : Holder) : (s.setHolder r c h).cau = s.cau := rfl
@[simp] theorem setHolder_din (r c : Nat) (h : Holder) : (s.setHolder r c h).din = s.din := rfl
@[simp] theorem setHolder_gtb (r c : Nat) (h : Holder) :
    (s.setHolder r c h).gtb = { s.gtb with holders := s.gtb.holders.set r ((s.gtb.holders.get r).set c h) } := rfl
@[simp] theorem setHolder_ale (r c : Nat) (h : Holder) : (s.setHolder r c h).ale = s.ale := rfl
@[simp] theorem setHolder_chu (r c : Nat) (h : Holder) : (s.setHolder r c h).chu = s.chu := rfl
@[simp] theorem setHolder_ssu (r c : Nat) (h : Holder) : (s.setHolder r c h).ssu = s.ssu := rfl
@[simp] theorem setHolder_alc (r c : Nat) (h : Holder) : (s.setHolder r c h).alc = s.alc := rfl
@[simp] theorem setHolder_mgu (r c : Nat) (h : Holder) : (s.setHolder r c h).mgu = s.mgu := rfl
@[simp] theorem setHolder_sent (r c : Nat) (h : Holder) : (s.setHolder r c h).sent = s.sent := rfl
@[simp] theorem setHolder_pending (r c : Nat) (h : Holder) : (s.setHolder r c h).pending = s.pending := rfl
@[simp] theorem setHolder_resource (r c : Nat) (h : Holder) : (s.setHolder r c h).resource = s.resource := rfl
@[simp] theorem setHolder_point (r c : Nat) (h : Holder) : (s.setHolder r c h).point = s.point := rfl
@[simp] theorem setHolder_client (r c : Nat) (h : Holder) : (s.setHolder r c h).client = s.client := rfl
@[simp] theorem setHolder_generation (r c : Nat) (h : Holder) : (s.setHolder r c h).generation = s.generation := rfl
@[simp] theorem setHolder_isFrozen (r c : Nat) (h : Holder) : (s.setHolder r c h).isFrozen = s.isFrozen := rfl
@[simp] theorem setHolder_record (r c : Nat) (h : Holder) : (s.setHolder r c h).record = s.record := rfl
@[simp] theorem setHolder_channel (r c : Nat) (h : Holder) : (s.setHolder r c h).channel = s.channel := rfl
@[simp] theorem setHolder_slot (r c : Nat) (h : Holder) : (s.setHolder r c h).slot = s.slot := rfl
@[simp] theorem setHolder_station (r c : Nat) (h : Holder) : (s.setHolder r c h).station = s.station := rfl
@[simp] theorem setHolder_count (r c : Nat) (h : Holder) : (s.setHolder r c h).count = s.count := rfl

/-! ## setRecord -/
@[simp] theorem setRecord_now (k : Nat) (x : Option Revocation) : (s.setRecord k x).now = s.now := rfl
@[simp] theorem setRecord_lpu (k : Nat) (x : Option Revocation) : (s.setRecord k x).lpu = s.lpu := rfl
@[simp] theorem setRecord_fsu (k : Nat) (x : Option Revocation) : (s.setRecord k x).fsu = s.fsu := rfl
@[simp] theorem setRecord_stm (k : Nat) (x : Option Revocation) : (s.setRecord k x).stm = s.stm := rfl
@[simp] theorem setRecord_pst (k : Nat) (x : Option Revocation) : (s.setRecord k x).pst = s.pst := rfl
@[simp] theorem setRecord_cau (k : Nat) (x : Option Revocation) : (s.setRecord k x).cau = s.cau := rfl
@[simp] theorem setRecord_din (k : Nat) (x : Option Revocation) : (s.setRecord k x).din = s.din := rfl
@[simp] theorem setRecord_gtb (k : Nat) (x : Option Revocation) :
    (s.setRecord k x).gtb = { s.gtb with records := s.gtb.records.set k x } := rfl
@[simp] theorem setRecord_ale (k : Nat) (x : Option Revocation) : (s.setRecord k x).ale = s.ale := rfl
@[simp] theorem setRecord_chu (k : Nat) (x : Option Revocation) : (s.setRecord k x).chu = s.chu := rfl
@[simp] theorem setRecord_ssu (k : Nat) (x : Option Revocation) : (s.setRecord k x).ssu = s.ssu := rfl
@[simp] theorem setRecord_alc (k : Nat) (x : Option Revocation) : (s.setRecord k x).alc = s.alc := rfl
@[simp] theorem setRecord_mgu (k : Nat) (x : Option Revocation) : (s.setRecord k x).mgu = s.mgu := rfl
@[simp] theorem setRecord_sent (k : Nat) (x : Option Revocation) : (s.setRecord k x).sent = s.sent := rfl
@[simp] theorem setRecord_pending (k : Nat) (x : Option Revocation) : (s.setRecord k x).pending = s.pending := rfl
@[simp] theorem setRecord_resource (k : Nat) (x : Option Revocation) : (s.setRecord k x).resource = s.resource := rfl
@[simp] theorem setRecord_point (k : Nat) (x : Option Revocation) : (s.setRecord k x).point = s.point := rfl
@[simp] theorem setRecord_client (k : Nat) (x : Option Revocation) : (s.setRecord k x).client = s.client := rfl
@[simp] theorem setRecord_holder (k : Nat) (x : Option Revocation) : (s.setRecord k x).holder = s.holder := rfl
@[simp] theorem setRecord_generation (k : Nat) (x : Option Revocation) : (s.setRecord k x).generation = s.generation
      := rfl
@[simp] theorem setRecord_isFrozen (k : Nat) (x : Option Revocation) : (s.setRecord k x).isFrozen = s.isFrozen := rfl
@[simp] theorem setRecord_channel (k : Nat) (x : Option Revocation) : (s.setRecord k x).channel = s.channel := rfl
@[simp] theorem setRecord_slot (k : Nat) (x : Option Revocation) : (s.setRecord k x).slot = s.slot := rfl
@[simp] theorem setRecord_station (k : Nat) (x : Option Revocation) : (s.setRecord k x).station = s.station := rfl
@[simp] theorem setRecord_count (k : Nat) (x : Option Revocation) : (s.setRecord k x).count = s.count := rfl

/-! ## setChannel -/
@[simp] theorem setChannel_now (n : Nat) (x : Option Channel) : (s.setChannel n x).now = s.now := rfl
@[simp] theorem setChannel_lpu (n : Nat) (x : Option Channel) : (s.setChannel n x).lpu = s.lpu := rfl
@[simp] theorem setChannel_fsu (n : Nat) (x : Option Channel) : (s.setChannel n x).fsu = s.fsu := rfl
@[simp] theorem setChannel_stm (n : Nat) (x : Option Channel) : (s.setChannel n x).stm = s.stm := rfl
@[simp] theorem setChannel_pst (n : Nat) (x : Option Channel) : (s.setChannel n x).pst = s.pst := rfl
@[simp] theorem setChannel_cau (n : Nat) (x : Option Channel) : (s.setChannel n x).cau = s.cau := rfl
@[simp] theorem setChannel_din (n : Nat) (x : Option Channel) : (s.setChannel n x).din = s.din := rfl
@[simp] theorem setChannel_gtb (n : Nat) (x : Option Channel) : (s.setChannel n x).gtb = s.gtb := rfl
@[simp] theorem setChannel_ale (n : Nat) (x : Option Channel) : (s.setChannel n x).ale = s.ale := rfl
@[simp] theorem setChannel_chu (n : Nat) (x : Option Channel) :
    (s.setChannel n x).chu = { s.chu with channels := s.chu.channels.set n x } := rfl
@[simp] theorem setChannel_ssu (n : Nat) (x : Option Channel) : (s.setChannel n x).ssu = s.ssu := rfl
@[simp] theorem setChannel_alc (n : Nat) (x : Option Channel) : (s.setChannel n x).alc = s.alc := rfl
@[simp] theorem setChannel_mgu (n : Nat) (x : Option Channel) : (s.setChannel n x).mgu = s.mgu := rfl
@[simp] theorem setChannel_sent (n : Nat) (x : Option Channel) : (s.setChannel n x).sent = s.sent := rfl
@[simp] theorem setChannel_pending (n : Nat) (x : Option Channel) : (s.setChannel n x).pending = s.pending := rfl
@[simp] theorem setChannel_resource (n : Nat) (x : Option Channel) : (s.setChannel n x).resource = s.resource := rfl
@[simp] theorem setChannel_point (n : Nat) (x : Option Channel) : (s.setChannel n x).point = s.point := rfl
@[simp] theorem setChannel_client (n : Nat) (x : Option Channel) : (s.setChannel n x).client = s.client := rfl
@[simp] theorem setChannel_holder (n : Nat) (x : Option Channel) : (s.setChannel n x).holder = s.holder := rfl
@[simp] theorem setChannel_generation (n : Nat) (x : Option Channel) : (s.setChannel n x).generation = s.generation
      := rfl
@[simp] theorem setChannel_isFrozen (n : Nat) (x : Option Channel) : (s.setChannel n x).isFrozen = s.isFrozen := rfl
@[simp] theorem setChannel_record (n : Nat) (x : Option Channel) : (s.setChannel n x).record = s.record := rfl
@[simp] theorem setChannel_slot (n : Nat) (x : Option Channel) : (s.setChannel n x).slot = s.slot := rfl
@[simp] theorem setChannel_station (n : Nat) (x : Option Channel) : (s.setChannel n x).station = s.station := rfl
@[simp] theorem setChannel_count (n : Nat) (x : Option Channel) : (s.setChannel n x).count = s.count := rfl

/-! ## setSlot -/
@[simp] theorem setSlot_now (k : Nat) (x : Option Slot) : (s.setSlot k x).now = s.now := rfl
@[simp] theorem setSlot_lpu (k : Nat) (x : Option Slot) : (s.setSlot k x).lpu = s.lpu := rfl
@[simp] theorem setSlot_fsu (k : Nat) (x : Option Slot) : (s.setSlot k x).fsu = s.fsu := rfl
@[simp] theorem setSlot_stm (k : Nat) (x : Option Slot) : (s.setSlot k x).stm = s.stm := rfl
@[simp] theorem setSlot_pst (k : Nat) (x : Option Slot) : (s.setSlot k x).pst = s.pst := rfl
@[simp] theorem setSlot_cau (k : Nat) (x : Option Slot) : (s.setSlot k x).cau = s.cau := rfl
@[simp] theorem setSlot_din (k : Nat) (x : Option Slot) : (s.setSlot k x).din = s.din := rfl
@[simp] theorem setSlot_gtb (k : Nat) (x : Option Slot) : (s.setSlot k x).gtb = s.gtb := rfl
@[simp] theorem setSlot_ale (k : Nat) (x : Option Slot) : (s.setSlot k x).ale = s.ale := rfl
@[simp] theorem setSlot_chu (k : Nat) (x : Option Slot) : (s.setSlot k x).chu = s.chu := rfl
@[simp] theorem setSlot_ssu (k : Nat) (x : Option Slot) :
    (s.setSlot k x).ssu = { slots := s.ssu.slots.set k x } := rfl
@[simp] theorem setSlot_alc (k : Nat) (x : Option Slot) : (s.setSlot k x).alc = s.alc := rfl
@[simp] theorem setSlot_mgu (k : Nat) (x : Option Slot) : (s.setSlot k x).mgu = s.mgu := rfl
@[simp] theorem setSlot_sent (k : Nat) (x : Option Slot) : (s.setSlot k x).sent = s.sent := rfl
@[simp] theorem setSlot_pending (k : Nat) (x : Option Slot) : (s.setSlot k x).pending = s.pending := rfl
@[simp] theorem setSlot_resource (k : Nat) (x : Option Slot) : (s.setSlot k x).resource = s.resource := rfl
@[simp] theorem setSlot_point (k : Nat) (x : Option Slot) : (s.setSlot k x).point = s.point := rfl
@[simp] theorem setSlot_client (k : Nat) (x : Option Slot) : (s.setSlot k x).client = s.client := rfl
@[simp] theorem setSlot_holder (k : Nat) (x : Option Slot) : (s.setSlot k x).holder = s.holder := rfl
@[simp] theorem setSlot_generation (k : Nat) (x : Option Slot) : (s.setSlot k x).generation = s.generation := rfl
@[simp] theorem setSlot_isFrozen (k : Nat) (x : Option Slot) : (s.setSlot k x).isFrozen = s.isFrozen := rfl
@[simp] theorem setSlot_record (k : Nat) (x : Option Slot) : (s.setSlot k x).record = s.record := rfl
@[simp] theorem setSlot_channel (k : Nat) (x : Option Slot) : (s.setSlot k x).channel = s.channel := rfl
@[simp] theorem setSlot_station (k : Nat) (x : Option Slot) : (s.setSlot k x).station = s.station := rfl
@[simp] theorem setSlot_count (k : Nat) (x : Option Slot) : (s.setSlot k x).count = s.count := rfl

/-! ## setStation -/
@[simp] theorem setStation_now (i : Nat) (x : Option Station) : (s.setStation i x).now = s.now := rfl
@[simp] theorem setStation_lpu (i : Nat) (x : Option Station) : (s.setStation i x).lpu = s.lpu := rfl
@[simp] theorem setStation_fsu (i : Nat) (x : Option Station) : (s.setStation i x).fsu = s.fsu := rfl
@[simp] theorem setStation_stm (i : Nat) (x : Option Station) :
    (s.setStation i x).stm = { s.stm with stations := s.stm.stations.set i x } := rfl
@[simp] theorem setStation_pst (i : Nat) (x : Option Station) : (s.setStation i x).pst = s.pst := rfl
@[simp] theorem setStation_cau (i : Nat) (x : Option Station) : (s.setStation i x).cau = s.cau := rfl
@[simp] theorem setStation_din (i : Nat) (x : Option Station) : (s.setStation i x).din = s.din := rfl
@[simp] theorem setStation_gtb (i : Nat) (x : Option Station) : (s.setStation i x).gtb = s.gtb := rfl
@[simp] theorem setStation_ale (i : Nat) (x : Option Station) : (s.setStation i x).ale = s.ale := rfl
@[simp] theorem setStation_chu (i : Nat) (x : Option Station) : (s.setStation i x).chu = s.chu := rfl
@[simp] theorem setStation_ssu (i : Nat) (x : Option Station) : (s.setStation i x).ssu = s.ssu := rfl
@[simp] theorem setStation_alc (i : Nat) (x : Option Station) : (s.setStation i x).alc = s.alc := rfl
@[simp] theorem setStation_mgu (i : Nat) (x : Option Station) : (s.setStation i x).mgu = s.mgu := rfl
@[simp] theorem setStation_sent (i : Nat) (x : Option Station) : (s.setStation i x).sent = s.sent := rfl
@[simp] theorem setStation_pending (i : Nat) (x : Option Station) : (s.setStation i x).pending = s.pending := rfl
@[simp] theorem setStation_resource (i : Nat) (x : Option Station) : (s.setStation i x).resource = s.resource := rfl
@[simp] theorem setStation_point (i : Nat) (x : Option Station) : (s.setStation i x).point = s.point := rfl
@[simp] theorem setStation_client (i : Nat) (x : Option Station) : (s.setStation i x).client = s.client := rfl
@[simp] theorem setStation_holder (i : Nat) (x : Option Station) : (s.setStation i x).holder = s.holder := rfl
@[simp] theorem setStation_generation (i : Nat) (x : Option Station) : (s.setStation i x).generation = s.generation
      := rfl
@[simp] theorem setStation_isFrozen (i : Nat) (x : Option Station) : (s.setStation i x).isFrozen = s.isFrozen := rfl
@[simp] theorem setStation_record (i : Nat) (x : Option Station) : (s.setStation i x).record = s.record := rfl
@[simp] theorem setStation_channel (i : Nat) (x : Option Station) : (s.setStation i x).channel = s.channel := rfl
@[simp] theorem setStation_slot (i : Nat) (x : Option Station) : (s.setStation i x).slot = s.slot := rfl
@[simp] theorem setStation_count (i : Nat) (x : Option Station) : (s.setStation i x).count = s.count := rfl

/-! ## countBy -/
@[simp] theorem countBy_now (c : Count) (n : Nat) : (countBy c n s).now = s.now := rfl
@[simp] theorem countBy_lpu (c : Count) (n : Nat) : (countBy c n s).lpu = s.lpu := rfl
@[simp] theorem countBy_fsu (c : Count) (n : Nat) : (countBy c n s).fsu = s.fsu := rfl
@[simp] theorem countBy_stm (c : Count) (n : Nat) : (countBy c n s).stm = s.stm := rfl
@[simp] theorem countBy_pst (c : Count) (n : Nat) : (countBy c n s).pst = s.pst := rfl
@[simp] theorem countBy_cau (c : Count) (n : Nat) : (countBy c n s).cau = s.cau := rfl
@[simp] theorem countBy_din (c : Count) (n : Nat) : (countBy c n s).din = s.din := rfl
@[simp] theorem countBy_gtb (c : Count) (n : Nat) : (countBy c n s).gtb = s.gtb := rfl
@[simp] theorem countBy_ale (c : Count) (n : Nat) : (countBy c n s).ale = s.ale := rfl
@[simp] theorem countBy_chu (c : Count) (n : Nat) : (countBy c n s).chu = s.chu := rfl
@[simp] theorem countBy_ssu (c : Count) (n : Nat) : (countBy c n s).ssu = s.ssu := rfl
@[simp] theorem countBy_alc (c : Count) (n : Nat) :
    (countBy c n s).alc = { s.alc with counts := s.alc.counts.set c.number (min 65535 (s.alc.counts.get c.number +
      n)) } := rfl
@[simp] theorem countBy_mgu (c : Count) (n : Nat) : (countBy c n s).mgu = s.mgu := rfl
@[simp] theorem countBy_sent (c : Count) (n : Nat) : (countBy c n s).sent = s.sent := rfl
@[simp] theorem countBy_pending (c : Count) (n : Nat) : (countBy c n s).pending = s.pending := rfl
@[simp] theorem countBy_resource (c : Count) (n : Nat) : (countBy c n s).resource = s.resource := rfl
@[simp] theorem countBy_point (c : Count) (n : Nat) : (countBy c n s).point = s.point := rfl
@[simp] theorem countBy_client (c : Count) (n : Nat) : (countBy c n s).client = s.client := rfl
@[simp] theorem countBy_holder (c : Count) (n : Nat) : (countBy c n s).holder = s.holder := rfl
@[simp] theorem countBy_generation (c : Count) (n : Nat) : (countBy c n s).generation = s.generation := rfl
@[simp] theorem countBy_isFrozen (c : Count) (n : Nat) : (countBy c n s).isFrozen = s.isFrozen := rfl
@[simp] theorem countBy_record (c : Count) (n : Nat) : (countBy c n s).record = s.record := rfl
@[simp] theorem countBy_channel (c : Count) (n : Nat) : (countBy c n s).channel = s.channel := rfl
@[simp] theorem countBy_slot (c : Count) (n : Nat) : (countBy c n s).slot = s.slot := rfl
@[simp] theorem countBy_station (c : Count) (n : Nat) : (countBy c n s).station = s.station := rfl

/-! ## countEvent -/
@[simp] theorem countEvent_now (c : Count) : (countEvent c s).now = s.now := rfl
@[simp] theorem countEvent_lpu (c : Count) : (countEvent c s).lpu = s.lpu := rfl
@[simp] theorem countEvent_fsu (c : Count) : (countEvent c s).fsu = s.fsu := rfl
@[simp] theorem countEvent_stm (c : Count) : (countEvent c s).stm = s.stm := rfl
@[simp] theorem countEvent_pst (c : Count) : (countEvent c s).pst = s.pst := rfl
@[simp] theorem countEvent_cau (c : Count) : (countEvent c s).cau = s.cau := rfl
@[simp] theorem countEvent_din (c : Count) : (countEvent c s).din = s.din := rfl
@[simp] theorem countEvent_gtb (c : Count) : (countEvent c s).gtb = s.gtb := rfl
@[simp] theorem countEvent_ale (c : Count) : (countEvent c s).ale = s.ale := rfl
@[simp] theorem countEvent_chu (c : Count) : (countEvent c s).chu = s.chu := rfl
@[simp] theorem countEvent_ssu (c : Count) : (countEvent c s).ssu = s.ssu := rfl
@[simp] theorem countEvent_alc (c : Count) :
    (countEvent c s).alc = { s.alc with counts := s.alc.counts.set c.number (raised (s.alc.counts.get c.number)) } :=
      rfl
@[simp] theorem countEvent_mgu (c : Count) : (countEvent c s).mgu = s.mgu := rfl
@[simp] theorem countEvent_sent (c : Count) : (countEvent c s).sent = s.sent := rfl
@[simp] theorem countEvent_pending (c : Count) : (countEvent c s).pending = s.pending := rfl
@[simp] theorem countEvent_resource (c : Count) : (countEvent c s).resource = s.resource := rfl
@[simp] theorem countEvent_point (c : Count) : (countEvent c s).point = s.point := rfl
@[simp] theorem countEvent_client (c : Count) : (countEvent c s).client = s.client := rfl
@[simp] theorem countEvent_holder (c : Count) : (countEvent c s).holder = s.holder := rfl
@[simp] theorem countEvent_generation (c : Count) : (countEvent c s).generation = s.generation := rfl
@[simp] theorem countEvent_isFrozen (c : Count) : (countEvent c s).isFrozen = s.isFrozen := rfl
@[simp] theorem countEvent_record (c : Count) : (countEvent c s).record = s.record := rfl
@[simp] theorem countEvent_channel (c : Count) : (countEvent c s).channel = s.channel := rfl
@[simp] theorem countEvent_slot (c : Count) : (countEvent c s).slot = s.slot := rfl
@[simp] theorem countEvent_station (c : Count) : (countEvent c s).station = s.station := rfl

/-! ## sendOn -/
@[simp] theorem sendOn_now (ring : Ring) (dest : Nat) (body : Body) : (sendOn ring dest body s).now = s.now := rfl
@[simp] theorem sendOn_lpu (ring : Ring) (dest : Nat) (body : Body) : (sendOn ring dest body s).lpu = s.lpu := rfl
@[simp] theorem sendOn_fsu (ring : Ring) (dest : Nat) (body : Body) : (sendOn ring dest body s).fsu = s.fsu := rfl
@[simp] theorem sendOn_stm (ring : Ring) (dest : Nat) (body : Body) : (sendOn ring dest body s).stm = s.stm := rfl
@[simp] theorem sendOn_pst (ring : Ring) (dest : Nat) (body : Body) : (sendOn ring dest body s).pst = s.pst := rfl
@[simp] theorem sendOn_cau (ring : Ring) (dest : Nat) (body : Body) : (sendOn ring dest body s).cau = s.cau := rfl
@[simp] theorem sendOn_din (ring : Ring) (dest : Nat) (body : Body) : (sendOn ring dest body s).din = s.din := rfl
@[simp] theorem sendOn_gtb (ring : Ring) (dest : Nat) (body : Body) : (sendOn ring dest body s).gtb = s.gtb := rfl
@[simp] theorem sendOn_ale (ring : Ring) (dest : Nat) (body : Body) : (sendOn ring dest body s).ale = s.ale := rfl
@[simp] theorem sendOn_chu (ring : Ring) (dest : Nat) (body : Body) : (sendOn ring dest body s).chu = s.chu := rfl
@[simp] theorem sendOn_ssu (ring : Ring) (dest : Nat) (body : Body) : (sendOn ring dest body s).ssu = s.ssu := rfl
@[simp] theorem sendOn_alc (ring : Ring) (dest : Nat) (body : Body) : (sendOn ring dest body s).alc = s.alc := rfl
@[simp] theorem sendOn_mgu (ring : Ring) (dest : Nat) (body : Body) : (sendOn ring dest body s).mgu = s.mgu := rfl
@[simp] theorem sendOn_sent (ring : Ring) (dest : Nat) (body : Body) :
    (sendOn ring dest body s).sent = s.sent ++ [⟨ring, dest, body⟩] := rfl
@[simp] theorem sendOn_pending (ring : Ring) (dest : Nat) (body : Body) : (sendOn ring dest body s).pending =
      s.pending := rfl
@[simp] theorem sendOn_resource (ring : Ring) (dest : Nat) (body : Body) : (sendOn ring dest body s).resource =
      s.resource := rfl
@[simp] theorem sendOn_point (ring : Ring) (dest : Nat) (body : Body) : (sendOn ring dest body s).point = s.point := rfl
@[simp] theorem sendOn_client (ring : Ring) (dest : Nat) (body : Body) : (sendOn ring dest body s).client = s.client
      := rfl
@[simp] theorem sendOn_holder (ring : Ring) (dest : Nat) (body : Body) : (sendOn ring dest body s).holder = s.holder
      := rfl
@[simp] theorem sendOn_generation (ring : Ring) (dest : Nat) (body : Body) : (sendOn ring dest body s).generation =
      s.generation := rfl
@[simp] theorem sendOn_isFrozen (ring : Ring) (dest : Nat) (body : Body) : (sendOn ring dest body s).isFrozen =
      s.isFrozen := rfl
@[simp] theorem sendOn_record (ring : Ring) (dest : Nat) (body : Body) : (sendOn ring dest body s).record = s.record
      := rfl
@[simp] theorem sendOn_channel (ring : Ring) (dest : Nat) (body : Body) : (sendOn ring dest body s).channel =
      s.channel := rfl
@[simp] theorem sendOn_slot (ring : Ring) (dest : Nat) (body : Body) : (sendOn ring dest body s).slot = s.slot := rfl
@[simp] theorem sendOn_station (ring : Ring) (dest : Nat) (body : Body) : (sendOn ring dest body s).station =
      s.station := rfl
@[simp] theorem sendOn_count (ring : Ring) (dest : Nat) (body : Body) : (sendOn ring dest body s).count = s.count := rfl

/-! ## originate -/
@[simp] theorem originate_now (dest : Nat) (body : Body) : (originate dest body s).now = s.now := rfl
@[simp] theorem originate_lpu (dest : Nat) (body : Body) : (originate dest body s).lpu = s.lpu := rfl
@[simp] theorem originate_fsu (dest : Nat) (body : Body) : (originate dest body s).fsu = s.fsu := rfl
@[simp] theorem originate_stm (dest : Nat) (body : Body) : (originate dest body s).stm = s.stm := rfl
@[simp] theorem originate_pst (dest : Nat) (body : Body) : (originate dest body s).pst = s.pst := rfl
@[simp] theorem originate_cau (dest : Nat) (body : Body) : (originate dest body s).cau = s.cau := rfl
@[simp] theorem originate_din (dest : Nat) (body : Body) : (originate dest body s).din = s.din := rfl
@[simp] theorem originate_gtb (dest : Nat) (body : Body) : (originate dest body s).gtb = s.gtb := rfl
@[simp] theorem originate_ale (dest : Nat) (body : Body) : (originate dest body s).ale = s.ale := rfl
@[simp] theorem originate_chu (dest : Nat) (body : Body) : (originate dest body s).chu = s.chu := rfl
@[simp] theorem originate_ssu (dest : Nat) (body : Body) : (originate dest body s).ssu = s.ssu := rfl
@[simp] theorem originate_alc (dest : Nat) (body : Body) : (originate dest body s).alc = s.alc := rfl
@[simp] theorem originate_mgu (dest : Nat) (body : Body) : (originate dest body s).mgu = s.mgu := rfl
@[simp] theorem originate_sent (dest : Nat) (body : Body) :
    (originate dest body s).sent = s.sent ++ [⟨originRing s.lpu.loop, dest, body⟩] := rfl
@[simp] theorem originate_pending (dest : Nat) (body : Body) : (originate dest body s).pending = s.pending := rfl
@[simp] theorem originate_resource (dest : Nat) (body : Body) : (originate dest body s).resource = s.resource := rfl
@[simp] theorem originate_point (dest : Nat) (body : Body) : (originate dest body s).point = s.point := rfl
@[simp] theorem originate_client (dest : Nat) (body : Body) : (originate dest body s).client = s.client := rfl
@[simp] theorem originate_holder (dest : Nat) (body : Body) : (originate dest body s).holder = s.holder := rfl
@[simp] theorem originate_generation (dest : Nat) (body : Body) : (originate dest body s).generation = s.generation
      := rfl
@[simp] theorem originate_isFrozen (dest : Nat) (body : Body) : (originate dest body s).isFrozen = s.isFrozen := rfl
@[simp] theorem originate_record (dest : Nat) (body : Body) : (originate dest body s).record = s.record := rfl
@[simp] theorem originate_channel (dest : Nat) (body : Body) : (originate dest body s).channel = s.channel := rfl
@[simp] theorem originate_slot (dest : Nat) (body : Body) : (originate dest body s).slot = s.slot := rfl
@[simp] theorem originate_station (dest : Nat) (body : Body) : (originate dest body s).station = s.station := rfl
@[simp] theorem originate_count (dest : Nat) (body : Body) : (originate dest body s).count = s.count := rfl

/-! ## bumpGeneration -/
@[simp] theorem bumpGeneration_now (r : Nat) : (bumpGeneration r s).now = s.now := rfl
@[simp] theorem bumpGeneration_lpu (r : Nat) : (bumpGeneration r s).lpu = s.lpu := rfl
@[simp] theorem bumpGeneration_fsu (r : Nat) : (bumpGeneration r s).fsu = s.fsu := rfl
@[simp] theorem bumpGeneration_stm (r : Nat) : (bumpGeneration r s).stm = s.stm := rfl
@[simp] theorem bumpGeneration_pst (r : Nat) : (bumpGeneration r s).pst = s.pst := rfl
@[simp] theorem bumpGeneration_cau (r : Nat) : (bumpGeneration r s).cau = s.cau := rfl
@[simp] theorem bumpGeneration_din (r : Nat) : (bumpGeneration r s).din = s.din := rfl
@[simp] theorem bumpGeneration_gtb (r : Nat) :
    (bumpGeneration r s).gtb = { s.gtb with generations := s.gtb.generations.set r ((s.gtb.generations.get r + 1) %
      256) } := rfl
@[simp] theorem bumpGeneration_ale (r : Nat) : (bumpGeneration r s).ale = s.ale := rfl
@[simp] theorem bumpGeneration_chu (r : Nat) : (bumpGeneration r s).chu = s.chu := rfl
@[simp] theorem bumpGeneration_ssu (r : Nat) : (bumpGeneration r s).ssu = s.ssu := rfl
@[simp] theorem bumpGeneration_alc (r : Nat) : (bumpGeneration r s).alc = s.alc := rfl
@[simp] theorem bumpGeneration_mgu (r : Nat) : (bumpGeneration r s).mgu = s.mgu := rfl
@[simp] theorem bumpGeneration_sent (r : Nat) : (bumpGeneration r s).sent = s.sent := rfl
@[simp] theorem bumpGeneration_pending (r : Nat) : (bumpGeneration r s).pending = s.pending := rfl
@[simp] theorem bumpGeneration_resource (r : Nat) : (bumpGeneration r s).resource = s.resource := rfl
@[simp] theorem bumpGeneration_point (r : Nat) : (bumpGeneration r s).point = s.point := rfl
@[simp] theorem bumpGeneration_client (r : Nat) : (bumpGeneration r s).client = s.client := rfl
@[simp] theorem bumpGeneration_holder (r : Nat) : (bumpGeneration r s).holder = s.holder := rfl
@[simp] theorem bumpGeneration_isFrozen (r : Nat) : (bumpGeneration r s).isFrozen = s.isFrozen := rfl
@[simp] theorem bumpGeneration_record (r : Nat) : (bumpGeneration r s).record = s.record := rfl
@[simp] theorem bumpGeneration_channel (r : Nat) : (bumpGeneration r s).channel = s.channel := rfl
@[simp] theorem bumpGeneration_slot (r : Nat) : (bumpGeneration r s).slot = s.slot := rfl
@[simp] theorem bumpGeneration_station (r : Nat) : (bumpGeneration r s).station = s.station := rfl
@[simp] theorem bumpGeneration_count (r : Nat) : (bumpGeneration r s).count = s.count := rfl

/-! ## removePrf -/
@[simp] theorem removePrf_now (r c : Nat) : (removePrf r c s).now = s.now := rfl
@[simp] theorem removePrf_lpu (r c : Nat) : (removePrf r c s).lpu = s.lpu := rfl
@[simp] theorem removePrf_fsu (r c : Nat) : (removePrf r c s).fsu = s.fsu := rfl
@[simp] theorem removePrf_stm (r c : Nat) : (removePrf r c s).stm = s.stm := rfl
@[simp] theorem removePrf_pst (r c : Nat) : (removePrf r c s).pst = s.pst := rfl
@[simp] theorem removePrf_cau (r c : Nat) : (removePrf r c s).cau = s.cau := rfl
@[simp] theorem removePrf_din (r c : Nat) :
    (removePrf r c s).din = { s.din with prf := s.din.prf.filter fun e => !(e.client == c && e.resource == r) } := rfl
@[simp] theorem removePrf_gtb (r c : Nat) : (removePrf r c s).gtb = s.gtb := rfl
@[simp] theorem removePrf_ale (r c : Nat) : (removePrf r c s).ale = s.ale := rfl
@[simp] theorem removePrf_chu (r c : Nat) : (removePrf r c s).chu = s.chu := rfl
@[simp] theorem removePrf_ssu (r c : Nat) : (removePrf r c s).ssu = s.ssu := rfl
@[simp] theorem removePrf_alc (r c : Nat) : (removePrf r c s).alc = s.alc := rfl
@[simp] theorem removePrf_mgu (r c : Nat) : (removePrf r c s).mgu = s.mgu := rfl
@[simp] theorem removePrf_sent (r c : Nat) : (removePrf r c s).sent = s.sent := rfl
@[simp] theorem removePrf_pending (r c : Nat) : (removePrf r c s).pending = s.pending := rfl
@[simp] theorem removePrf_resource (r c : Nat) : (removePrf r c s).resource = s.resource := rfl
@[simp] theorem removePrf_point (r c : Nat) : (removePrf r c s).point = s.point := rfl
@[simp] theorem removePrf_client (r c : Nat) : (removePrf r c s).client = s.client := rfl
@[simp] theorem removePrf_holder (r c : Nat) : (removePrf r c s).holder = s.holder := rfl
@[simp] theorem removePrf_generation (r c : Nat) : (removePrf r c s).generation = s.generation := rfl
@[simp] theorem removePrf_isFrozen (r c : Nat) : (removePrf r c s).isFrozen = s.isFrozen := rfl
@[simp] theorem removePrf_record (r c : Nat) : (removePrf r c s).record = s.record := rfl
@[simp] theorem removePrf_channel (r c : Nat) : (removePrf r c s).channel = s.channel := rfl
@[simp] theorem removePrf_slot (r c : Nat) : (removePrf r c s).slot = s.slot := rfl
@[simp] theorem removePrf_station (r c : Nat) : (removePrf r c s).station = s.station := rfl
@[simp] theorem removePrf_count (r c : Nat) : (removePrf r c s).count = s.count := rfl

/-! ## tick -/
@[simp] theorem tick_now : (tick s).now = s.now + 1 := rfl
@[simp] theorem tick_lpu : (tick s).lpu = s.lpu := rfl
@[simp] theorem tick_fsu : (tick s).fsu = s.fsu := rfl
@[simp] theorem tick_stm : (tick s).stm = s.stm := rfl
@[simp] theorem tick_pst : (tick s).pst = s.pst := rfl
@[simp] theorem tick_cau : (tick s).cau = s.cau := rfl
@[simp] theorem tick_din : (tick s).din = s.din := rfl
@[simp] theorem tick_gtb : (tick s).gtb = s.gtb := rfl
@[simp] theorem tick_ale : (tick s).ale = s.ale := rfl
@[simp] theorem tick_chu : (tick s).chu = s.chu := rfl
@[simp] theorem tick_ssu : (tick s).ssu = s.ssu := rfl
@[simp] theorem tick_alc : (tick s).alc = s.alc := rfl
@[simp] theorem tick_mgu : (tick s).mgu = s.mgu := rfl
@[simp] theorem tick_sent : (tick s).sent = s.sent := rfl
@[simp] theorem tick_pending : (tick s).pending = s.pending := rfl
@[simp] theorem tick_resource : (tick s).resource = s.resource := rfl
@[simp] theorem tick_point : (tick s).point = s.point := rfl
@[simp] theorem tick_client : (tick s).client = s.client := rfl
@[simp] theorem tick_holder : (tick s).holder = s.holder := rfl
@[simp] theorem tick_generation : (tick s).generation = s.generation := rfl
@[simp] theorem tick_isFrozen : (tick s).isFrozen = s.isFrozen := rfl
@[simp] theorem tick_record : (tick s).record = s.record := rfl
@[simp] theorem tick_channel : (tick s).channel = s.channel := rfl
@[simp] theorem tick_slot : (tick s).slot = s.slot := rfl
@[simp] theorem tick_station : (tick s).station = s.station := rfl
@[simp] theorem tick_count : (tick s).count = s.count := rfl

/-! ## markRenewed -/
@[simp] theorem markRenewed_now (c : Nat) : (markRenewed c s).now = s.now := rfl
@[simp] theorem markRenewed_lpu (c : Nat) : (markRenewed c s).lpu = s.lpu := rfl
@[simp] theorem markRenewed_fsu (c : Nat) : (markRenewed c s).fsu = s.fsu := rfl
@[simp] theorem markRenewed_stm (c : Nat) : (markRenewed c s).stm = s.stm := rfl
@[simp] theorem markRenewed_pst (c : Nat) : (markRenewed c s).pst = s.pst := rfl
@[simp] theorem markRenewed_cau (c : Nat) : (markRenewed c s).cau = s.cau := rfl
@[simp] theorem markRenewed_din (c : Nat) :
    (markRenewed c s).din = { s.din with clients := s.din.clients.set c { s.client c with lapseAlert := true } } := rfl
@[simp] theorem markRenewed_gtb (c : Nat) : (markRenewed c s).gtb = s.gtb := rfl
@[simp] theorem markRenewed_ale (c : Nat) : (markRenewed c s).ale = s.ale := rfl
@[simp] theorem markRenewed_chu (c : Nat) : (markRenewed c s).chu = s.chu := rfl
@[simp] theorem markRenewed_ssu (c : Nat) : (markRenewed c s).ssu = s.ssu := rfl
@[simp] theorem markRenewed_alc (c : Nat) : (markRenewed c s).alc = s.alc := rfl
@[simp] theorem markRenewed_mgu (c : Nat) : (markRenewed c s).mgu = s.mgu := rfl
@[simp] theorem markRenewed_sent (c : Nat) : (markRenewed c s).sent = s.sent := rfl
@[simp] theorem markRenewed_pending (c : Nat) : (markRenewed c s).pending = s.pending := rfl
@[simp] theorem markRenewed_resource (c : Nat) : (markRenewed c s).resource = s.resource := rfl
@[simp] theorem markRenewed_point (c : Nat) : (markRenewed c s).point = s.point := rfl
@[simp] theorem markRenewed_holder (c : Nat) : (markRenewed c s).holder = s.holder := rfl
@[simp] theorem markRenewed_generation (c : Nat) : (markRenewed c s).generation = s.generation := rfl
@[simp] theorem markRenewed_isFrozen (c : Nat) : (markRenewed c s).isFrozen = s.isFrozen := rfl
@[simp] theorem markRenewed_record (c : Nat) : (markRenewed c s).record = s.record := rfl
@[simp] theorem markRenewed_channel (c : Nat) : (markRenewed c s).channel = s.channel := rfl
@[simp] theorem markRenewed_slot (c : Nat) : (markRenewed c s).slot = s.slot := rfl
@[simp] theorem markRenewed_station (c : Nat) : (markRenewed c s).station = s.station := rfl
@[simp] theorem markRenewed_count (c : Nat) : (markRenewed c s).count = s.count := rfl

/-! ## withHolder -/
@[simp] theorem withHolder_now (r c n : Nat) (h : Holder) : (withHolder r c n h s).now = s.now := rfl
@[simp] theorem withHolder_lpu (r c n : Nat) (h : Holder) : (withHolder r c n h s).lpu = s.lpu := rfl
@[simp] theorem withHolder_fsu (r c n : Nat) (h : Holder) : (withHolder r c n h s).fsu = s.fsu := rfl
@[simp] theorem withHolder_stm (r c n : Nat) (h : Holder) : (withHolder r c n h s).stm = s.stm := rfl
@[simp] theorem withHolder_pst (r c n : Nat) (h : Holder) : (withHolder r c n h s).pst = s.pst := rfl
@[simp] theorem withHolder_cau (r c n : Nat) (h : Holder) : (withHolder r c n h s).cau = s.cau := rfl
@[simp] theorem withHolder_din (r c n : Nat) (h : Holder) : (withHolder r c n h s).din = s.din := rfl
@[simp] theorem withHolder_gtb (r c n : Nat) (h : Holder) :
    (withHolder r c n h s).gtb = { s.gtb with
      holders := s.gtb.holders.set r ((s.gtb.holders.get r).set c h)
      generations := s.gtb.generations.set r ((s.gtb.generations.get r + n) % 256) } := rfl
@[simp] theorem withHolder_ale (r c n : Nat) (h : Holder) : (withHolder r c n h s).ale = s.ale := rfl
@[simp] theorem withHolder_chu (r c n : Nat) (h : Holder) : (withHolder r c n h s).chu = s.chu := rfl
@[simp] theorem withHolder_ssu (r c n : Nat) (h : Holder) : (withHolder r c n h s).ssu = s.ssu := rfl
@[simp] theorem withHolder_alc (r c n : Nat) (h : Holder) : (withHolder r c n h s).alc = s.alc := rfl
@[simp] theorem withHolder_mgu (r c n : Nat) (h : Holder) : (withHolder r c n h s).mgu = s.mgu := rfl
@[simp] theorem withHolder_sent (r c n : Nat) (h : Holder) : (withHolder r c n h s).sent = s.sent := rfl
@[simp] theorem withHolder_pending (r c n : Nat) (h : Holder) : (withHolder r c n h s).pending = s.pending := rfl
@[simp] theorem withHolder_resource (r c n : Nat) (h : Holder) : (withHolder r c n h s).resource = s.resource := rfl
@[simp] theorem withHolder_point (r c n : Nat) (h : Holder) : (withHolder r c n h s).point = s.point := rfl
@[simp] theorem withHolder_client (r c n : Nat) (h : Holder) : (withHolder r c n h s).client = s.client := rfl
@[simp] theorem withHolder_isFrozen (r c n : Nat) (h : Holder) : (withHolder r c n h s).isFrozen = s.isFrozen := rfl
@[simp] theorem withHolder_record (r c n : Nat) (h : Holder) : (withHolder r c n h s).record = s.record := rfl
@[simp] theorem withHolder_channel (r c n : Nat) (h : Holder) : (withHolder r c n h s).channel = s.channel := rfl
@[simp] theorem withHolder_slot (r c n : Nat) (h : Holder) : (withHolder r c n h s).slot = s.slot := rfl
@[simp] theorem withHolder_station (r c n : Nat) (h : Holder) : (withHolder r c n h s).station = s.station := rfl
@[simp] theorem withHolder_count (r c n : Nat) (h : Holder) : (withHolder r c n h s).count = s.count := rfl

end Sys2Proof.Machine
end

