-- ==== Sys2Proof/Laws/Records.lean ====
section
/-! SUPPORT. Records read back: each numbered record after a write of the same kind of record, the counts, and the searches
that read records. -/

namespace Sys2Proof.Machine

variable (s : State)

/-! ## A record after a write of its own kind -/

theorem resource_setResource (r r' : Nat) (x : Resource) :
    (s.setResource r x).resource r' = if r = r' ∧ r' < 12 then x else s.resource r' := Table.get_set _ _ _ _

theorem point_setPoint (p p' : Nat) (x : Point) :
    (s.setPoint p x).point p' = if p = p' ∧ p' < 48 then x else s.point p' := Table.get_set _ _ _ _

theorem client_setClient (c c' : Nat) (x : Client) :
    (s.setClient c x).client c' = if c = c' ∧ c' < 3 then x else s.client c' := Table.get_set _ _ _ _

theorem record_setRecord (k k' : Nat) (x : Option Revocation) :
    (s.setRecord k x).record k' = if k = k' ∧ k' < 8 then x else s.record k' := Table.get_set _ _ _ _

theorem channel_setChannel (n n' : Nat) (x : Option Channel) :
    (s.setChannel n x).channel n' = if n = n' ∧ n' < 16 then x else s.channel n' := Table.get_set _ _ _ _

theorem slot_setSlot (k k' : Nat) (x : Option Slot) :
    (s.setSlot k x).slot k' = if k = k' ∧ k' < 4 then x else s.slot k' := Table.get_set _ _ _ _

theorem station_setStation (i i' : Nat) (x : Option Station) :
    (s.setStation i x).station i' = if i = i' ∧ i' < 30 then x else s.station i' := Table.get_set _ _ _ _

theorem generation_bumpGeneration (r r' : Nat) :
    (bumpGeneration r s).generation r' =
      if r = r' ∧ r' < 12 then (s.generation r + 1) % 256 else s.generation r' := Table.get_set _ _ _ _

/-! ## Records that exist: a record read as present has a number of its table -/

theorem record_lt {k : Nat} {v : Revocation} (h : s.record k = some v) : k < 8 := by
  by_contra hk
  rw [State.record, Table.get_beyond _ _ (by omega)] at h; cases h

theorem channel_lt {n : Nat} {ch : Channel} (h : s.channel n = some ch) : n < 16 := by
  by_contra hk
  rw [State.channel, Table.get_beyond _ _ (by omega)] at h; cases h

theorem slot_lt {k : Nat} {sl : Slot} (h : s.slot k = some sl) : k < 4 := by
  by_contra hk
  rw [State.slot, Table.get_beyond _ _ (by omega)] at h; cases h

theorem station_lt {i : Nat} {st : Station} (h : s.station i = some st) : i < 30 := by
  by_contra hk
  rw [State.station, Table.get_beyond _ _ (by omega)] at h; cases h

theorem entry_lt {c : Nat} {e : ClientEntry} (h : (s.client c).entry = some e) : c < 3 := by
  by_contra hk
  rw [State.client, Table.get_beyond _ _ (by omega)] at h; cases h

/-! ## Holders -/

theorem Holders.get_set (hs : Holders) (c c' : Nat) (h : Holder) :
    (hs.set c h).get c' = if c = c' ∧ c' < 3 then h else hs.get c' := by
  match c, c' with
  | 0, 0 | 0, 1 | 0, 2 | 1, 0 | 1, 1 | 1, 2 | 2, 0 | 2, 1 | 2, 2 => rfl
  | 0, _ + 3 | 1, _ + 3 | 2, _ + 3 => rfl
  | _ + 3, 0 | _ + 3, 1 | _ + 3, 2 => rfl
  | _ + 3, _ + 3 => simp [Holders.get]

@[simp] theorem Holders.set_set (hs : Holders) (c : Nat) (h h' : Holder) : (hs.set c h).set c h' = hs.set c h' := by
  match c with
  | 0 | 1 | 2 | _ + 3 => rfl

@[simp] theorem Holders.get_beyond (hs : Holders) {c : Nat} (h : 3 ≤ c) : hs.get c = {} := by
  match c, h with
  | _ + 3, _ => rfl

/-- A holder's number outside the tables reads as NONE. -/
theorem holder_beyond {r c : Nat} (h : 12 ≤ r ∨ 3 ≤ c) : s.holder r c = {} := by
  rcases h with h | h
  · rw [State.holder, Table.get_beyond _ _ h]
    match c with
    | 0 | 1 | 2 | _ + 3 => rfl
  · exact Holders.get_beyond _ h

theorem holder_setHolder (r c r' c' : Nat) (h : Holder) :
    (s.setHolder r c h).holder r' c' = if r = r' ∧ c = c' ∧ r' < 12 ∧ c' < 3 then h else s.holder r' c' := by
  simp only [State.holder, State.setHolder, Table.get_set]
  by_cases hr : r = r' ∧ r' < 12
  · obtain ⟨rfl, hr⟩ := hr
    simp only [hr, and_self, if_true, Holders.get_set, true_and]
  · rw [if_neg hr, if_neg (fun h => hr ⟨h.1, h.2.2.1⟩)]

@[simp] theorem holder_setHolder_same {r c : Nat} (h : Holder) (hr : r < 12) (hc : c < 3) :
    (s.setHolder r c h).holder r c = h := by simp [holder_setHolder, hr, hc]

theorem holder_setHolder_ne {r c r' c' : Nat} (h : Holder) (hne : (r', c') ≠ (r, c)) :
    (s.setHolder r c h).holder r' c' = s.holder r' c' := by
  rw [holder_setHolder, if_neg]
  rintro ⟨rfl, rfl, -⟩
  exact hne rfl

@[simp] theorem setHolder_setHolder (r c : Nat) (h h' : Holder) :
    (s.setHolder r c h).setHolder r c h' = s.setHolder r c h' := by
  simp only [State.setHolder]
  by_cases hr : r < 12
  · simp only [Table.get_set_same _ _ hr, Table.set_set, Holders.set_set]
  · simp [Table.set_beyond _ _ (Nat.le_of_not_lt hr)]

/-- Two states with the same holders, entry by entry, have the same holder table. -/
theorem holders_ext {s t : State} (h : ∀ r c, r < 12 → c < 3 → t.holder r c = s.holder r c) :
    t.gtb.holders = s.gtb.holders := by
  apply Table.ext_get
  intro r hr
  have h0 := h r 0 hr (by omega)
  have h1 := h r 1 hr (by omega)
  have h2 := h r 2 hr (by omega)
  simp only [State.holder, Holders.get] at h0 h1 h2
  cases ht : t.gtb.holders.get r
  cases hs : s.gtb.holders.get r
  simp_all

/-! ## Counts -/

theorem Count.number_injective {c c' : Count} (h : c.number = c'.number) : c = c' := by
  cases c <;> cases c' <;> first | rfl | simp [Count.number] at h

theorem Count.number_lt (c : Count) : c.number < 20 := by cases c <;> simp [Count.number]

theorem count_countBy (c c' : Count) (n : Nat) :
    (countBy c n s).count c' = if c = c' then min 65535 (s.count c + n) else s.count c' := by
  simp only [State.count, countBy, Table.get_set]
  by_cases h : c = c'
  · subst h; simp [c.number_lt]
  · have : c.number ≠ c'.number := fun e => h (Count.number_injective e)
    simp [h, this]

theorem count_countEvent (c c' : Count) :
    (countEvent c s).count c' = if c = c' then raised (s.count c) else s.count c' := count_countBy s c c' 1

@[simp] theorem count_countEvent_same (c : Count) : (countEvent c s).count c = raised (s.count c) := by
  simp [count_countEvent]

@[simp] theorem count_countEvent_ne {c c' : Count} (h : c ≠ c') : (countEvent c s).count c' = s.count c' := by
  simp [count_countEvent, h]

/-! ## Searches read only the records they search -/

theorem stationRecord_congr {s t : State} (h : t.stm.stations = s.stm.stations) (a : Nat) :
    stationRecord a t = stationRecord a s := by simp only [stationRecord, State.station, h]

theorem stationAt_congr {s t : State} (h : t.stm.stations = s.stm.stations) (a : Nat) :
    stationAt a t = stationAt a s := by
  simp only [stationAt, stationRecord_congr h]; cases stationRecord a s <;> simp [State.station, h]

theorem stationFaulty_congr {s t : State} (h : t.stm.stations = s.stm.stations) (a : Nat) :
    stationFaulty a t = stationFaulty a s := by simp only [stationFaulty, stationAt_congr h]

theorem clientOf_congr {s t : State} (h : ∀ c, (t.client c).entry = (s.client c).entry) (a : Nat) :
    clientOf a t = clientOf a s := by simp only [clientOf, h]

theorem takenClient_congr {s t : State} (hs : t.stm.stations = s.stm.stations)
    (h : ∀ c, (t.client c).entry = (s.client c).entry) (a : Nat) : takenClient a t = takenClient a s := by
  simp only [takenClient, stationFaulty_congr hs, clientOf_congr h]

theorem channelOf_congr {s t : State} (h : t.chu.channels = s.chu.channels) (a o : Nat) :
    channelOf t a o = channelOf s a o := by simp only [channelOf, State.channel, h]

theorem pointOf_congr {s t : State} (h : ∀ p, (t.point p).source = (s.point p).source) (a k : Nat) :
    pointOf t a k = pointOf s a k := by simp only [pointOf, h]

theorem recordNames_congr {s t : State} (h : t.gtb.records = s.gtb.records) (r : Nat) :
    recordNames t r = recordNames s r := by simp only [recordNames, recordsNaming, State.record, h]

theorem recordOf_congr {s t : State} (h : t.gtb.records = s.gtb.records) (r c : Nat) :
    recordOf t r c = recordOf s r c := by simp only [recordOf, State.record, h]

/-- A live record names the resource, as statements say it. -/
theorem recordNames_iff (r : Nat) : recordNames s r = true ↔ RecordNames s r := by
  simp only [recordNames, recordsNaming, RecordNames, Bool.not_eq_true', List.isEmpty_eq_false_iff_exists_mem,
    List.mem_filter, List.mem_range]
  constructor
  · rintro ⟨k, -, hk⟩
    cases h : s.record k with
    | none => simp [h] at hk
    | some v => exact ⟨k, v, h, by simpa [h] using hk⟩
  · rintro ⟨k, v, h, rfl⟩
    exact ⟨k, record_lt s h, by simp [h]⟩

/-- Some other client's holder is in one of the states listed, as statements say it. -/
theorem someOther_iff (r c : Nat) (p : Holder → Bool) (l : List HolderState)
    (h : ∀ x, p x = true ↔ x.state ∈ l) : someOther s r c p = true ↔ OtherIn s r c l := by
  simp only [someOther, otherClients, OtherIn, List.any_eq_true, List.mem_filter, List.mem_cons, List.not_mem_nil,
    or_false, decide_eq_true_eq, h]
  constructor
  · rintro ⟨c', ⟨h1, h2⟩, h3⟩; exact ⟨c', by omega, h2, h3⟩
  · rintro ⟨c', h1, h2, h3⟩; exact ⟨c', ⟨by omega, h2⟩, h3⟩

/-- The station record found holds a loaded record with the address, the lowest-numbered one. -/
theorem stationRecord_some {a i : Nat} {s : State} (h : stationRecord a s = some i) :
    i < 30 ∧ ∃ st, s.station i = some st ∧ st.address = a := by
  obtain ⟨h1, h2, -⟩ := lowest_eq_some.mp h
  refine ⟨h1, ?_⟩
  cases hs : s.station i with
  | none => simp [hs] at h2
  | some st => exact ⟨st, rfl, by simpa [hs] using h2⟩

/-- A station record rewritten with its address kept leaves every search for an address as it was. -/
theorem stationRecord_setStation {s : State} {i b : Nat} {st st' : Station} (h : s.station i = some st)
    (ha : st'.address = st.address) : stationRecord b (s.setStation i (some st')) = stationRecord b s := by
  unfold stationRecord
  congr 1; funext j
  rw [station_setStation]
  by_cases hj : i = j
  · subst hj; simp [station_lt s h, h, ha]
  · simp [hj]

theorem channelOf_some {a o n : Nat} {s : State} (h : channelOf s a o = some n) :
    n < 16 ∧ ∃ ch, s.channel n = some ch ∧ ch.station = a ∧ ch.output = o := by
  obtain ⟨h1, h2, -⟩ := lowest_eq_some.mp h
  refine ⟨h1, ?_⟩
  cases hs : s.channel n with
  | none => simp [hs] at h2
  | some ch => exact ⟨ch, rfl, by simpa [hs] using h2⟩

theorem pointOf_some {a k p : Nat} {s : State} (h : pointOf s a k = some p) :
    p < 48 ∧ (s.point p).source = some (a, k) := by
  obtain ⟨h1, h2, -⟩ := lowest_eq_some.mp h
  exact ⟨h1, by simpa using h2⟩

theorem takenClient_lt {a c : Nat} {s : State} (h : takenClient a s = some c) : c < 3 := by
  simp only [takenClient] at h
  split at h
  · cases h
  · exact (lowest_eq_some.mp h).1

end Sys2Proof.Machine
end

