-- ==== Sys2Proof/Laws/Frames.lean ====
section
/-! SUPPORT. What each shared operation leaves as it was. `OnlyX s t` says that from `s` to `t` only what the word X stands
for has changed, block by block and field by field; one lemma for each operation says which of them it obeys, and `simp`
reads each as the list of its unchanged parts. -/

namespace Sys2Proof.Machine

/-! ## A list of numbers worked through -/

/-- What every application keeps, working through a list keeps. -/
theorem forEach_induct {P : State → Prop} {f : Nat → State → State} (l : List Nat) {s : State} (hs : P s)
    (h : ∀ i ∈ l, ∀ t, P t → P (f i t)) : P (forEach l f s) := by
  induction l generalizing s with
  | nil => exact hs
  | cons i l ih => exact ih (h i (by simp) s hs) fun j hj => h j (by simp [hj])

/-- What no application changes, working through a list does not change. -/
theorem forEach_keeps {β : Type} (g : State → β) {f : Nat → State → State} (l : List Nat) (s : State)
    (h : ∀ i ∈ l, ∀ t, g (f i t) = g t) : g (forEach l f s) = g s :=
  forEach_induct (P := fun t => g t = g s) l rfl fun i hi t ht => (h i hi t).trans ht

/-- One number's record after a list without repeats is worked through: what the application for that number makes of it,
in a state where the record stands as at the start and the invariant `P` holds. -/
theorem forEach_at {α : Type} (get : State → Nat → α) (P : State → Prop) {f : Nat → State → State} {l : List Nat}
    (hl : l.Nodup) {n : Nat} (hn : n ∈ l) {s : State} (hs : P s) (hP : ∀ i ∈ l, ∀ t, P t → P (f i t))
    (hg : ∀ i ∈ l, i ≠ n → ∀ t, P t → get (f i t) n = get t n) :
    ∃ t, P t ∧ get t n = get s n ∧ get (forEach l f s) n = get (f n t) n := by
  induction l generalizing s with
  | nil => cases hn
  | cons i l ih =>
    have hi := (List.nodup_cons.mp hl).1
    by_cases h : i = n
    · subst h
      refine ⟨s, hs, rfl, ?_⟩
      have := forEach_induct (P := fun t => P t ∧ get t i = get (f i s) i) (f := f) l
        ⟨hP i (by simp) s hs, rfl⟩ fun j hj t ht =>
          ⟨hP j (by simp [hj]) t ht.1, (hg j (by simp [hj]) (fun e => hi (e ▸ hj)) t ht.1).trans ht.2⟩
      exact this.2
    · obtain ⟨t, h1, h2, h3⟩ := ih (List.nodup_cons.mp hl).2 (by simpa [Ne.symm h] using hn) (hP i (by simp) s hs)
        (fun j hj => hP j (by simp [hj])) (fun j hj => hg j (by simp [hj]))
      exact ⟨t, h1, h2.trans (hg i (by simp) h s hs), h3⟩

/-- A record no application touches stays. -/
theorem forEach_other {α : Type} (get : State → Nat → α) {f : Nat → State → State} {l : List Nat} {n : Nat}
    (s : State) (hg : ∀ i ∈ l, ∀ t, get (f i t) n = get t n) : get (forEach l f s) n = get s n :=
  forEach_keeps (get · n) l s hg

@[simp] theorem forEach_nil (f : Nat → State → State) (s : State) : forEach [] f s = s := rfl

@[simp] theorem forEach_cons (i : Nat) (l : List Nat) (f : Nat → State → State) (s : State) :
    forEach (i :: l) f s = forEach l f (f i s) := rfl

/-! ## The parts that change together -/

/-- From `s` to `t` only the frames sent may have changed. -/
@[simp] abbrev OnlySent (s t : State) : Prop :=
  t.now = s.now ∧ t.lpu = s.lpu ∧ t.fsu = s.fsu ∧ t.stm = s.stm ∧ t.pst = s.pst ∧ t.cau = s.cau ∧ t.din = s.din ∧
  t.gtb = s.gtb ∧ t.ale = s.ale ∧ t.chu = s.chu ∧ t.ssu = s.ssu ∧ t.alc = s.alc ∧ t.mgu = s.mgu ∧
  t.pending = s.pending

/-- From `s` to `t` only the alert list, the overflow count and the frames sent may have changed. -/
@[simp] abbrev OnlyAlert (s t : State) : Prop :=
  t.now = s.now ∧ t.lpu = s.lpu ∧ t.fsu = s.fsu ∧ t.stm = s.stm ∧ t.pst = s.pst ∧ t.cau = s.cau ∧ t.din = s.din ∧
  t.gtb = s.gtb ∧ t.ale = s.ale ∧ t.chu = s.chu ∧ t.ssu = s.ssu ∧ t.alc.counts = s.alc.counts ∧ t.mgu = s.mgu ∧
  t.pending = s.pending

/-- From `s` to `t` only the latched inputs of the pass may have changed. -/
@[simp] abbrev OnlyPass (s t : State) : Prop :=
  t.now = s.now ∧ t.lpu = s.lpu ∧ t.fsu = s.fsu ∧ t.stm = s.stm ∧ t.pst = s.pst ∧ t.cau = s.cau ∧ t.din = s.din ∧
  t.gtb = s.gtb ∧ t.ale.passTimer = s.ale.passTimer ∧ t.ale.passPeriod = s.ale.passPeriod ∧
  t.ale.results = s.ale.results ∧ t.chu = s.chu ∧ t.ssu = s.ssu ∧ t.alc = s.alc ∧ t.mgu = s.mgu ∧ t.sent = s.sent ∧
  t.pending = s.pending

/-- From `s` to `t` only what a change of holder state changes may have changed. -/
@[simp] abbrev OnlyMove (s t : State) : Prop :=
  t.now = s.now ∧ t.lpu = s.lpu ∧ t.fsu = s.fsu ∧ t.stm = s.stm ∧ t.pst = s.pst ∧ t.cau = s.cau ∧ t.din = s.din ∧
  t.gtb.frozen = s.gtb.frozen ∧ t.gtb.records = s.gtb.records ∧ t.gtb.probes = s.gtb.probes ∧
  t.ale.passTimer = s.ale.passTimer ∧ t.ale.passPeriod = s.ale.passPeriod ∧ t.ale.results = s.ale.results ∧
  t.chu = s.chu ∧ t.ssu = s.ssu ∧ t.alc = s.alc ∧ t.mgu = s.mgu ∧ t.sent = s.sent ∧ t.pending = s.pending

/-- From `s` to `t` only what a PRF completion changes may have changed. -/
@[simp] abbrev OnlyComplete (s t : State) : Prop :=
  t.now = s.now ∧ t.lpu = s.lpu ∧ t.fsu = s.fsu ∧ t.stm = s.stm ∧ t.pst = s.pst ∧ t.cau = s.cau ∧
  t.din.clients = s.din.clients ∧ t.din.draft = s.din.draft ∧ t.gtb.frozen = s.gtb.frozen ∧
  t.gtb.records = s.gtb.records ∧ t.gtb.probes = s.gtb.probes ∧ t.ale.passTimer = s.ale.passTimer ∧
  t.ale.passPeriod = s.ale.passPeriod ∧ t.ale.results = s.ale.results ∧ t.chu = s.chu ∧ t.ssu = s.ssu ∧
  t.alc = s.alc ∧ t.mgu = s.mgu ∧ t.pending = s.pending

/-- From `s` to `t` only what the freeing of revocation records changes may have changed. -/
@[simp] abbrev OnlyFree (s t : State) : Prop :=
  t.now = s.now ∧ t.lpu = s.lpu ∧ t.fsu = s.fsu ∧ t.stm = s.stm ∧ t.pst = s.pst ∧ t.cau = s.cau ∧
  t.din.clients = s.din.clients ∧ t.din.draft = s.din.draft ∧ t.gtb.frozen = s.gtb.frozen ∧
  t.gtb.probes = s.gtb.probes ∧ t.ale.passTimer = s.ale.passTimer ∧ t.ale.passPeriod = s.ale.passPeriod ∧
  t.ale.results = s.ale.results ∧ t.chu = s.chu ∧ t.ssu = s.ssu ∧ t.alc = s.alc ∧ t.mgu = s.mgu ∧
  t.pending = s.pending

/-- From `s` to `t` only the revocation records may have changed. -/
@[simp] abbrev OnlyRecords (s t : State) : Prop :=
  t.now = s.now ∧ t.lpu = s.lpu ∧ t.fsu = s.fsu ∧ t.stm = s.stm ∧ t.pst = s.pst ∧ t.cau = s.cau ∧ t.din = s.din ∧
  t.gtb.holders = s.gtb.holders ∧ t.gtb.generations = s.gtb.generations ∧ t.gtb.frozen = s.gtb.frozen ∧
  t.gtb.probes = s.gtb.probes ∧ t.ale = s.ale ∧ t.chu = s.chu ∧ t.ssu = s.ssu ∧ t.alc = s.alc ∧ t.mgu = s.mgu ∧
  t.sent = s.sent ∧ t.pending = s.pending

/-- From `s` to `t` only what revocations change may have changed. -/
@[simp] abbrev OnlyRevoke (s t : State) : Prop :=
  t.now = s.now ∧ t.lpu = s.lpu ∧ t.fsu = s.fsu ∧ t.stm = s.stm ∧ t.pst = s.pst ∧ t.cau = s.cau ∧
  t.din.clients = s.din.clients ∧ t.din.draft = s.din.draft ∧ t.gtb.frozen = s.gtb.frozen ∧
  t.gtb.probes = s.gtb.probes ∧ t.ale.passTimer = s.ale.passTimer ∧ t.ale.passPeriod = s.ale.passPeriod ∧
  t.ale.results = s.ale.results ∧ t.chu = s.chu ∧ t.ssu = s.ssu ∧ t.alc.alerts = s.alc.alerts ∧
  t.alc.overflow = s.alc.overflow ∧ t.mgu = s.mgu ∧ t.pending = s.pending

/-- From `s` to `t` only holder entries and clients may have changed. -/
@[simp] abbrev OnlyLease (s t : State) : Prop :=
  t.now = s.now ∧ t.lpu = s.lpu ∧ t.fsu = s.fsu ∧ t.stm = s.stm ∧ t.pst = s.pst ∧ t.cau = s.cau ∧
  t.din.prf = s.din.prf ∧ t.din.draft = s.din.draft ∧ t.gtb.generations = s.gtb.generations ∧
  t.gtb.frozen = s.gtb.frozen ∧ t.gtb.records = s.gtb.records ∧ t.gtb.probes = s.gtb.probes ∧ t.ale = s.ale ∧
  t.chu = s.chu ∧ t.ssu = s.ssu ∧ t.alc = s.alc ∧ t.mgu = s.mgu ∧ t.sent = s.sent ∧ t.pending = s.pending

/-- From `s` to `t` only holder entries may have changed. -/
@[simp] abbrev OnlyHolders (s t : State) : Prop :=
  t.now = s.now ∧ t.lpu = s.lpu ∧ t.fsu = s.fsu ∧ t.stm = s.stm ∧ t.pst = s.pst ∧ t.cau = s.cau ∧ t.din = s.din ∧
  t.gtb.generations = s.gtb.generations ∧ t.gtb.frozen = s.gtb.frozen ∧ t.gtb.records = s.gtb.records ∧
  t.gtb.probes = s.gtb.probes ∧ t.ale = s.ale ∧ t.chu = s.chu ∧ t.ssu = s.ssu ∧ t.alc = s.alc ∧ t.mgu = s.mgu ∧
  t.sent = s.sent ∧ t.pending = s.pending

/-- From `s` to `t` only what a holder that starts to wait changes may have changed. -/
@[simp] abbrev OnlyWait (s t : State) : Prop :=
  t.now = s.now ∧ t.lpu = s.lpu ∧ t.fsu = s.fsu ∧ t.stm = s.stm ∧ t.pst = s.pst ∧ t.cau = s.cau ∧
  t.din.draft = s.din.draft ∧ t.gtb.frozen = s.gtb.frozen ∧ t.gtb.records = s.gtb.records ∧
  t.gtb.probes = s.gtb.probes ∧ t.ale.passTimer = s.ale.passTimer ∧ t.ale.passPeriod = s.ale.passPeriod ∧
  t.ale.results = s.ale.results ∧ t.chu = s.chu ∧ t.ssu = s.ssu ∧ t.alc = s.alc ∧ t.mgu = s.mgu ∧ t.sent = s.sent ∧
  t.pending = s.pending

/-- From `s` to `t` only what a holder that takes a level changes may have changed. -/
@[simp] abbrev OnlyTake (s t : State) : Prop :=
  t.now = s.now ∧ t.lpu = s.lpu ∧ t.fsu = s.fsu ∧ t.stm = s.stm ∧ t.pst = s.pst ∧ t.cau = s.cau ∧
  t.din.prf = s.din.prf ∧ t.din.draft = s.din.draft ∧ t.gtb.frozen = s.gtb.frozen ∧ t.gtb.records = s.gtb.records ∧
  t.gtb.probes = s.gtb.probes ∧ t.ale.passTimer = s.ale.passTimer ∧ t.ale.passPeriod = s.ale.passPeriod ∧
  t.ale.results = s.ale.results ∧ t.chu = s.chu ∧ t.ssu = s.ssu ∧ t.alc = s.alc ∧ t.mgu = s.mgu ∧ t.sent = s.sent ∧
  t.pending = s.pending

/-- From `s` to `t` only what the decision of an item changes may have changed. -/
@[simp] abbrev OnlyDecide (s t : State) : Prop :=
  t.now = s.now ∧ t.lpu = s.lpu ∧ t.fsu = s.fsu ∧ t.stm = s.stm ∧ t.pst = s.pst ∧ t.cau = s.cau ∧
  t.din.draft = s.din.draft ∧ t.gtb.frozen = s.gtb.frozen ∧ t.gtb.probes = s.gtb.probes ∧
  t.ale.passTimer = s.ale.passTimer ∧ t.ale.passPeriod = s.ale.passPeriod ∧ t.ale.results = s.ale.results ∧
  t.chu = s.chu ∧ t.ssu = s.ssu ∧ t.alc.alerts = s.alc.alerts ∧ t.alc.overflow = s.alc.overflow ∧ t.mgu = s.mgu ∧
  t.pending = s.pending

/-- From `s` to `t` only channel records may have changed. -/
@[simp] abbrev OnlyChannels (s t : State) : Prop :=
  t.now = s.now ∧ t.lpu = s.lpu ∧ t.fsu = s.fsu ∧ t.stm = s.stm ∧ t.pst = s.pst ∧ t.cau = s.cau ∧ t.din = s.din ∧
  t.gtb = s.gtb ∧ t.ale = s.ale ∧ t.chu.store = s.chu.store ∧ t.ssu = s.ssu ∧ t.alc = s.alc ∧ t.mgu = s.mgu ∧
  t.sent = s.sent ∧ t.pending = s.pending

/-- From `s` to `t` only what the sending of COMMAND frames changes may have changed. -/
@[simp] abbrev OnlyCommand (s t : State) : Prop :=
  t.now = s.now ∧ t.lpu = s.lpu ∧ t.fsu = s.fsu ∧ t.stm = s.stm ∧ t.pst = s.pst ∧ t.cau = s.cau ∧ t.din = s.din ∧
  t.gtb = s.gtb ∧ t.ale = s.ale ∧ t.chu.store = s.chu.store ∧ t.ssu = s.ssu ∧ t.alc.alerts = s.alc.alerts ∧
  t.alc.overflow = s.alc.overflow ∧ t.mgu = s.mgu ∧ t.pending = s.pending

/-- From `s` to `t` only what a channel fault changes may have changed. -/
@[simp] abbrev OnlyFault (s t : State) : Prop :=
  t.now = s.now ∧ t.lpu = s.lpu ∧ t.fsu = s.fsu ∧ t.stm = s.stm ∧ t.pst = s.pst ∧ t.cau = s.cau ∧ t.din = s.din ∧
  t.gtb = s.gtb ∧ t.ale = s.ale ∧ t.chu.store = s.chu.store ∧ t.ssu = s.ssu ∧ t.alc.counts = s.alc.counts ∧
  t.mgu = s.mgu ∧ t.pending = s.pending

/-- From `s` to `t` only what an event of a handshake changes may have changed. -/
@[simp] abbrev OnlyHandshake (s t : State) : Prop :=
  t.now = s.now ∧ t.lpu = s.lpu ∧ t.fsu = s.fsu ∧ t.stm = s.stm ∧ t.pst = s.pst ∧ t.cau = s.cau ∧ t.din = s.din ∧
  t.gtb = s.gtb ∧ t.ale = s.ale ∧ t.chu.store = s.chu.store ∧ t.ssu = s.ssu ∧ t.mgu = s.mgu ∧ t.pending = s.pending

/-- From `s` to `t` only what the reports of channel changes can change may have changed. -/
@[simp] abbrev OnlyReport (s t : State) : Prop :=
  t.now = s.now ∧ t.lpu = s.lpu ∧ t.fsu = s.fsu ∧ t.stm = s.stm ∧ t.pst = s.pst ∧ t.cau = s.cau ∧
  t.din.clients = s.din.clients ∧ t.din.draft = s.din.draft ∧ t.gtb.frozen = s.gtb.frozen ∧
  t.gtb.probes = s.gtb.probes ∧ t.ale.passTimer = s.ale.passTimer ∧ t.ale.passPeriod = s.ale.passPeriod ∧
  t.ale.results = s.ale.results ∧ t.chu.store = s.chu.store ∧ t.alc = s.alc ∧ t.mgu = s.mgu ∧ t.pending = s.pending

/-- From `s` to `t` only the slots may have changed. -/
@[simp] abbrev OnlySlots (s t : State) : Prop :=
  t.now = s.now ∧ t.lpu = s.lpu ∧ t.fsu = s.fsu ∧ t.stm = s.stm ∧ t.pst = s.pst ∧ t.cau = s.cau ∧ t.din = s.din ∧
  t.gtb = s.gtb ∧ t.ale = s.ale ∧ t.chu = s.chu ∧ t.alc = s.alc ∧ t.mgu = s.mgu ∧ t.sent = s.sent ∧
  t.pending = s.pending

/-- From `s` to `t` only what the failing of a slot changes may have changed. -/
@[simp] abbrev OnlySlotFail (s t : State) : Prop :=
  t.now = s.now ∧ t.lpu = s.lpu ∧ t.fsu = s.fsu ∧ t.stm = s.stm ∧ t.pst = s.pst ∧ t.cau = s.cau ∧
  t.din.clients = s.din.clients ∧ t.din.draft = s.din.draft ∧ t.gtb.frozen = s.gtb.frozen ∧
  t.gtb.probes = s.gtb.probes ∧ t.ale.passTimer = s.ale.passTimer ∧ t.ale.passPeriod = s.ale.passPeriod ∧
  t.ale.results = s.ale.results ∧ t.chu.store = s.chu.store ∧ t.alc.counts = s.alc.counts ∧ t.mgu = s.mgu ∧
  t.pending = s.pending

/-- From `s` to `t` only what an alert LEASE changes may have changed. -/
@[simp] abbrev OnlyLapseAlert (s t : State) : Prop :=
  t.now = s.now ∧ t.lpu = s.lpu ∧ t.fsu = s.fsu ∧ t.stm = s.stm ∧ t.pst = s.pst ∧ t.cau = s.cau ∧
  t.din.prf = s.din.prf ∧ t.din.draft = s.din.draft ∧ t.gtb = s.gtb ∧ t.ale = s.ale ∧ t.chu = s.chu ∧
  t.ssu = s.ssu ∧ t.alc.counts = s.alc.counts ∧ t.mgu = s.mgu ∧ t.pending = s.pending

/-- From `s` to `t` only what the notes of a lapse change may have changed. -/
@[simp] abbrev OnlyNoteLapse (s t : State) : Prop :=
  t.now = s.now ∧ t.lpu = s.lpu ∧ t.fsu = s.fsu ∧ t.stm = s.stm ∧ t.pst = s.pst ∧ t.cau = s.cau ∧
  t.din.prf = s.din.prf ∧ t.din.draft = s.din.draft ∧ t.gtb = s.gtb ∧ t.ale = s.ale ∧ t.chu = s.chu ∧
  t.ssu = s.ssu ∧ t.mgu = s.mgu ∧ t.pending = s.pending

/-- From `s` to `t` only what lapses change may have changed. -/
@[simp] abbrev OnlyLapse (s t : State) : Prop :=
  t.now = s.now ∧ t.lpu = s.lpu ∧ t.fsu = s.fsu ∧ t.stm = s.stm ∧ t.pst = s.pst ∧ t.cau = s.cau ∧
  t.din.draft = s.din.draft ∧ t.gtb.frozen = s.gtb.frozen ∧ t.gtb.records = s.gtb.records ∧
  t.gtb.probes = s.gtb.probes ∧ t.ale.passTimer = s.ale.passTimer ∧ t.ale.passPeriod = s.ale.passPeriod ∧
  t.ale.results = s.ale.results ∧ t.chu = s.chu ∧ t.ssu = s.ssu ∧ t.mgu = s.mgu ∧ t.pending = s.pending

/-- From `s` to `t` only points, and what an alert changes may have changed. -/
@[simp] abbrev OnlyPoints (s t : State) : Prop :=
  t.now = s.now ∧ t.lpu = s.lpu ∧ t.fsu = s.fsu ∧ t.stm = s.stm ∧ t.cau = s.cau ∧ t.din = s.din ∧ t.gtb = s.gtb ∧
  t.ale = s.ale ∧ t.chu = s.chu ∧ t.ssu = s.ssu ∧ t.alc.counts = s.alc.counts ∧ t.mgu = s.mgu ∧
  t.pending = s.pending

/-- From `s` to `t` only the pass and its timer may have changed. -/
@[simp] abbrev OnlyLeaveRun (s t : State) : Prop :=
  t.now = s.now ∧ t.lpu = s.lpu ∧ t.fsu = s.fsu ∧ t.stm = s.stm ∧ t.pst = s.pst ∧ t.cau = s.cau ∧ t.din = s.din ∧
  t.gtb = s.gtb ∧ t.ale.passPeriod = s.ale.passPeriod ∧ t.ale.results = s.ale.results ∧ t.chu = s.chu ∧
  t.ssu = s.ssu ∧ t.alc = s.alc ∧ t.mgu = s.mgu ∧ t.sent = s.sent ∧ t.pending = s.pending

/-- From `s` to `t` only what the entry into HALTED changes may have changed. -/
@[simp] abbrev OnlyHalt (s t : State) : Prop :=
  t.now = s.now ∧ t.lpu = s.lpu ∧ t.fsu = s.fsu ∧ t.stm = s.stm ∧ t.pst = s.pst ∧ t.cau = s.cau ∧ t.din = s.din ∧
  t.gtb.generations = s.gtb.generations ∧ t.gtb.frozen = s.gtb.frozen ∧ t.gtb.records = s.gtb.records ∧
  t.gtb.probes = s.gtb.probes ∧ t.ale.passPeriod = s.ale.passPeriod ∧ t.ale.results = s.ale.results ∧
  t.chu.store = s.chu.store ∧ t.alc.counts = s.alc.counts ∧ t.mgu.manager = s.mgu.manager ∧
  t.mgu.held = s.mgu.held ∧ t.pending = s.pending

/-- From `s` to `t` only what a FAULTY declaration changes may have changed. -/
@[simp] abbrev OnlyDeclare (s t : State) : Prop :=
  t.now = s.now ∧ t.lpu = s.lpu ∧ t.fsu = s.fsu ∧ t.stm.pollTimeout = s.stm.pollTimeout ∧
  t.stm.retryLimit = s.stm.retryLimit ∧ t.stm.returnMode = s.stm.returnMode ∧ t.cau.reports = s.cau.reports ∧
  t.din.draft = s.din.draft ∧ t.ale.passPeriod = s.ale.passPeriod ∧ t.ale.results = s.ale.results ∧
  t.chu.store = s.chu.store ∧ t.mgu.manager = s.mgu.manager ∧ t.mgu.held = s.mgu.held ∧ t.pending = s.pending

/-- From `s` to `t` only the frames sent and the counts may have changed. -/
@[simp] abbrev OnlyPoll (s t : State) : Prop :=
  t.now = s.now ∧ t.lpu = s.lpu ∧ t.fsu = s.fsu ∧ t.stm = s.stm ∧ t.pst = s.pst ∧ t.cau = s.cau ∧ t.din = s.din ∧
  t.gtb = s.gtb ∧ t.ale = s.ale ∧ t.chu = s.chu ∧ t.ssu = s.ssu ∧ t.alc.alerts = s.alc.alerts ∧
  t.alc.overflow = s.alc.overflow ∧ t.mgu = s.mgu ∧ t.pending = s.pending

/-- From `s` to `t` only what the channels of a returned station change may have changed. -/
@[simp] abbrev OnlyReturned (s t : State) : Prop :=
  t.now = s.now ∧ t.lpu = s.lpu ∧ t.fsu = s.fsu ∧ t.stm = s.stm ∧ t.pst = s.pst ∧ t.cau = s.cau ∧
  t.din.clients = s.din.clients ∧ t.din.draft = s.din.draft ∧ t.gtb.frozen = s.gtb.frozen ∧
  t.gtb.probes = s.gtb.probes ∧ t.ale.passTimer = s.ale.passTimer ∧ t.ale.passPeriod = s.ale.passPeriod ∧
  t.ale.results = s.ale.results ∧ t.chu.store = s.chu.store ∧ t.alc.alerts = s.alc.alerts ∧
  t.alc.overflow = s.alc.overflow ∧ t.mgu = s.mgu ∧ t.pending = s.pending

/-- From `s` to `t` only what evidence of life changes may have changed. -/
@[simp] abbrev OnlyArrive (s t : State) : Prop :=
  t.now = s.now ∧ t.lpu = s.lpu ∧ t.fsu = s.fsu ∧ t.stm.pollTimeout = s.stm.pollTimeout ∧
  t.stm.retryLimit = s.stm.retryLimit ∧ t.stm.returnMode = s.stm.returnMode ∧ t.pst = s.pst ∧ t.cau = s.cau ∧
  t.din.clients = s.din.clients ∧ t.din.draft = s.din.draft ∧ t.gtb.frozen = s.gtb.frozen ∧
  t.gtb.probes = s.gtb.probes ∧ t.ale.passTimer = s.ale.passTimer ∧ t.ale.passPeriod = s.ale.passPeriod ∧
  t.ale.results = s.ale.results ∧ t.chu.store = s.chu.store ∧ t.alc.alerts = s.alc.alerts ∧
  t.alc.overflow = s.alc.overflow ∧ t.mgu = s.mgu ∧ t.pending = s.pending

/-- From `s` to `t` only what the arrival of a DEMAND frame changes may have changed. -/
@[simp] abbrev OnlyOpen (s t : State) : Prop :=
  t.now = s.now ∧ t.lpu = s.lpu ∧ t.fsu = s.fsu ∧ t.stm.pollTimeout = s.stm.pollTimeout ∧
  t.stm.retryLimit = s.stm.retryLimit ∧ t.stm.returnMode = s.stm.returnMode ∧ t.pst = s.pst ∧ t.cau = s.cau ∧
  t.din.clients = s.din.clients ∧ t.gtb.frozen = s.gtb.frozen ∧ t.gtb.probes = s.gtb.probes ∧
  t.ale.passTimer = s.ale.passTimer ∧ t.ale.passPeriod = s.ale.passPeriod ∧ t.ale.results = s.ale.results ∧
  t.chu.store = s.chu.store ∧ t.alc.alerts = s.alc.alerts ∧ t.alc.overflow = s.alc.overflow ∧ t.mgu = s.mgu ∧
  t.pending = s.pending

/-- From `s` to `t` only points and counts may have changed. -/
@[simp] abbrev OnlySample (s t : State) : Prop :=
  t.now = s.now ∧ t.lpu = s.lpu ∧ t.fsu = s.fsu ∧ t.stm = s.stm ∧ t.cau = s.cau ∧ t.din = s.din ∧ t.gtb = s.gtb ∧
  t.ale = s.ale ∧ t.chu = s.chu ∧ t.ssu = s.ssu ∧ t.alc.alerts = s.alc.alerts ∧ t.alc.overflow = s.alc.overflow ∧
  t.mgu = s.mgu ∧ t.sent = s.sent ∧ t.pending = s.pending

/-- From `s` to `t` only the Loop Port Unit may have changed. -/
@[simp] abbrev OnlyLpu (s t : State) : Prop :=
  t.now = s.now ∧ t.fsu = s.fsu ∧ t.stm = s.stm ∧ t.pst = s.pst ∧ t.cau = s.cau ∧ t.din = s.din ∧ t.gtb = s.gtb ∧
  t.ale = s.ale ∧ t.chu = s.chu ∧ t.ssu = s.ssu ∧ t.alc = s.alc ∧ t.mgu = s.mgu ∧ t.sent = s.sent ∧
  t.pending = s.pending

/-- From `s` to `t` only what the sending of markers changes may have changed. -/
@[simp] abbrev OnlyMarker (s t : State) : Prop :=
  t.now = s.now ∧ t.fsu = s.fsu ∧ t.stm = s.stm ∧ t.pst = s.pst ∧ t.cau = s.cau ∧ t.din = s.din ∧ t.gtb = s.gtb ∧
  t.ale = s.ale ∧ t.chu = s.chu ∧ t.ssu = s.ssu ∧ t.alc = s.alc ∧ t.mgu = s.mgu ∧ t.pending = s.pending

/-- From `s` to `t` only what a change of loop state changes may have changed. -/
@[simp] abbrev OnlyLoop (s t : State) : Prop :=
  t.now = s.now ∧ t.fsu = s.fsu ∧ t.stm = s.stm ∧ t.pst = s.pst ∧ t.cau = s.cau ∧ t.din = s.din ∧ t.gtb = s.gtb ∧
  t.ale = s.ale ∧ t.chu.store = s.chu.store ∧ t.ssu = s.ssu ∧ t.mgu = s.mgu ∧ t.pending = s.pending

/-- From `s` to `t` only the Channel Units may have changed. -/
@[simp] abbrev OnlyChu (s t : State) : Prop :=
  t.now = s.now ∧ t.lpu = s.lpu ∧ t.fsu = s.fsu ∧ t.stm = s.stm ∧ t.pst = s.pst ∧ t.cau = s.cau ∧ t.din = s.din ∧
  t.gtb = s.gtb ∧ t.ale = s.ale ∧ t.ssu = s.ssu ∧ t.alc = s.alc ∧ t.mgu = s.mgu ∧ t.sent = s.sent ∧
  t.pending = s.pending

/-- From `s` to `t` only the counts may have changed. -/
@[simp] abbrev OnlyCounts (s t : State) : Prop :=
  t.now = s.now ∧ t.lpu = s.lpu ∧ t.fsu = s.fsu ∧ t.stm = s.stm ∧ t.pst = s.pst ∧ t.cau = s.cau ∧ t.din = s.din ∧
  t.gtb = s.gtb ∧ t.ale = s.ale ∧ t.chu = s.chu ∧ t.ssu = s.ssu ∧ t.alc.alerts = s.alc.alerts ∧
  t.alc.overflow = s.alc.overflow ∧ t.mgu = s.mgu ∧ t.sent = s.sent ∧ t.pending = s.pending

/-- From `s` to `t` only what a demotion changes may have changed. -/
@[simp] abbrev OnlyDemote (s t : State) : Prop :=
  t.now = s.now ∧ t.lpu = s.lpu ∧ t.fsu = s.fsu ∧ t.stm = s.stm ∧ t.pst = s.pst ∧ t.cau = s.cau ∧ t.din = s.din ∧
  t.gtb.frozen = s.gtb.frozen ∧ t.gtb.records = s.gtb.records ∧ t.gtb.probes = s.gtb.probes ∧
  t.ale.passTimer = s.ale.passTimer ∧ t.ale.passPeriod = s.ale.passPeriod ∧ t.ale.results = s.ale.results ∧
  t.chu = s.chu ∧ t.ssu = s.ssu ∧ t.alc = s.alc ∧ t.mgu = s.mgu ∧ t.pending = s.pending

/-- From `s` to `t` only what the execution of probes changes may have changed. -/
@[simp] abbrev OnlyHead (s t : State) : Prop :=
  t.now = s.now ∧ t.lpu = s.lpu ∧ t.fsu = s.fsu ∧ t.stm = s.stm ∧ t.pst = s.pst ∧ t.cau.reports = s.cau.reports ∧
  t.din.clients = s.din.clients ∧ t.din.draft = s.din.draft ∧ t.ale.passTimer = s.ale.passTimer ∧
  t.ale.passPeriod = s.ale.passPeriod ∧ t.ale.results = s.ale.results ∧ t.chu = s.chu ∧ t.ssu = s.ssu ∧
  t.alc.alerts = s.alc.alerts ∧ t.alc.overflow = s.alc.overflow ∧ t.mgu = s.mgu ∧ t.pending = s.pending

variable (s : State)

/-! ## Alerts and notices -/

@[simp] theorem sendAlert_keeps : OnlySent s (sendAlert s) := by simp [sendAlert]

@[simp] theorem raiseAlert_keeps (c : AlertCategory) (i : Nat) : OnlyAlert s (raiseAlert c i s) := by
  unfold raiseAlert; split <;> simp

@[simp] theorem notify_keeps (c : Nat) (l : List Notice) : OnlySent s (notify c l s) := by
  unfold notify; split <;> [skip; split] <;> simp

/-! ## Grants (chapter 4) -/

@[simp] theorem markDeparted_keeps (r c : Nat) : OnlyPass s (markDeparted r c s) := by
  unfold markDeparted; split <;> simp

@[simp] theorem moveHolder_keeps (r c : Nat) (st : HolderState) : OnlyMove s (moveHolder r c st s) := by
  simp only [moveHolder]; repeat' split
  all_goals simp

@[simp] theorem completePrf_keeps (r : Nat) : OnlyComplete s (completePrf r s) := by
  simp only [completePrf]; repeat' split
  all_goals simp

@[simp] theorem freeRecord_keeps (k : Nat) : OnlyFree s (freeRecord k s) := by
  unfold freeRecord; split <;> simp

@[simp] theorem rampClear_keeps (k : Nat) : OnlyFree s (rampClear k s) := by
  simp only [rampClear]; repeat' split
  all_goals simp

@[simp] theorem noticeClear_keeps (k : Nat) : OnlyFree s (noticeClear k s) := by
  simp only [noticeClear]; repeat' split
  all_goals simp

@[simp] theorem reportToGtb_keeps (n : Nat) : OnlyFree s (reportToGtb n s) := by
  unfold reportToGtb
  refine forEach_induct (P := OnlyFree s) _ (by simp) fun i _ t h => ?_
  try dsimp only
  repeat' split
  all_goals simp [h]

@[simp] theorem judgePassMarks_keeps : OnlyFree s (judgePassMarks s) := by
  unfold judgePassMarks
  refine forEach_induct (P := OnlyFree s) _ (by simp) fun i _ t h => ?_
  try dsimp only
  repeat' split
  all_goals simp [h]

@[simp] theorem markPassSeen_keeps : OnlyRecords s (markPassSeen s) := by simp [markPassSeen]

@[simp] theorem revoke_keeps (cause : Cause) (r c : Nat) : OnlyRevoke s (revoke cause r c s) := by simp [revoke]

@[simp] theorem revokeAll_keeps (cause : Cause) (r : Nat) (cs : List Nat) :
    OnlyRevoke s (revokeAll cause r cs s) := by
  unfold revokeAll
  refine forEach_induct (P := OnlyRevoke s) _ (by simp) fun i _ t h => ?_
  simp [h]

@[simp] theorem startLease_keeps (r c : Nat) : OnlyLease s (startLease r c s) := by simp [startLease]

@[simp] theorem writeParams_keeps (r c : Nat) (p : Params) : OnlyHolders s (writeParams r c p s) := by
  simp [writeParams]

@[simp] theorem renew_keeps (r c : Nat) (p : Params) : OnlyLease s (renew r c p s) := by simp [renew]

@[simp] theorem waitFor_keeps (level : Level) (r c : Nat) (p : Params) : OnlyWait s (waitFor level r c p s) := by
  simp [waitFor]

@[simp] theorem takeLevel_keeps (level : Level) (r c : Nat) (p : Params) : OnlyTake s (takeLevel level r c p s) := by
  simp [takeLevel]

/-! ## Demand items (chapter 3) -/

@[simp] theorem acquireSharedNew_keeps (r c : Nat) (p : Params) : OnlyDecide s ((acquireSharedNew r c p s).1) := by
  simp only [acquireSharedNew]; repeat' split
  all_goals simp

@[simp] theorem acquireExclusiveNew_keeps (r c : Nat) (p : Params) :
    OnlyDecide s ((acquireExclusiveNew r c p s).1) := by
  simp only [acquireExclusiveNew]; repeat' split
  all_goals simp

@[simp] theorem decideAcquire_keeps (level : Level) (r c : Nat) (p : Params) :
    OnlyDecide s ((decideAcquire level r c p s).1) := by
  simp only [decideAcquire]; repeat' split
  all_goals simp

@[simp] theorem decideUpgrade_keeps (r c : Nat) : OnlyDecide s ((decideUpgrade r c s).1) := by
  simp only [decideUpgrade]; repeat' split
  all_goals simp

@[simp] theorem decideDowngrade_keeps (r c : Nat) : OnlyDecide s ((decideDowngrade r c s).1) := by
  simp only [decideDowngrade]; repeat' split
  all_goals simp

@[simp] theorem decideRefresh_keeps (r c : Nat) (p : Params) : OnlyDecide s ((decideRefresh r c p s).1) := by
  simp only [decideRefresh]; repeat' split
  all_goals simp

@[simp] theorem decideYieldDone_keeps (r c : Nat) : OnlyDecide s ((decideYieldDone r c s).1) := by
  simp only [decideYieldDone]; repeat' split
  all_goals simp

@[simp] theorem decideRelease_keeps (r c : Nat) : OnlyDecide s ((decideRelease r c s).1) := by
  simp only [decideRelease]; repeat' split
  all_goals simp

@[simp] theorem decideReserve_keeps (r c : Nat) : OnlyDecide s ((decideReserve r c s).1) := by simp [decideReserve]

@[simp] theorem decideCommitIf_keeps (level : Level) (g r c : Nat) (p : Params) :
    OnlyDecide s ((decideCommitIf level g r c p s).1) := by
  simp only [decideCommitIf]; repeat' split
  all_goals simp

@[simp] theorem decideItem_keeps (op : ItemOp) (r c : Nat) (p : Params) :
    OnlyDecide s ((decideItem op r c p s).1) := by
  cases op <;> simp [decideItem]

@[simp] theorem takeClientItem_keeps (c : Nat) (op : ItemOp) (it : DemandItem) :
    OnlyDecide s ((takeClientItem c op it s).1) := by
  simp only [takeClientItem, countRefusal]; repeat' split
  all_goals simp

/-! ## Channels (chapter 6) -/

@[simp] theorem deriveTarget_keeps (n : Nat) : OnlyChannels s (deriveTarget n s) := by
  simp only [deriveTarget, State.modifyChannel]; split <;> simp

@[simp] theorem transmit_keeps (n : Nat) (ch : Channel) (seq setting : Nat) :
    OnlyCommand s (transmit n ch seq setting s) := by
  simp [transmit]

@[simp] theorem sendNew_keeps (n setting : Nat) : OnlyCommand s (sendNew n setting s) := by
  simp only [sendNew]; split <;> simp

@[simp] theorem resend_keeps (n retries : Nat) : OnlyCommand s (resend n retries s) := by
  simp only [resend]; repeat' split
  all_goals simp

@[simp] theorem channelLoopChange_keeps (b : Bool) (n : Nat) : OnlyCommand s (channelLoopChange b n s) := by
  simp only [channelLoopChange]; repeat' split
  all_goals simp

@[simp] theorem chuLoopChange_keeps (old : LoopState) : OnlyCommand s (chuLoopChange old s) := by
  unfold chuLoopChange
  refine forEach_induct (P := OnlyCommand s) _ (by simp) fun i _ t h => ?_
  simp [h]

@[simp] theorem enterActive_keeps (n : Nat) : OnlyCommand s (enterActive n s) := by
  simp only [enterActive, State.modifyChannel]; split <;> simp

@[simp] theorem faultChannel_keeps (n : Nat) (cause : FaultCause) : OnlyFault s (faultChannel n cause s) := by
  simp only [faultChannel, State.modifyChannel]; split <;> simp

@[simp] theorem chuStationFault_keeps (a : Nat) : OnlyChannels s (chuStationFault a s) := by
  unfold chuStationFault
  refine forEach_induct (P := OnlyChannels s) _ (by simp) fun i _ t h => ?_
  try dsimp only
  simp only [State.modifyChannel]; split <;> simp [h]

@[simp] theorem returnChannel_keeps (n : Nat) (run : Bool) : OnlyCommand s (returnChannel n run s) := by
  simp only [returnChannel, State.modifyChannel]; repeat' split
  all_goals simp

@[simp] theorem chuStationReturn_keeps (a : Nat) : OnlyCommand s (chuStationReturn a s) := by
  unfold chuStationReturn
  refine forEach_induct (P := OnlyCommand s) _ (by simp) fun i _ t h => ?_
  try dsimp only
  repeat' split
  all_goals simp [h]

@[simp] theorem chuHalt_keeps : OnlyChannels s (chuHalt s) := by
  unfold chuHalt
  refine forEach_induct (P := OnlyChannels s) _ (by simp) fun i _ t h => ?_
  try dsimp only
  simp only [State.modifyChannel]; split <;> simp [h]

@[simp] theorem chuStart_keeps : OnlyCommand s (chuStart s) := by
  unfold chuStart
  refine forEach_induct (P := OnlyCommand s) _ (by simp) fun i _ t h => ?_
  try dsimp only
  repeat' split
  all_goals simp [h]

@[simp] theorem rampExpiry_keeps (n : Nat) : OnlyCommand s (rampExpiry n s) := by
  simp only [rampExpiry]; repeat' split
  all_goals simp

@[simp] theorem acknowledge_keeps (n : Nat) (ch : Channel) (sent : Nat) (e : StatusEntry) :
    OnlyHandshake s (acknowledge n ch sent e s) := by
  simp only [acknowledge]; repeat' split
  all_goals simp

@[simp] theorem takeStatusEntry_keeps (n : Nat) (e : StatusEntry) : OnlyHandshake s (takeStatusEntry n e s) := by
  simp only [takeStatusEntry]; repeat' split
  all_goals simp

@[simp] theorem ackExpiry_keeps (n : Nat) : OnlyHandshake s (ackExpiry n s) := by
  simp only [ackExpiry]; repeat' split
  all_goals simp

@[simp] theorem refreshExpiry_keeps (n : Nat) : OnlyCommand s (refreshExpiry n s) := by
  simp only [refreshExpiry]; repeat' split
  all_goals simp

/-! ## Sequences and reports (chapter 7, R135) -/

@[simp] theorem refreshMinimum_keeps (n : Nat) : OnlyChannels s (refreshMinimum n s) := by
  simp only [refreshMinimum, State.modifyChannel]; split <;> simp

@[simp] theorem slotRests_keeps (k : Nat) (sl : Slot) : OnlySlots s (slotRests k sl s) := by simp [slotRests]

/-- What entering a step keeps, if moving on keeps it. -/
theorem enterStep_keeps {advance : Nat → State → State} (adv : ∀ k s, OnlyReport s (advance k s)) (k : Nat)
    (st : SlotState) : OnlyReport s (enterStep advance k st s) := by
  simp only [enterStep]
  repeat' split
  · simp
  · simp
  · refine forEach_induct (P := OnlyReport s) _ (by simp) fun i _ t h => ?_
    split <;> simp [h, adv]
  · simp [adv]
  · simp

@[simp] theorem advanceSlot_keeps (fuel k : Nat) : OnlyReport s (advanceSlot fuel k s) := by
  induction fuel generalizing k s with
  | zero => simp [advanceSlot]
  | succ fuel ih =>
    simp only [advanceSlot]
    repeat' split
    all_goals try simp
    all_goals exact enterStep_keeps _ (fun k s => ih s k) _ _

@[simp] theorem startStep_keeps (k : Nat) (st : SlotState) : OnlyReport s (startStep k st s) := by
  exact enterStep_keeps _ (fun k s => advanceSlot_keeps s _ k) _ _

@[simp] theorem stepDone_keeps (k : Nat) : OnlyReport s (stepDone k s) := by simp [stepDone]

@[simp] theorem reportToSsu_keeps (n : Nat) : OnlyReport s (reportToSsu n s) := by
  unfold reportToSsu
  refine forEach_induct (P := OnlyReport s) _ (by simp) fun i _ t h => ?_
  try dsimp only
  split <;> simp [h]

@[simp] theorem reportChanges_keeps (b : State) : OnlyReport s (reportChanges b s) := by
  unfold reportChanges
  refine forEach_induct (P := OnlyReport s) _ ?_ fun i _ t h => by simp [h]
  exact forEach_induct (P := OnlyReport s) _ (by simp) fun i _ t h => by simp [h]

@[simp] theorem failSlot_keeps (k : Nat) : OnlySlotFail s (failSlot k s) := by
  simp only [failSlot]
  split
  · simp
  · have H := forEach_induct (f := refreshMinimum) (P := OnlySlotFail s) (l := ‹Slot›.placed.map (·.channel))
      (s := s.setSlot k (some { ‹Slot› with state := .failed, watch := .stopped, stopDelayTimer := .stopped }))
      (by simp) fun i _ t h => by simp [h]
    simp [H]

@[simp] theorem abortStart_keeps (k i : Nat) (sl : Slot) : OnlyReport s (abortStart k i sl s) := by
  simp only [abortStart]; repeat' split
  all_goals simp

@[simp] theorem stopDelayExpired_keeps (k : Nat) : OnlyReport s (stopDelayExpired k s) := by
  simp only [stopDelayExpired]; repeat' split
  all_goals simp

@[simp] theorem slotPassStart_keeps (k c : Nat) : OnlyReport s (slotPassStart k c s) := by
  simp only [slotPassStart]; repeat' split
  all_goals simp

@[simp] theorem ssuHalt_keeps : OnlySlots s (ssuHalt s) := by simp [ssuHalt]

@[simp] theorem ssuResume_keeps : OnlySlots s (ssuResume s) := by simp [ssuResume]

/-! ## Leases (chapter 3) -/

@[simp] theorem mapHolders_keeps (f : Holder → Holder) : OnlyHolders s (mapHolders f s) := by simp [mapHolders]

@[simp] theorem suspendLeases_keeps : OnlyHolders s (suspendLeases s) := by simp [suspendLeases]

@[simp] theorem resumeLeases_keeps : OnlyHolders s (resumeLeases s) := by simp [resumeLeases]

@[simp] theorem lapseAlert_keeps (c : Nat) : OnlyLapseAlert s (lapseAlert c s) := by
  simp only [lapseAlert]; split <;> simp

@[simp] theorem noteLapse_keeps (r c : Nat) (kept : Bool) : OnlyNoteLapse s (noteLapse r c kept s) := by
  simp [noteLapse]

@[simp] theorem lapseToFallback_keeps (r c : Nat) : OnlyLapse s (lapseToFallback r c s) := by simp [lapseToFallback]

@[simp] theorem lapseToNone_keeps (r c : Nat) : OnlyLapse s (lapseToNone r c s) := by simp [lapseToNone]

@[simp] theorem lapse_keeps (r c : Nat) : OnlyLapse s (lapse r c s) := by
  simp only [lapse]; repeat' split
  all_goals simp

@[simp] theorem dinStationFault_keeps (a : Nat) : OnlyLapse s (dinStationFault a s) := by
  unfold dinStationFault
  refine forEach_induct (P := OnlyLapse s) _ (by simp) fun i _ t h => ?_
  have H := forEach_induct (f := fun r s => lapse r i s) (P := OnlyLapse s) (List.range 12) h fun r _ t h => by simp [h]
  simpa using H

@[simp] theorem gtbStationFault_keeps (a : Nat) : OnlyFree s (gtbStationFault a s) := by
  simp only [gtbStationFault]
  refine forEach_induct (P := OnlyFree s) _ (by simp) fun i _ t h => ?_
  try dsimp only
  repeat' split
  all_goals simp [h]

/-! ## Probes (R84 to R87) -/

@[simp] theorem evictOne_keeps (r c : Nat) : OnlyRevoke s (evictOne r c s) := by
  simp only [evictOne]; split <;> simp

@[simp] theorem demoteOne_keeps (r c : Nat) : OnlyDemote s (demoteOne r c s) := by
  simp only [demoteOne]; split <;> simp

@[simp] theorem doEvict_keeps (p : Probe) : OnlyRevoke s (doEvict p s) := by
  simp only [doEvict]; split <;> simp

@[simp] theorem doEvictAll_keeps (p : Probe) : OnlyRevoke s (doEvictAll p s) := by
  unfold doEvictAll
  refine forEach_induct (P := OnlyRevoke s) _ (by simp) fun i _ t h => ?_
  simp [h]

@[simp] theorem doDemote_keeps (p : Probe) : OnlyDemote s (doDemote p s) := by
  unfold doDemote
  refine forEach_induct (P := OnlyDemote s) _ (by simp) fun i _ t h => ?_
  simp [h]

theorem act_keeps (p : Probe) : OnlyHead s (p.act s) := by
  unfold Probe.act
  split
  · simp
  · simp
  · simp
  all_goals simp [doFreeze, doThaw, doCap, doUncap]

@[simp] theorem runHead_keeps (p : Probe) (rest : List Probe) : OnlyHead s (runHead p rest s) := by
  have := act_keeps { s with gtb.probes := rest } p
  simp_all [runHead]

@[simp] theorem testHeads_keeps (l : List Probe) : OnlyHead s (testHeads l s) := by
  induction l generalizing s with
  | nil => simp [testHeads]
  | cons p rest ih =>
    simp only [testHeads]
    split
    · have := ih (runHead p rest s); simp_all
    · simp

@[simp] theorem testHead_keeps : OnlyHead s (testHead s) := testHeads_keeps s _

/-! ## Stations (chapter 9) -/

@[simp] theorem pstStationFault_keeps (a : Nat) : OnlyPoints s (pstStationFault a s) := by
  unfold pstStationFault
  refine forEach_induct (P := OnlyPoints s) _ (by simp) fun i _ t h => ?_
  try dsimp only
  repeat' split
  all_goals simp [h]

@[simp] theorem leaveRun_keeps : OnlyLeaveRun s (leaveRun s) := by simp [leaveRun]

@[simp] theorem enterHalted_keeps : OnlyHalt s (enterHalted s) := by simp [enterHalted]

@[simp] theorem mguStationFault_keeps : OnlyHalt s (mguStationFault s) := by
  simp only [mguStationFault]; split <;> simp

@[simp] theorem chuDeclaration_keeps (a : Nat) : OnlyReport s (chuDeclaration a s) := by simp [chuDeclaration]

@[simp] theorem declareFaulty_keeps (i : Nat) : OnlyDeclare s (declareFaulty i s) := by
  simp only [declareFaulty]; split <;> simp

@[simp] theorem sendPoll_keeps (a : Nat) : OnlyPoll s (sendPoll a s) := by simp [sendPoll]

@[simp] theorem silenceExpired_keeps (i : Nat) (st : Station) : OnlyDeclare s (silenceExpired i st s) := by
  simp only [silenceExpired]; split <;> simp

@[simp] theorem pollExpired_keeps (i n : Nat) (st : Station) : OnlyDeclare s (pollExpired i n st s) := by
  simp only [pollExpired]; split <;> simp

@[simp] theorem stationReturned_keeps (a : Nat) : OnlyReturned s (stationReturned a s) := by simp [stationReturned]

@[simp] theorem returnStation_keeps (i : Nat) (st : Station) : OnlyArrive s (returnStation i st s) := by
  simp [returnStation]

@[simp] theorem stationHeard_keeps (a : Nat) : OnlyArrive s (stationHeard a s) := by
  simp only [stationHeard]; repeat' split
  all_goals simp

@[simp] theorem arrive_keeps (a : Nat) : OnlyArrive s (arrive a s) := by
  simp only [arrive]; repeat' split
  all_goals simp

@[simp] theorem openFrame_keeps (d : DemandCtx) : OnlyOpen s (openFrame d s) := by
  simp only [openFrame]; split <;> simp

/-! ## Points, loop, pass -/

@[simp] theorem takeSample_keeps (p : Nat) (v : Int) : OnlySample s (takeSample p v s) := by simp [takeSample]

@[simp] theorem takeSampleEntry_keeps (src : Nat) (e : SampleEntry) : OnlySample s (takeSampleEntry src s e) := by
  simp only [takeSampleEntry]; repeat' split
  all_goals simp

@[simp] theorem staleExpired_keeps (p : Nat) : OnlyPoints s (staleExpired p s) := by
  simp only [staleExpired]; split <;> simp

@[simp] theorem abandonMarkers_keeps : OnlyLpu s (abandonMarkers s) := by simp [abandonMarkers]

@[simp] theorem setOutstanding_keeps (ring : Ring) (x : Option Outstanding) :
    OnlyLpu s (setOutstanding ring x s) := by
  cases ring <;> simp [setOutstanding]

@[simp] theorem sendMarker_keeps (ring : Ring) (role : MarkerRole) : OnlyMarker s (sendMarker ring role s) := by
  simp [sendMarker]

@[simp] theorem startRound_keeps : OnlyMarker s (startRound s) := by
  simp only [startRound]; split <;> simp

@[simp] theorem changeLoop_keeps (l : LoopState) : OnlyLoop s (changeLoop l s) := by simp [changeLoop]

@[simp] theorem regularMiss_keeps : OnlyLoop s (regularMiss s) := by
  simp only [regularMiss]; repeat' split
  all_goals simp

@[simp] theorem writeRecord_keeps (t : Table 12 LatchedRecord) (out : PassOutcome) (r : Nat) :
    OnlyHolders s (writeRecord t out r s) := by
  unfold writeRecord
  refine forEach_induct (P := OnlyHolders s) _ (by simp) fun i _ t h => ?_
  try dsimp only
  split <;> simp [h]

@[simp] theorem sendGrantNotices_keeps (b : State) : OnlySent s (sendGrantNotices b s) := by
  unfold sendGrantNotices
  refine forEach_induct (P := OnlySent s) _ (by simp) fun i _ t h => ?_
  try dsimp only
  split <;> simp [h]

@[simp] theorem chuTakeResults_keeps (t : Table 12 LatchedRecord) (out : PassOutcome) :
    OnlyChu s (chuTakeResults t out s) := by
  unfold chuTakeResults
  refine forEach_induct (P := OnlyChu s) _ (by simp) fun i _ t h => ?_
  simp [h]

@[simp] theorem countPass_keeps (out : PassOutcome) : OnlyCounts s (countPass out s) := by
  simp only [countPass]; split <;> simp

@[simp] theorem slotsPassStart_keeps (t : Table 12 LatchedRecord) : OnlyReport s (slotsPassStart t s) := by
  unfold slotsPassStart
  refine forEach_induct (P := OnlyReport s) _ (by simp) fun i _ t h => ?_
  try dsimp only
  split <;> simp [h]

end Sys2Proof.Machine
end

