-- ==== Sys2Proof/Laws/Ops.lean ====
section
/-! SUPPORT. What the operations every block uses come to: the expiry of a timer, the raising of an alert, the counts, and
the sending of a notice. -/

namespace Sys2Proof.Machine

variable (s : State)

/-! ## Timers -/

theorem expire_running {t : Timer} {d : Nat} (h : t = .running d) : expire t s = some { s with now := max s.now d } := by
  subst h; rfl

theorem expire_none {t : Timer} (h : ∀ d, t ≠ .running d) : expire t s = none := by
  cases t <;> first | rfl | exact absurd rfl (h _)

/-- An expiry moves the clock alone, and only of a running timer. -/
theorem expire_some {t : Timer} {s s' : State} (h : expire t s = some s') :
    ∃ d, t = .running d ∧ s' = { s with now := max s.now d } := by
  cases t <;> simp_all [expire]

theorem startUnlessZero_eq (now ms : Nat) :
    Timer.startUnlessZero now ms = if ms = 0 then .stopped else .running (now + 100 * ms) := rfl

/-! ## Alerts (R190, R192) -/

/-- Everything a raise can do. -/
theorem raiseAlert_cases (c : AlertCategory) (i : Nat) :
    (⟨c.number, i⟩ ∈ s.alc.alerts ∧ raiseAlert c i s = s) ∨
      (⟨c.number, i⟩ ∉ s.alc.alerts ∧ s.alc.alerts.length < 8 ∧
        raiseAlert c i s = sendAlert { s with alc.alerts := s.alc.alerts ++ [⟨c.number, i⟩] }) ∨
      (⟨c.number, i⟩ ∉ s.alc.alerts ∧ 8 ≤ s.alc.alerts.length ∧ s.alc.overflow < 255 ∧
        raiseAlert c i s = sendAlert { s with alc.overflow := s.alc.overflow + 1 }) ∨
      (⟨c.number, i⟩ ∉ s.alc.alerts ∧ 8 ≤ s.alc.alerts.length ∧ 255 ≤ s.alc.overflow ∧ raiseAlert c i s = s) := by
  unfold raiseAlert raiseOn
  by_cases h1 : (⟨c.number, i⟩ : AlertNo) ∈ s.alc.alerts
  · exact .inl ⟨h1, by simp [h1]⟩
  · by_cases h2 : s.alc.alerts.length < 8
    · exact .inr (.inl ⟨h1, h2, by simp [h1, h2]⟩)
    · by_cases h3 : s.alc.overflow < 255
      · exact .inr (.inr (.inl ⟨h1, by omega, h3, by simp [h1, h2, h3]⟩))
      · exact .inr (.inr (.inr ⟨h1, by omega, by omega, by simp [h1, h2, h3]⟩))

/-- The list after a raise. -/
@[simp] theorem raiseAlert_alerts (c : AlertCategory) (i : Nat) :
    (raiseAlert c i s).alc.alerts = raisedList ⟨c.number, i⟩ s.alc.alerts := by
  rcases raiseAlert_cases s c i with ⟨h, e⟩ | ⟨h, h8, e⟩ | ⟨h, h8, -, e⟩ | ⟨h, h8, -, e⟩ <;> rw [e]
  · simp [raisedList, h]
  · simp [raisedList, h, h8]
  · simp [raisedList, h8]
  · simp [raisedList, h8]

theorem raiseAlert_overflow_le (c : AlertCategory) (i : Nat) (h : s.alc.overflow ≤ 255) :
    (raiseAlert c i s).alc.overflow ≤ 255 := by
  rcases raiseAlert_cases s c i with ⟨-, e⟩ | ⟨-, -, e⟩ | ⟨-, -, h3, e⟩ | ⟨-, -, -, e⟩ <;> rw [e]
  · exact h
  · simpa using h
  · simp; omega
  · exact h

@[simp] theorem raiseAlert_count (c : AlertCategory) (i : Nat) (k : Count) :
    (raiseAlert c i s).count k = s.count k := by simp [State.count]

/-- A raise keeps the list within 8 alert numbers, none twice. -/
theorem raisedList_nodup {a : AlertNo} {l : List AlertNo} (h : l.Nodup) (h8 : l.length ≤ 8) :
    (raisedList a l).Nodup ∧ (raisedList a l).length ≤ 8 := by
  unfold raisedList
  split
  · exact ⟨h, h8⟩
  · rename_i hn
    have ha : a ∉ l := fun h => hn (.inl h)
    exact ⟨List.nodup_append.mpr ⟨h, by simp, fun x hx y hy => by
      rw [List.mem_singleton.mp hy]; rintro rfl; exact ha hx⟩, by simp; omega⟩

theorem mem_raisedList {a b : AlertNo} {l : List AlertNo} (h : b ∈ l) : b ∈ raisedList a l := by
  unfold raisedList; split <;> simp [h]

/-! ## Counts -/

@[simp] theorem notify_count (c : Nat) (l : List Notice) (k : Count) : (notify c l s).count k = s.count k := by
  simp [State.count]

@[simp] theorem sendAlert_count (k : Count) : (sendAlert s).count k = s.count k := by simp [State.count]

theorem raised_le (n : Nat) : raised n ≤ 65535 := Nat.min_le_left _ _

theorem counts_set_le {n : Nat} {t : Table n Nat} (h : ∀ x ∈ t.data, x ≤ 65535) (i x : Nat) (hx : x ≤ 65535) :
    ∀ y ∈ (t.set i x).data, y ≤ 65535 := by
  intro y hy
  rcases Table.mem_set_data hy with h' | rfl
  · exact h y h'
  · exact hx

/-! ## Notices (R82) -/

/-- Everything a notice can do: one frame to the client's station, or nothing while the station is FAULTY or the client
has no entry. -/
theorem notify_cases (c : Nat) (l : List Notice) :
    notify c l s = s ∨ ∃ e, (s.client c).entry = some e ∧ stationFaulty e.station s = false ∧
      notify c l s = { s with sent := s.sent ++ [⟨originRing s.lpu.loop, e.station, .notice 0 true l⟩] } := by
  unfold notify
  split
  · exact .inl rfl
  · rename_i e h
    by_cases hf : stationFaulty e.station s = true
    · simp [hf]
    · exact .inr ⟨e, h, by simpa using hf, by rw [if_neg hf]; rfl⟩

end Sys2Proof.Machine
end

