-- ==== Sys2Proof/Laws/Grants.lean ====
section
/-! SUPPORT. What the operations on holders, revocation records and the PRF come to, field by field. -/

namespace Sys2Proof.Machine

variable (s : State)

/-! ## Changes of holder state -/

@[simp] theorem Holder.enter_state (h : Holder) (st : HolderState) : (h.enter st).state = st := by
  cases st <;> rfl

/-- A holder that enters a state without a standing has g 0; one that enters a standing keeps its g. -/
theorem Holder.enter_g (h : Holder) (st : HolderState) :
    (h.enter st).g = if st.leaves then 0 else h.g := by
  cases st <;> rfl

/-- Every holder after a move. -/
theorem moveHolder_holder (r c : Nat) (st : HolderState) (r' c' : Nat) :
    (moveHolder r c st s).holder r' c' =
      if r = r' ∧ c = c' ∧ r' < 12 ∧ c' < 3 ∧ (s.holder r c).state ≠ st then (s.holder r c).enter st
      else s.holder r' c' := by
  simp only [moveHolder]
  by_cases h : (s.holder r c).state = st
  · simp [h]
  · have e : ∀ t : State, t.gtb.holders = (s.setHolder r c ((s.holder r c).enter st)).gtb.holders →
        t.holder r' c' = (s.setHolder r c ((s.holder r c).enter st)).holder r' c' := by
      intro t ht; simp only [State.holder, ht]
    simp only [h, if_false]
    rw [e _ (by split <;> simp)]
    simp [holder_setHolder, h]

/-- The holder moved. -/
theorem moveHolder_self {r c : Nat} (st : HolderState) (hr : r < 12) (hc : c < 3) :
    (moveHolder r c st s).holder r c =
      if (s.holder r c).state = st then s.holder r c else (s.holder r c).enter st := by
  rw [moveHolder_holder]; by_cases h : (s.holder r c).state = st <;> simp [hr, hc, h]

theorem moveHolder_state {r c : Nat} (st : HolderState) (hr : r < 12) (hc : c < 3) :
    ((moveHolder r c st s).holder r c).state = st := by
  rw [moveHolder_self s st hr hc]; split <;> simp_all

/-- The other holders stay. -/
theorem moveHolder_other {r c r' c' : Nat} (st : HolderState) (h : (r', c') ≠ (r, c)) :
    (moveHolder r c st s).holder r' c' = s.holder r' c' := by
  rw [moveHolder_holder, if_neg]; rintro ⟨rfl, rfl, -⟩; exact h rfl

/-- The generations after a move (R64). -/
theorem moveHolder_generation (r c : Nat) (st : HolderState) (r' : Nat) :
    (moveHolder r c st s).generation r' =
      if r = r' ∧ r' < 12 ∧ (s.holder r c).state ≠ st then (s.generation r + 1) % 256 else s.generation r' := by
  simp only [moveHolder]
  by_cases h : (s.holder r c).state = st
  · simp [h]
  · have e : ∀ t : State, t.gtb.generations = (bumpGeneration r s).gtb.generations →
        t.generation r' = (bumpGeneration r s).generation r' := by
      intro t ht; simp only [State.generation, ht]
    simp only [h, if_false]
    rw [e _ (by split <;> simp), generation_bumpGeneration]
    simp [h]

@[simp] theorem moveHolder_record (r c : Nat) (st : HolderState) (k : Nat) :
    (moveHolder r c st s).record k = s.record k := by simp [State.record]

/-! ## The latched claims (R96) -/

theorem LatchedRecord.claim_setClaim (l : LatchedRecord) (c c' : Nat) (x : Option Claim) :
    (l.setClaim c x).claim c' = if c = c' ∧ c' < 3 then x else l.claim c' := by
  match c, c' with
  | 0, 0 | 0, 1 | 0, 2 | 1, 0 | 1, 1 | 1, 2 | 2, 0 | 2, 1 | 2, 2 => rfl
  | 0, _ + 3 | 1, _ + 3 | 2, _ + 3 => rfl
  | _ + 3, 0 | _ + 3, 1 | _ + 3, 2 => rfl
  | _ + 3, _ + 3 => simp [LatchedRecord.claim]

theorem LatchedRecord.claim_beyond (l : LatchedRecord) {c : Nat} (h : 3 ≤ c) : l.claim c = none := by
  match c, h with
  | _ + 3, _ => rfl

/-- The pass after a claim is marked departed: the same records and claims, that claim departed. -/
theorem markDeparted_pass {r c : Nat} {t : Table 12 LatchedRecord} (h : (markDeparted r c s).ale.pass = some t) :
    ∃ t0, s.ale.pass = some t0 ∧ ∀ r' c', (t.get r').claim c' =
      if r = r' ∧ c = c' then ((t0.get r').claim c').map fun x => { x with departed := true }
      else (t0.get r').claim c' := by
  unfold markDeparted at h
  split at h
  · rename_i hn; rw [hn] at h; cases h
  · rename_i t0 h0
    refine ⟨t0, h0, fun r' c' => ?_⟩
    obtain rfl : t = _ := (Option.some.inj h).symm
    rw [Table.get_set]
    by_cases hr : r = r'
    · subst hr
      by_cases hr12 : r < 12
      · simp only [hr12, and_self, if_true, LatchedRecord.claim_setClaim, true_and]
        by_cases hc : c = c'
        · subst hc
          by_cases hc3 : c < 3
          · simp [hc3]
          · simp [hc3, LatchedRecord.claim_beyond _ (Nat.le_of_not_lt hc3)]
        · simp [hc]
      · have e : (t0.get r) = {} := Table.get_beyond _ _ (Nat.le_of_not_lt hr12)
        have e' : ∀ c', ({} : LatchedRecord).claim c' = none := by
          intro c'; match c' with
          | 0 | 1 | 2 | _ + 3 => rfl
        simp [hr12, e, e']
    · simp [hr]

/-! ## PRF completion and the freeing of records (R57, R80) -/

/-- Everything a PRF completion can do. -/
theorem completePrf_cases (r : Nat) :
    completePrf r s = s ∨
      ∃ e, recordNames s r = false ∧ s.din.prf.find? (fun e => e.resource == r) = some e ∧
        completePrf r s = removePrf r e.client (notify e.client
          [⟨r, .granted (completedState (s.holder r e.client) e.target).level 0⟩]
          (moveHolder r e.client (completedState (s.holder r e.client) e.target) s)) := by
  unfold completePrf
  split
  · exact .inl rfl
  · split
    · exact .inl rfl
    · rename_i hn _ e he
      exact .inr ⟨e, by simpa using hn, he, rfl⟩

/-- A completed PRF entry gives its holder a standing. -/
theorem completedState_standing (h : Holder) (l : Level) :
    completedState h l = .shared ∨ completedState h l = .exclusive := by
  unfold completedState; split <;> simp

/-! ## Revocation (R77) -/

/-- The records after a revocation: the lowest free one holds the new record. -/
theorem revoke_record (cause : Cause) (r c k : Nat) :
    (revoke cause r c s).record k =
      if freeRecordNo s = some k then
        some { resource := r, client := c, grant := (s.holder r c).g, cause := cause, ramp := .pass, notice := true,
               timer := .running (s.now + 100 * ((s.resource r).yieldTimeout.getD 5000)), passSeen := false }
      else s.record k := by
  have e : (revoke cause r c s).gtb.records = (s.setRecord ((freeRecordNo s).getD 8) (some
      { resource := r, client := c, grant := (s.holder r c).g, cause := cause, ramp := .pass, notice := true,
        timer := Timer.start s.now ((s.resource r).yieldTimeout.getD 5000), passSeen := false })).gtb.records := by
    simp [revoke]
  rw [State.record, e, ← State.record, record_setRecord]
  cases hf : freeRecordNo s with
  | none => simp
            intro h; omega
  | some j =>
    have hj : j < 8 := (lowest_eq_some.mp hf).1
    by_cases hjk : j = k
    · subst hjk; simp [hj, Timer.start]
    · simp [hjk]

/-- The holders after a revocation. -/
theorem revoke_holder (cause : Cause) (r c r' c' : Nat) :
    (revoke cause r c s).holder r' c' =
      if r = r' ∧ c = c' ∧ r' < 12 ∧ c' < 3 ∧ (s.holder r c).state ≠ .yielding then (s.holder r c).enter .yielding
      else s.holder r' c' := by
  have e : ∀ x, (revoke cause r c s).gtb.holders = (moveHolder r c .yielding (s.setRecord ((freeRecordNo s).getD 8)
      x)).gtb.holders := by
    intro x; simp [revoke, moveHolder]
    by_cases h : (s.holder r c).state = .yielding <;> simp [h, HolderState.leaves]
  rw [State.holder, e none, ← State.holder, moveHolder_holder]
  rfl

/-- The PRF after a revocation. -/
@[simp] theorem revoke_prf (cause : Cause) (r c : Nat) :
    (revoke cause r c s).din.prf = s.din.prf.filter fun e => !(e.client == c && e.resource == r) := by
  simp [revoke]

theorem revoke_generation (cause : Cause) (r c r' : Nat) :
    (revoke cause r c s).generation r' =
      if r = r' ∧ r' < 12 ∧ (s.holder r c).state ≠ .yielding then (s.generation r + 1) % 256 else s.generation r' := by
  have e : ∀ x, (revoke cause r c s).gtb.generations = (moveHolder r c .yielding (s.setRecord ((freeRecordNo s).getD 8)
      x)).gtb.generations := by
    intro x; simp [revoke, moveHolder]
    by_cases h : (s.holder r c).state = .yielding <;> simp [h, HolderState.leaves]
  rw [State.generation, e none, ← State.generation, moveHolder_generation]
  rfl

@[simp] theorem revoke_count (cause : Cause) (r c : Nat) (k : Count) :
    (revoke cause r c s).count k = if k = .revocations then raised (s.count .revocations) else s.count k := by
  simp only [revoke, count_countEvent, notify_count]
  by_cases h : Count.revocations = k
  · subst h; simp [State.count]
  · simp [h, Ne.symm h, State.count]

/-! ## Parameters and leases (R49, R62) -/

/-- A renewal writes the parameters and starts the lease: nothing else of the holder changes. -/
theorem renew_holder (r c : Nat) (p : Params) (r' c' : Nat) :
    (renew r c p s).holder r' c' =
      if r = r' ∧ c = c' ∧ r' < 12 ∧ c' < 3 then
        { s.holder r c with
          q := p.q, f := p.f, fallback := p.fallback, cls := p.cls, weight := p.weight,
          lease := .running (s.now + 100 * (((s.client c).entry.map (·.leasePeriod)).getD 1000)), lapsed := false }
      else s.holder r' c' := by
  simp only [renew, startLease, setClient_holder, writeParams, setHolder_setHolder, setHolder_client, setHolder_now,
    holder_setHolder, Timer.start]
  by_cases h : r = r' ∧ c = c' ∧ r' < 12 ∧ c' < 3
  · obtain ⟨rfl, rfl, hr, hc⟩ := h
    simp [hr, hc]
  · simp [h]

/-- A renewal sets the client's lapse-alert mark. -/
theorem renew_client (r c : Nat) (p : Params) (c' : Nat) :
    (renew r c p s).client c' = if c = c' ∧ c' < 3 then { s.client c with lapseAlert := true } else s.client c' := by
  simp only [renew, startLease, client_setClient, setHolder_client, writeParams]

end Sys2Proof.Machine
end

