-- ==== Sys2Proof/Laws/Channels.lean ====
section
/-! SUPPORT. What the operations of the Channel Units and of the sequence slots do to channels: the sending of COMMAND
frames record by record, and the part of a channel that no derivation, minimum or report can change. -/

namespace Sys2Proof.Machine

variable (s : State)

/-! ## One channel -/

theorem modifyChannel_channel (n n' : Nat) (f : Channel → Channel) :
    (s.modifyChannel n f).channel n' = if n = n' then (s.channel n').map f else s.channel n' := by
  unfold State.modifyChannel
  split
  · rename_i h
    by_cases hn : n = n'
    · subst hn; simp [h]
    · simp [hn]
  · rename_i ch h
    rw [channel_setChannel]
    by_cases hn : n = n'
    · subst hn; simp [h, channel_lt s h]
    · simp [hn]

@[simp] theorem modifyChannel_keeps (n : Nat) (f : Channel → Channel) : OnlyChannels s (s.modifyChannel n f) := by
  unfold State.modifyChannel; split <;> simp

/-! ## The sending of COMMAND frames (R130, R133, R134) -/

theorem transmit_channel (n : Nat) (ch : Channel) (seq setting n' : Nat) :
    (transmit n ch seq setting s).channel n' =
      if n = n' ∧ n' < 16 then some { ch with refreshTimer := Timer.startUnlessZero s.now ch.refreshPeriod }
      else s.channel n' := by
  simp only [transmit, channel_setChannel, countEvent_now, originate_now, countEvent_channel, originate_channel]

@[simp] theorem transmit_count (n : Nat) (ch : Channel) (seq setting : Nat) (k : Count) :
    (transmit n ch seq setting s).count k = if k = .commandsSent then raised (s.count .commandsSent) else s.count k := by
  simp only [transmit, setChannel_count, count_countEvent, originate_count]
  by_cases h : Count.commandsSent = k
  · subst h; simp
  · simp [h, Ne.symm h]

/-- A new COMMAND on a loaded channel (R130). -/
theorem sendNew_eq {n : Nat} {ch : Channel} (setting : Nat) (h : s.channel n = some ch) :
    sendNew n setting s = transmit n
      { ch with
        cmdSeq := (ch.cmdSeq + 1) % 16
        handshake := .awaiting ((ch.cmdSeq + 1) % 16) setting 0
        ackTimer := if s.lpu.loop = .down then .stopped else .running (s.now + 100 * ch.ackLimit) }
      ((ch.cmdSeq + 1) % 16) setting s := by
  simp only [sendNew, h, Timer.start]

/-- A re-sending of an outstanding COMMAND (R130, R134). -/
theorem resend_eq {n seq setting k : Nat} {ch : Channel} (retries : Nat) (h : s.channel n = some ch)
    (ha : ch.handshake = .awaiting seq setting k) :
    resend n retries s = transmit n
      { ch with
        handshake := .awaiting seq setting retries
        ackTimer := if s.lpu.loop = .down then .suspended (100 * ch.ackLimit) else .running (s.now + 100 * ch.ackLimit) }
      seq setting s := by
  simp only [resend, h, ha, Timer.start]

/-- With the handshake CLEAR there is nothing to re-send. -/
theorem resend_clear {n : Nat} {ch : Channel} (retries : Nat) (h : s.channel n = some ch) (ha : ch.handshake = .clear) :
    resend n retries s = s := by simp only [resend, h, ha]

/-- A sending on one channel leaves the others, and keeps its channel's state, setting, target and station. -/
theorem resend_channel (n retries n' : Nat) :
    ∃ f : Channel → Channel, (resend n retries s).channel n' = (s.channel n').map f ∧
      ∀ ch, (f ch).state = ch.state ∧ (f ch).hold = ch.hold ∧ (f ch).cause = ch.cause ∧ (f ch).current = ch.current ∧
        (f ch).target = ch.target ∧ (f ch).station = ch.station ∧ (f ch).minRun = ch.minRun ∧
        (f ch).rampTimer = ch.rampTimer ∧ (f ch).lastActual = ch.lastActual ∧ (f ch).cmdSeq = ch.cmdSeq ∧
        (n ≠ n' → f ch = ch) := by
  by_cases hn : n = n'
  · subst hn
    cases h : s.channel n with
    | none => exact ⟨id, by simp [resend, h], by simp⟩
    | some ch =>
      cases ha : ch.handshake with
      | clear => exact ⟨id, by simp [resend_clear s retries h ha, h], by simp⟩
      | awaiting seq setting k =>
        refine ⟨fun c => { c with
          handshake := .awaiting seq setting retries
          ackTimer := if s.lpu.loop = .down then .suspended (100 * ch.ackLimit) else .running (s.now + 100 * ch.ackLimit)
          refreshTimer := Timer.startUnlessZero s.now ch.refreshPeriod }, ?_, by simp⟩
        rw [resend_eq s retries h ha, transmit_channel]
        simp [channel_lt s h]
  · refine ⟨id, ?_, by simp⟩
    cases h : s.channel n with
    | none => simp [resend, h]
    | some ch =>
      cases ha : ch.handshake with
      | clear => simp [resend_clear s retries h ha]
      | awaiting seq setting k => rw [resend_eq s retries h ha, transmit_channel]; simp [hn]

/-! ## Entry into states (R136 to R139) -/

/-- A channel's entry into ACTIVE: its target is derived, its ramp and refresh timers run, and it keeps its setting. -/
theorem enterActive_channel (n n' : Nat) :
    ∃ f : Channel → Channel, (enterActive n s).channel n' = (s.channel n').map f ∧
      ∀ ch, (n ≠ n' → f ch = ch) ∧ (n = n' → (f ch).state = .active ∧ (f ch).hold = ch.hold ∧
        (f ch).cause = ch.cause ∧ (f ch).current = ch.current ∧ (f ch).station = ch.station ∧
        (f ch).minRun = ch.minRun ∧ (f ch).lastActual = ch.lastActual ∧ (f ch).target = (ch.derive s n).target ∧
        (f ch).rampTimer = .running (s.now + 100 * ch.rampInterval)) := by
  simp only [enterActive]
  obtain ⟨f, e, hf⟩ := resend_channel (s.modifyChannel n fun ch =>
    { { ch with state := .active }.derive s n with
      rampTimer := Timer.start s.now ch.rampInterval
      refreshTimer := Timer.startUnlessZero s.now ch.refreshPeriod }) n 0 n'
  rw [e, modifyChannel_channel]
  by_cases h : n = n'
  · subst h
    refine ⟨fun ch => f { { ch with state := .active }.derive s n with
      rampTimer := Timer.start s.now ch.rampInterval
      refreshTimer := Timer.startUnlessZero s.now ch.refreshPeriod }, by simp [Function.comp_def], fun ch => ⟨by simp, ?_⟩⟩
    have := hf { { ch with state := .active }.derive s n with
      rampTimer := Timer.start s.now ch.rampInterval
      refreshTimer := Timer.startUnlessZero s.now ch.refreshPeriod }
    rintro -
    simp [this]
    and_intros <;> rfl
  · refine ⟨f, by simp [h], fun ch => ⟨fun _ => (hf ch).2.2.2.2.2.2.2.2.2.2 h, fun h' => absurd h' h⟩⟩

/-- A channel returned to service: its fault cause goes, its setting is UNKNOWN, its handshake CLEAR, and it is ACTIVE when
it may run and HELD otherwise (R138, R139); every other channel stays. -/
theorem returnChannel_channel (n : Nat) (run : Bool) :
    (∀ n', n ≠ n' → (returnChannel n run s).channel n' = s.channel n') ∧
      ∀ ch, s.channel n = some ch → ∃ ch', (returnChannel n run s).channel n = some ch' ∧ ch'.cause = none ∧
        ch'.current = none ∧ ch'.handshake = .clear ∧ ch'.state = (if run then .active else .held) ∧
        ch'.station = ch.station ∧ ch'.hold = ch.hold := by
  simp only [returnChannel]
  generalize hs1 : (s.modifyChannel n fun ch =>
    { ch with state := .held, cause := none, current := none, handshake := .clear }) = s1
  have h1 : ∀ n', s1.channel n' = if n = n' then (s.channel n').map fun ch =>
      { ch with state := .held, cause := none, current := none, handshake := .clear } else s.channel n' := by
    intro n'; rw [← hs1, modifyChannel_channel]
  constructor
  · intro n' hn
    have h1' := h1 n'
    rw [if_neg hn] at h1'
    split
    · obtain ⟨f, e, hf⟩ := enterActive_channel s1 n n'
      rw [e, h1']
      cases s.channel n' with
      | none => rfl
      | some ch => simp [(hf ch).1 hn]
    · rw [modifyChannel_channel, if_neg hn, h1']
  · intro ch hch
    have h1' := h1 n
    rw [if_pos rfl, hch] at h1'
    split
    · rename_i hrun
      simp only [enterActive]
      generalize hs2 : State.modifyChannel s1 n _ = s2
      have h2 : s2.channel n = some ({ { { ch with state := .held, cause := none, current := none, handshake := .clear }
          with state := .active }.derive s1 n with
            rampTimer := Timer.start s1.now ch.rampInterval
            refreshTimer := Timer.startUnlessZero s1.now ch.refreshPeriod }) := by
        rw [← hs2, modifyChannel_channel, if_pos rfl, h1']; rfl
      rw [resend_clear _ 0 h2 rfl, h2]
      exact ⟨_, rfl, rfl, rfl, rfl, by simp [Channel.derive], rfl, rfl⟩
    · rename_i hrun
      rw [modifyChannel_channel, if_pos rfl, h1']
      exact ⟨_, rfl, rfl, rfl, rfl, by simp [Channel.enterHeld], rfl, rfl⟩

/-- What the return of a station does to each channel: one of its station that it had faulted returns to service, every
other stays (R139). -/
theorem chuStationReturn_channel (a n : Nat) (ch : Channel) (h : s.channel n = some ch) :
    ∃ ch', (chuStationReturn a s).channel n = some ch' ∧
      (ch.station = a ∧ ch.state = .faulted ∧ ch.cause = some .station →
        ch'.cause = none ∧ ch'.current = none ∧ ch'.handshake = .clear ∧ ch'.hold = ch.hold ∧
          ch'.station = ch.station ∧ ch'.state = if s.mgu.part = .run ∧ ch.hold = false then .active else .held) ∧
      (¬(ch.station = a ∧ ch.state = .faulted ∧ ch.cause = some .station) → ch' = ch) := by
  unfold chuStationReturn
  obtain ⟨t, ht, htn, e⟩ := forEach_at (fun s n => s.channel n) (fun t => t.mgu = s.mgu)
    (f := fun n s => match s.channel n with
      | none => s
      | some ch =>
        if ch.station = a ∧ ch.state = .faulted ∧ ch.cause = some .station then
          returnChannel n (s.mgu.part == .run && !ch.hold) s
        else s) List.nodup_range (List.mem_range.mpr (channel_lt s h)) (s := s) rfl
    (by intro i _ t ht; repeat' split
        all_goals simp [ht])
    (by
      intro i _ hi t _
      repeat' split
      · rfl
      · exact (returnChannel_channel t i _).1 n hi
      · rfl)
  rw [h] at htn
  rw [htn] at e
  dsimp only at e
  by_cases hc : ch.station = a ∧ ch.state = .faulted ∧ ch.cause = some .station
  · rw [if_pos hc] at e
    obtain ⟨ch', h1, h2, h3, h4, h5, h6, h7⟩ := (returnChannel_channel t n (t.mgu.part == .run && !ch.hold)).2 ch htn
    refine ⟨ch', e.trans h1, fun _ => ⟨h2, h3, h4, h7, h6, ?_⟩, fun h => absurd hc h⟩
    rw [h5, ht]; simp
  · rw [if_neg hc] at e
    exact ⟨ch, e.trans htn, fun h => absurd h hc, fun _ => rfl⟩

/-- What the fault of a station does to each channel (R139). -/
theorem chuStationFault_channel (a n : Nat) :
    (chuStationFault a s).channel n = (s.channel n).map fun ch =>
      if ch.station = a ∧ ch.state ≠ .faulted then ch.enterFaulted .station else ch := by
  by_cases hn : n < 16
  · unfold chuStationFault
    obtain ⟨t, -, htn, e⟩ := forEach_at (fun s n => s.channel n) (fun _ => True)
      (f := fun n s => s.modifyChannel n fun ch =>
        if ch.station = a ∧ ch.state ≠ .faulted then ch.enterFaulted .station else ch)
      List.nodup_range (List.mem_range.mpr hn) (s := s) trivial (fun _ _ _ _ => trivial)
      (by intro i _ hi t _; rw [modifyChannel_channel, if_neg hi])
    rw [e, modifyChannel_channel, if_pos rfl, htn]
  · rw [State.channel, State.channel, Table.get_beyond _ _ (by omega), Table.get_beyond _ _ (by omega)]; rfl

/-! ## The part of a channel that derivations leave -/

/-- A channel without its target, split position and sequence minimum: what a derivation, a minimum and every report
leave as it was (R126, R127, R144). -/
def Channel.core (ch : Channel) : Channel := { ch with target := 0, split := 0, seqMin := 0 }

/-- The cores of all channels. -/
def cores (n : Nat) : Option Channel := (s.channel n).map Channel.core

theorem cores_congr {s t : State} (h : t.chu.channels = s.chu.channels) : cores t = cores s := by
  funext n; simp only [cores, State.channel, h]

@[simp] theorem derive_core (n : Nat) (ch : Channel) : (ch.derive s n).core = ch.core := rfl

theorem modifyChannel_cores (n : Nat) (f : Channel → Channel) (h : ∀ ch, (f ch).core = ch.core) :
    cores (s.modifyChannel n f) = cores s := by
  funext k
  simp only [cores, modifyChannel_channel]
  split
  · cases s.channel k <;> simp [h]
  · rfl

@[simp] theorem deriveTarget_cores (n : Nat) : cores (deriveTarget n s) = cores s := by
  unfold deriveTarget
  apply modifyChannel_cores
  intro ch; split <;> simp

@[simp] theorem refreshMinimum_cores (n : Nat) : cores (refreshMinimum n s) = cores s := by
  unfold refreshMinimum
  rw [deriveTarget_cores]
  exact modifyChannel_cores _ _ _ fun _ => rfl

@[simp] theorem reportToGtb_cores (n : Nat) : cores (reportToGtb n s) = cores s := cores_congr (by simp)

@[simp] theorem judgePassMarks_cores : cores (judgePassMarks s) = cores s := cores_congr (by simp)

theorem enterStep_cores {advance : Nat → State → State} (adv : ∀ k s, cores (advance k s) = cores s) (k : Nat)
    (st : SlotState) : cores (enterStep advance k st s) = cores s := by
  have e : ∀ k x, cores (s.setSlot k x) = cores s := fun k x => cores_congr (by simp)
  have e' : ∀ k x (t : State), cores (t.setSlot k x) = cores t := fun k x t => cores_congr (by simp)
  simp only [enterStep]
  repeat' split
  · rfl
  · exact e _ _
  · rw [forEach_keeps cores]
    · simp [e']
    · intro i _ t; split <;> simp [adv]
  · rw [adv]; simp [e']
  · simp [e']

@[simp] theorem advanceSlot_cores (fuel k : Nat) : cores (advanceSlot fuel k s) = cores s := by
  induction fuel generalizing k s with
  | zero => rfl
  | succ fuel ih =>
    simp only [advanceSlot]
    repeat' split
    all_goals first
      | rfl
      | exact cores_congr (by simp)
      | exact enterStep_cores _ (fun k s => ih s k) _ _

@[simp] theorem startStep_cores (k : Nat) (st : SlotState) : cores (startStep k st s) = cores s :=
  enterStep_cores _ (fun k s => advanceSlot_cores s _ k) _ _

@[simp] theorem stepDone_cores (k : Nat) : cores (stepDone k s) = cores s := advanceSlot_cores _ _ _

@[simp] theorem reportToSsu_cores (n : Nat) : cores (reportToSsu n s) = cores s := by
  unfold reportToSsu
  apply forEach_keeps
  intro i _ t; split <;> simp

@[simp] theorem reportChanges_cores (b : State) : cores (reportChanges b s) = cores s := by
  simp only [reportChanges]
  rw [forEach_keeps cores _ _ fun i _ t => by simp, forEach_keeps cores _ _ fun i _ t => by simp]

@[simp] theorem raiseAlert_cores (c : AlertCategory) (i : Nat) : cores (raiseAlert c i s) = cores s :=
  cores_congr (by simp)

@[simp] theorem setSlot_cores (k : Nat) (x : Option Slot) : cores (s.setSlot k x) = cores s := cores_congr (by simp)

@[simp] theorem failSlot_cores (k : Nat) : cores (failSlot k s) = cores s := by
  simp only [failSlot]
  split
  · rfl
  · rw [reportChanges_cores, raiseAlert_cores, forEach_keeps cores _ _ fun i _ t => by simp, setSlot_cores]

@[simp] theorem slotRests_cores (k : Nat) (sl : Slot) : cores (slotRests k sl s) = cores s := cores_congr (by simp)

@[simp] theorem abortStart_cores (k i : Nat) (sl : Slot) : cores (abortStart k i sl s) = cores s := by
  simp only [abortStart]
  repeat' split
  all_goals simp

@[simp] theorem stopDelayExpired_cores (k : Nat) : cores (stopDelayExpired k s) = cores s := by
  simp only [stopDelayExpired]
  repeat' split
  all_goals simp

@[simp] theorem slotPassStart_cores (k c : Nat) : cores (slotPassStart k c s) = cores s := by
  simp only [slotPassStart]
  repeat' split
  all_goals simp

@[simp] theorem slotsPassStart_cores (t : Table 12 LatchedRecord) : cores (slotsPassStart t s) = cores s := by
  unfold slotsPassStart
  apply forEach_keeps
  intro i _ t; split <;> simp

@[simp] theorem chuTakeResults_cores (t : Table 12 LatchedRecord) (out : PassOutcome) :
    cores (chuTakeResults t out s) = cores s := by
  unfold chuTakeResults
  rw [forEach_keeps cores _ _ fun i _ t => by simp]
  exact cores_congr rfl

/-- A loaded channel with the same core: every field but target, split position and sequence minimum reads the same. -/
theorem channel_of_cores {s t : State} (h : cores t = cores s) {n : Nat} {ch : Channel} (hc : s.channel n = some ch) :
    ∃ ch', t.channel n = some ch' ∧ ch'.core = ch.core := by
  have := congrFun h n
  simp only [cores, hc, Option.map_some] at this
  cases ht : t.channel n with
  | none => simp [ht] at this
  | some ch' => exact ⟨ch', rfl, by simpa [ht] using this⟩

/-- The fields that equal cores share. -/
theorem core_fields {a b : Channel} (h : a.core = b.core) :
    a.kind = b.kind ∧ a.station = b.station ∧ a.output = b.output ∧ a.minRun = b.minRun ∧
      a.slew = b.slew ∧ a.rampInterval = b.rampInterval ∧ a.state = b.state ∧ a.hold = b.hold ∧ a.cause = b.cause ∧
      a.current = b.current ∧ a.handshake = b.handshake ∧ a.cmdSeq = b.cmdSeq ∧ a.lastActual = b.lastActual ∧
      a.rampTimer = b.rampTimer ∧ a.ackTimer = b.ackTimer ∧ a.refreshTimer = b.refreshTimer := by
  cases a; cases b; simp_all [Channel.core]

/-! ## Derivation (R127) -/

theorem minimumRun_cases (m : Nat) (current : Option Nat) (t : Nat) :
    (minimumRun m current t = t ∧ (t = 0 ∨ m ≤ t)) ∨
      (0 < t ∧ t < m ∧ minimumRun m current t = if ∃ c, current = some c ∧ m ≤ c then m else 0) := by
  unfold minimumRun
  by_cases h : 0 < m ∧ 0 < t ∧ t < m
  · refine .inr ⟨h.2.1, h.2.2, ?_⟩
    simp only [h, and_self, if_true]
    cases current <;> simp
  · refine .inl ⟨by simp [h], by omega⟩

/-! ## The frames an operation sends, as the statements write them -/

theorem notify_sends (c : Nat) (l : List Notice) (s : State) :
    notify c l s = { s with sent := s.sent ++ noticeTo s c l } := by
  unfold notify noticeTo
  cases (s.client c).entry with
  | none => simp
  | some e =>
    by_cases h : stationFaulty e.station s = true
    · simp [h]
    · simp [h]; rfl

theorem sendNew_commands (n v : Nat) (ch : Channel) (s : State) (h : s.channel n = some ch) :
    sendNew n v s = commandedNew n ch v s := by
  unfold sendNew commandedNew commanded
  rw [h]
  rfl

theorem resend_commands (n k q v j : Nat) (ch : Channel) (s : State) (h : s.channel n = some ch)
    (hs : ch.handshake = .awaiting q v j) :
    resend n k s = commanded n ch q v k
      (if s.lpu.loop = .down then .suspended (100 * ch.ackLimit) else .running (s.now + 100 * ch.ackLimit)) s := by
  unfold resend commanded
  rw [h]
  simp only [hs]
  rfl

end Sys2Proof.Machine
end

