-- ==== Sys2Proof/Laws/Standing.lean ====
section
/-! SUPPORT. How the shared operations on holders, records and the PRF keep the law of R63 (`StandingLaw`). -/

namespace Sys2Proof.Machine

variable {s t : State}

/-! ## What the law reads -/

/-- The holder a live record names. -/
def namedBy (s : State) (k : Nat) : Option (Nat × Nat) := (s.record k).map fun v => (v.resource, v.client)

/-- The law reads the holder states, the holders that records name, and the PRF alone. -/
theorem StandingLaw.of_same (h : StandingLaw s) (hh : ∀ r c, (t.holder r c).state = (s.holder r c).state)
    (hr : ∀ k, namedBy t k = namedBy s k) (hp : t.din.prf = s.din.prf) : StandingLaw t := by
  obtain ⟨h1, h2, h3, h4, h5⟩ := h
  have back : ∀ k v, t.record k = some v → ∃ w, s.record k = some w ∧ w.resource = v.resource ∧ w.client = v.client := by
    intro k v hv
    have := hr k
    simp only [namedBy, hv, Option.map_some] at this
    cases hs : s.record k with
    | none => simp [hs] at this
    | some w => simp [hs] at this; exact ⟨w, rfl, this.1.symm, this.2.symm⟩
  refine ⟨fun r c c' a b e x => ?_, fun k v hv => ?_, fun k l v w hv hw e1 e2 => ?_, fun e he => ?_, by rw [hp]; exact h5⟩
  · rw [hh] at x ⊢; exact h1 r c c' a b e x
  · obtain ⟨w, hw, e1, e2⟩ := back k v hv
    have := h2 k w hw
    rw [hh, ← e1, ← e2]; exact this
  · obtain ⟨v', hv', a1, a2⟩ := back k v hv
    obtain ⟨w', hw', b1, b2⟩ := back l w hw
    exact h3 k l v' w' hv' hw' (by rw [a1, b1, e1]) (by rw [a2, b2, e2])
  · rw [hp] at he; rw [hh]; exact h4 e he

/-- Frames that leave holders, records and PRF leave the law. -/
theorem StandingLaw.of_eq (h : StandingLaw s) (hh : t.gtb.holders = s.gtb.holders)
    (hr : t.gtb.records = s.gtb.records) (hp : t.din.prf = s.din.prf) : StandingLaw t :=
  h.of_same (fun r c => by simp only [State.holder, hh]) (fun k => by simp only [namedBy, State.record, hr]) hp

theorem StandingLaw.notify (h : StandingLaw s) (c : Nat) (l : List Notice) : StandingLaw (notify c l s) :=
  h.of_eq (by simp) (by simp) (by simp)

theorem StandingLaw.removePrf (h : StandingLaw s) (r c : Nat) : StandingLaw (removePrf r c s) := by
  obtain ⟨h1, h2, h3, h4, h5⟩ := h
  refine ⟨h1, h2, h3, fun e he => h4 e ?_, ?_⟩
  · simp only [removePrf_din] at he; exact List.mem_of_mem_filter he
  · simp only [removePrf_din]; exact h5.filter _

/-- After its removal no PRF entry names the holder. -/
theorem removePrf_gone (r c : Nat) : ∀ e ∈ (removePrf r c s).din.prf, ¬(e.resource = r ∧ e.client = c) := by
  intro e he
  simp only [removePrf_din, List.mem_filter, Bool.not_eq_true', Bool.and_eq_false_iff, beq_eq_false_iff_ne] at he
  rintro ⟨rfl, rfl⟩
  rcases he.2 with h | h <;> exact h rfl

/-- A PRF entry added for a holder that waits, beside no other entry of its resource. -/
theorem StandingLaw.addPrf (h : StandingLaw s) {r c : Nat} (level : Level) (hr : r < 12) (hc : c < 3)
    (hp : (s.holder r c).state.pends = true) (hn : ∀ e ∈ s.din.prf, e.resource ≠ r) :
    StandingLaw { s with din.prf := s.din.prf ++ [⟨c, r, level⟩] } := by
  obtain ⟨h1, h2, h3, h4, h5⟩ := h
  refine ⟨h1, h2, h3, fun e he => ?_, ?_⟩
  · rcases List.mem_append.mp he with he | he
    · exact h4 e he
    · obtain rfl := List.mem_singleton.mp he
      exact ⟨hr, hc, hp⟩
  · refine List.pairwise_append.mpr ⟨h5, List.pairwise_singleton _ _, fun a ha b hb => ?_⟩
    obtain rfl := List.mem_singleton.mp hb
    exact hn a ha

/-! ## One holder moved -/

/-- A move keeps the law when the new state agrees with the other holders, and no record or PRF entry that names the holder
asks for another state. -/
theorem StandingLaw.move (h : StandingLaw s) {r c : Nat} (st : HolderState)
    (hex : st.excludes = true → ∀ c', c' < 3 → c' ≠ c → (s.holder r c').state.apart = true)
    (hap : ∀ c', c' < 3 → c' ≠ c → (s.holder r c').state.excludes = true → st.apart = true)
    (hrec : st ≠ .yielding → ∀ k v, s.record k = some v → ¬(v.resource = r ∧ v.client = c))
    (hprf : st.pends = false → ∀ e ∈ s.din.prf, ¬(e.resource = r ∧ e.client = c)) :
    StandingLaw (moveHolder r c st s) := by
  by_cases hrc : r < 12 ∧ c < 3
  case neg =>
    refine h.of_same (fun r' c' => ?_) (fun k => by simp [namedBy]) (by simp)
    rw [moveHolder_holder, if_neg]
    rintro ⟨rfl, rfl, a, b, -⟩; exact hrc ⟨a, b⟩
  obtain ⟨hr, hc⟩ := hrc
  have hs : ∀ r' c', ((moveHolder r c st s).holder r' c').state = if r = r' ∧ c = c' then st else (s.holder r' c').state := by
    intro r' c'
    by_cases e : r = r' ∧ c = c'
    · obtain ⟨rfl, rfl⟩ := e
      simp [moveHolder_state s st hr hc]
    · rw [if_neg e, moveHolder_other]
      rintro ⟨⟩; exact e ⟨rfl, rfl⟩
  obtain ⟨h1, h2, h3, h4, h5⟩ := h
  refine ⟨fun r' a b ha hb hab => ?_, fun k v hv => ?_, fun k l v w hv hw => ?_, fun e he => ?_, by simpa using h5⟩
  · rw [hs, hs]
    by_cases e1 : r = r' ∧ c = a
    · obtain ⟨rfl, rfl⟩ := e1
      rw [if_pos ⟨rfl, rfl⟩, if_neg (fun e => hab e.2)]
      exact fun x => hex x b hb (Ne.symm hab)
    · rw [if_neg e1]
      by_cases e2 : r = r' ∧ c = b
      · obtain ⟨rfl, rfl⟩ := e2
        rw [if_pos ⟨rfl, rfl⟩]
        exact hap a ha hab
      · rw [if_neg e2]; exact h1 r' a b ha hb hab
  · rw [moveHolder_record] at hv
    obtain ⟨a, b, e⟩ := h2 k v hv
    refine ⟨a, b, ?_⟩
    rw [hs]
    split
    · rename_i hc'
      by_contra hst
      exact hrec hst k v hv ⟨hc'.1.symm, hc'.2.symm⟩
    · exact e
  · rw [moveHolder_record] at hv hw
    exact h3 k l v w hv hw
  · rw [show (moveHolder r c st s).din.prf = s.din.prf by simp] at he
    obtain ⟨a, b, e'⟩ := h4 e he
    refine ⟨a, b, ?_⟩
    rw [hs]
    split
    · rename_i hc'
      cases hst : st.pends with
      | true => rfl
      | false => exact absurd ⟨hc'.1.symm, hc'.2.symm⟩ (hprf hst e he)
    · exact e'

/-- Under the law no live record names a holder that is not YIELDING. -/
theorem StandingLaw.unnamed (h : StandingLaw s) {r c : Nat} (hy : (s.holder r c).state ≠ .yielding) (k : Nat)
    (v : Revocation) (hv : s.record k = some v) : ¬(v.resource = r ∧ v.client = c) := by
  rintro ⟨rfl, rfl⟩; exact hy (h.2.1 k v hv).2.2

/-- Under the law no PRF entry names a holder that does not wait. -/
theorem StandingLaw.unlisted (h : StandingLaw s) {r c : Nat} (hy : (s.holder r c).state.pends = false) (e : PrfEntry)
    (he : e ∈ s.din.prf) : ¬(e.resource = r ∧ e.client = c) := by
  rintro ⟨rfl, rfl⟩
  rw [(h.2.2.2.1 e he).2.2] at hy; cases hy

/-- A holder leaves for NONE, its PRF entry gone, when no record names it. -/
theorem StandingLaw.toNone (h : StandingLaw s) {r c : Nat} (hy : (s.holder r c).state ≠ .yielding) :
    StandingLaw (moveHolder r c .none (Machine.removePrf r c s)) :=
  (h.removePrf r c).move .none (by intro x; cases x) (by intros; rfl) (fun _ k v hv => h.unnamed hy k v hv)
    (fun _ => removePrf_gone r c)

/-! ## PRF completion and the freeing of records -/

/-- A PRF completion keeps the law: the entry's holder is the only one of its resource with a standing (R57). -/
theorem StandingLaw.completePrf (h : StandingLaw s) (r : Nat) : StandingLaw (completePrf r s) := by
  rcases completePrf_cases s r with e | ⟨e, hn, hf, heq⟩
  · rw [e]; exact h
  rw [heq]
  have hmem := List.mem_of_find?_eq_some hf
  have her : e.resource = r := by simpa using List.find?_some hf
  subst her
  obtain ⟨hr, hc, hp⟩ := h.2.2.2.1 e hmem
  have hex : (s.holder e.resource e.client).state.excludes = true := by
    cases hst : (s.holder e.resource e.client).state <;> simp_all [HolderState.pends, HolderState.excludes]
  -- the entry is removed first: the law then allows any standing for its holder
  have hremove : StandingLaw (Machine.removePrf e.resource e.client s) := h.removePrf _ _
  have hmove := hremove.move (r := e.resource) (c := e.client)
    (completedState (s.holder e.resource e.client) e.target)
    (fun _ c' hc' hne => h.1 e.resource e.client c' hc hc' (Ne.symm hne) hex)
    (fun c' hc' hne x => by
      have := h.1 e.resource c' e.client hc' hc hne x
      cases hst : (s.holder e.resource e.client).state <;> simp_all [HolderState.pends, HolderState.apart])
    (fun _ k v hv hk => by
      have : recordNames s e.resource = true := (recordNames_iff s e.resource).mpr ⟨k, v, hv, hk.1⟩
      rw [hn] at this; cases this)
    (fun _ => removePrf_gone _ _)
  refine hmove.of_same (fun r' c' => ?_) (fun k => ?_) ?_
  · rw [show (Machine.removePrf e.resource e.client (Machine.notify e.client
      [⟨e.resource, .granted (completedState (s.holder e.resource e.client) e.target).level 0⟩]
      (moveHolder e.resource e.client (completedState (s.holder e.resource e.client) e.target) s))).holder r' c' =
      (moveHolder e.resource e.client (completedState (s.holder e.resource e.client) e.target) s).holder r' c' by
      simp [State.holder]]
    rw [moveHolder_holder, moveHolder_holder]; rfl
  · simp [namedBy, State.record]
  · simp

/-- The freeing of a record keeps the law: its holder, which only it names, becomes NONE (R80). -/
theorem StandingLaw.freeRecord (h : StandingLaw s) (k : Nat) : StandingLaw (freeRecord k s) := by
  unfold Machine.freeRecord
  split
  · exact h
  rename_i v hv
  apply StandingLaw.completePrf
  obtain ⟨hr, hc, hy⟩ := h.2.1 k v hv
  -- the record goes first: then nothing names the holder
  have hfree : StandingLaw (s.setRecord k none) := by
    obtain ⟨h1, h2, h3, h4, h5⟩ := h
    have sub : ∀ j w, (s.setRecord k none).record j = some w → s.record j = some w := by
      intro j w hw
      rw [record_setRecord] at hw
      split at hw
      · cases hw
      · exact hw
    exact ⟨h1, fun j w hw => h2 j w (sub j w hw), fun j l w x hw hx => h3 j l w x (sub j w hw) (sub l x hx), h4, h5⟩
  have hmove := hfree.move (r := v.resource) (c := v.client) .none (by intro x; cases x) (by intros; rfl)
    (fun _ j w hw hj => by
      rw [record_setRecord] at hw
      split at hw
      · cases hw
      · rename_i hne
        have := h.2.2.1 k j v w hv hw hj.1.symm hj.2.symm
        exact hne ⟨this, record_lt s hw⟩)
    (fun _ => h.unlisted (by rw [hy]; rfl))
  refine hmove.of_same (fun r' c' => ?_) (fun j => ?_) (by simp)
  · rw [show ((moveHolder v.resource v.client .none s).setRecord k none).holder r' c' =
      (moveHolder v.resource v.client .none s).holder r' c' from rfl, moveHolder_holder, moveHolder_holder]
    rfl
  · simp only [namedBy, moveHolder_record, record_setRecord]

/-- A record rewritten with the holder it names keeps the law. -/
theorem StandingLaw.rewriteRecord (h : StandingLaw s) {k : Nat} {v w : Revocation} (hv : s.record k = some v)
    (e1 : w.resource = v.resource) (e2 : w.client = v.client) : StandingLaw (s.setRecord k (some w)) := by
  refine h.of_same (fun _ _ => rfl) (fun j => ?_) rfl
  simp only [namedBy, record_setRecord]
  by_cases hj : k = j ∧ j < 8
  · obtain ⟨rfl, -⟩ := hj
    simp [hv, record_lt s hv, e1, e2]
  · simp [hj]

theorem StandingLaw.rampClear (h : StandingLaw s) (k : Nat) : StandingLaw (rampClear k s) := by
  simp only [Machine.rampClear]
  split
  · exact h
  · rename_i v hv
    have := h.rewriteRecord (w := { v with ramp := .clear }) hv rfl rfl
    split
    · exact this
    · exact this.freeRecord k

theorem StandingLaw.noticeClear (h : StandingLaw s) (k : Nat) : StandingLaw (noticeClear k s) := by
  simp only [Machine.noticeClear]
  split
  · exact h
  · rename_i v hv
    have := h.rewriteRecord (w := { v with notice := false, timer := .stopped }) hv rfl rfl
    split
    · split
      · exact this.freeRecord k
      · exact this
    · exact h

theorem StandingLaw.reportToGtb (h : StandingLaw s) (n : Nat) : StandingLaw (reportToGtb n s) := by
  unfold Machine.reportToGtb
  refine forEach_induct _ h fun k _ t ht => ?_
  repeat' split
  · exact ht.rampClear k
  · exact ht
  · exact ht

theorem StandingLaw.judgePassMarks (h : StandingLaw s) : StandingLaw (judgePassMarks s) := by
  unfold Machine.judgePassMarks
  refine forEach_induct _ h fun k _ t ht => ?_
  split
  · rename_i v hv
    split
    · split
      · exact ht.rampClear k
      · exact ht.rewriteRecord hv rfl rfl
    · exact ht
  · exact ht

/-! ## Revocation -/

/-- A revocation of a holder with a standing keeps the law: the new record names it, and nothing else does (R77). -/
theorem StandingLaw.revoke (h : StandingLaw s) (cause : Cause) {r c : Nat}
    (hs : (s.holder r c).state.revocable = true) : StandingLaw (revoke cause r c s) := by
  have hrc : r < 12 ∧ c < 3 := by
    by_contra hn
    rw [holder_beyond s (by omega)] at hs; cases hs
  have hy : (s.holder r c).state ≠ .yielding := by intro e; rw [e] at hs; cases hs
  have hmove := (h.removePrf r c).move (r := r) (c := c) .yielding (by intro x; cases x) (by intros; rfl)
    (fun x => absurd rfl x) (fun _ => removePrf_gone r c)
  have hhold : ∀ r' c', ((Machine.revoke cause r c s).holder r' c').state =
      ((moveHolder r c .yielding (Machine.removePrf r c s)).holder r' c').state := by
    intro r' c'; rw [revoke_holder, moveHolder_holder]; rfl
  have hprf : (Machine.revoke cause r c s).din.prf = (moveHolder r c .yielding (Machine.removePrf r c s)).din.prf := by
    simp
  obtain ⟨h1, h2, h3, h4, h5⟩ := hmove
  refine ⟨fun r' a b ha hb hab => by rw [hhold, hhold]; exact h1 r' a b ha hb hab, fun k v hv => ?_,
    fun k l v w hv hw e1 e2 => ?_, fun e he => ?_, by rw [hprf]; exact h5⟩
  · rw [hhold]
    rw [revoke_record] at hv
    split at hv
    · obtain rfl := Option.some.inj hv
      exact ⟨hrc.1, hrc.2, moveHolder_state _ _ hrc.1 hrc.2⟩
    · exact h2 k v (by simpa using hv)
  · rw [revoke_record] at hv hw
    split at hv <;> split at hw
    · rename_i a b
      rw [a] at b; exact Option.some.inj b
    · obtain rfl := Option.some.inj hv
      exact absurd ⟨e1.symm, e2.symm⟩ (h.unnamed hy l w hw)
    · obtain rfl := Option.some.inj hw
      exact absurd ⟨e1, e2⟩ (h.unnamed hy k v hv)
    · exact h3 k l v w (by simpa using hv) (by simpa using hw) e1 e2
  · rw [hprf] at he; rw [hhold]; exact h4 e he

end Sys2Proof.Machine
end

