-- ==== Sys2Proof/Laws/Decisions.lean ====
section
/-! SUPPORT. How the decisions of requests (R67 to R75), lapses (R50) and probes (R85, R86) keep the law of R63. -/

namespace Sys2Proof.Machine

variable {s : State}

/-! ## The tests of a request, as facts -/

theorem mem_otherClients {c c' : Nat} : c' ∈ otherClients c ↔ c' < 3 ∧ c' ≠ c := by
  simp only [otherClients, List.mem_filter, List.mem_cons, List.not_mem_nil, or_false, decide_eq_true_eq]
  omega

theorem pendingOther_false {r c : Nat} (h : pendingOther s r c = false) {c' : Nat} (h3 : c' < 3) (hne : c' ≠ c) :
    (s.holder r c').state.pends = false := by
  simp only [pendingOther, someOther, List.any_eq_false] at h
  exact Bool.eq_false_iff.mpr (h c' (mem_otherClients.mpr ⟨h3, hne⟩))

/-- What is left of a holder state that neither pends nor stands. -/
theorem apart_of {st : HolderState} (hp : st.pends = false) (hs : st ≠ .shared) (he : st ≠ .exclusive) :
    st.apart = true := by cases st <;> simp_all [HolderState.pends, HolderState.apart]

/-! ## Several revocations -/

/-- Revocations of a list of clients with standings, no client twice, keep the law; the clients end YIELDING, the other
holders and the PRF entries of other holders stay. -/
theorem StandingLaw.revokeAll (h : StandingLaw s) (cause : Cause) {r : Nat} {cs : List Nat} (hcs : cs.Nodup)
    (hs : ∀ c ∈ cs, (s.holder r c).state.revocable = true) :
    StandingLaw (revokeAll cause r cs s) ∧
      (∀ r' c', ((Machine.revokeAll cause r cs s).holder r' c').state =
        if r = r' ∧ c' ∈ cs then .yielding else (s.holder r' c').state) ∧
      (∀ e ∈ (Machine.revokeAll cause r cs s).din.prf, e ∈ s.din.prf) := by
  induction cs generalizing s with
  | nil => exact ⟨h, fun r' c' => by simp [Machine.revokeAll], fun e he => he⟩
  | cons c cs ih =>
    have hc := hs c (by simp)
    have hrc : r < 12 ∧ c < 3 := by
      by_contra hn
      rw [holder_beyond s (by omega)] at hc; cases hc
    have hst : ∀ r' c', ((Machine.revoke cause r c s).holder r' c').state =
        if r = r' ∧ c = c' then .yielding else (s.holder r' c').state := by
      intro r' c'
      rw [revoke_holder]
      by_cases e : r = r' ∧ c = c'
      · obtain ⟨rfl, rfl⟩ := e
        by_cases hy : (s.holder r c).state = .yielding <;> simp [hrc, hy]
      · rw [if_neg e, if_neg]; exact fun x => e ⟨x.1, x.2.1⟩
    have hn := List.nodup_cons.mp hcs
    obtain ⟨i1, i2, i3⟩ := ih (s := Machine.revoke cause r c s) (h.revoke cause hc) hn.2 (fun c' hc' => by
      rw [hst, if_neg]
      · exact hs c' (by simp [hc'])
      · rintro ⟨-, rfl⟩; exact hn.1 hc')
    refine ⟨i1, fun r' c' => ?_, fun e he => ?_⟩
    · rw [show Machine.revokeAll cause r (c :: cs) s = Machine.revokeAll cause r cs (Machine.revoke cause r c s) from rfl,
        i2, hst]
      by_cases e1 : r = r'
      · subst e1
        by_cases e2 : c' ∈ cs
        · simp [e2]
        · by_cases e3 : c = c'
          · simp [e3]
          · simp [e2, e3, Ne.symm e3]
      · simp [e1]
    · have := i3 e he
      rw [revoke_prf] at this
      exact List.mem_of_mem_filter this

/-! ## Taking a level and waiting for one -/

theorem StandingLaw.renew (h : StandingLaw s) (r c : Nat) (p : Params) : StandingLaw (renew r c p s) := by
  refine h.of_same (fun r' c' => ?_) (fun k => by simp [namedBy, State.record]) (by simp)
  rw [renew_holder]
  split
  · rename_i e; obtain ⟨rfl, rfl, -⟩ := e; rfl
  · rfl

/-- A holder without a standing takes a level that agrees with the other holders. -/
theorem StandingLaw.takeLevel (h : StandingLaw s) (level : Level) {r c : Nat} (p : Params)
    (hn : (s.holder r c).state = .none)
    (hs : ∀ c', c' < 3 → c' ≠ c → (s.holder r c').state.excludes = false)
    (he : level = .exclusive → ∀ c', c' < 3 → c' ≠ c → (s.holder r c').state.apart = true) :
    StandingLaw (takeLevel level r c p s) := by
  unfold Machine.takeLevel
  apply StandingLaw.renew
  apply h.move
  · intro x
    cases level with
    | shared => cases x
    | exclusive => exact he rfl
  · intro c' a b x; rw [hs c' a b] at x; cases x
  · intro _ k v hv; exact h.unnamed (by rw [hn]; simp) k v hv
  · intro _ e hm; exact h.unlisted (by rw [hn]; rfl) e hm

/-- A holder without a standing waits beside holders without one. -/
theorem StandingLaw.waitFor (h : StandingLaw s) (level : Level) {r c : Nat} (p : Params) (hr : r < 12) (hc : c < 3)
    (hn : (s.holder r c).state = .none)
    (ha : ∀ c', c' < 3 → c' ≠ c → (s.holder r c').state.apart = true) : StandingLaw (waitFor level r c p s) := by
  unfold Machine.waitFor
  apply StandingLaw.renew
  have hm : StandingLaw (moveHolder r c .waiting s) := by
    apply h.move
    · exact fun _ => ha
    · intro c' a b x
      have := ha c' a b
      cases hst : (s.holder r c').state <;> simp_all [HolderState.apart, HolderState.excludes]
    · intro _ k v hv; exact h.unnamed (by rw [hn]; simp) k v hv
    · intro x; cases x
  have hself : ((moveHolder r c .waiting s).holder r c).state = .waiting := moveHolder_state s _ hr hc
  have hprf : (moveHolder r c .waiting s).din.prf = s.din.prf := by simp
  generalize moveHolder r c .waiting s = t at hm hself hprf ⊢
  have ht : StandingLaw (t.setHolder r c { t.holder r c with target := some level }) := by
    refine hm.of_same (fun r' c' => ?_) (fun _ => rfl) rfl
    rw [holder_setHolder]; split
    · rename_i e; obtain ⟨rfl, rfl, -⟩ := e; rfl
    · rfl
  refine ht.addPrf level hr hc (by rw [holder_setHolder_same _ _ hr hc]; simp [hself, HolderState.pends])
    fun e he her => ?_
  obtain ⟨-, b, hp⟩ := ht.2.2.2.1 e he
  rw [her] at hp
  by_cases hec : e.client = c
  · exact h.unlisted (by rw [hn]; rfl) e (by rw [← hprf]; simpa using he) ⟨her, hec⟩
  · have := ht.1 r c e.client hc b (Ne.symm hec) (by
      rw [holder_setHolder_same _ _ hr hc]; simp [hself, HolderState.excludes])
    cases hst : ((t.setHolder r c { t.holder r c with target := some level }).holder r e.client).state <;>
      simp_all [HolderState.apart, HolderState.pends]

/-! ## Requests (R67 to R75) -/

theorem nodup_otherClients (c : Nat) : (otherClients c).Nodup := List.Nodup.filter _ (by simp)

theorem StandingLaw.acquireSharedNew (h : StandingLaw s) {r c : Nat} (p : Params) (hr : r < 12) (hc : c < 3)
    (hn : (s.holder r c).state = .none) : StandingLaw (acquireSharedNew r c p s).1 := by
  simp only [Machine.acquireSharedNew]
  split
  · exact h
  split
  · exact h
  rename_i _ hp
  have hp' := fun {c'} => pendingOther_false (c' := c') (Bool.eq_false_iff.mpr hp)
  split
  · rename_i hx
    refine h.takeLevel .shared p hn (fun c' a b => ?_) (by intro x; cases x)
    have h1 := hp' a b
    have h2 : (s.holder r c').state ≠ .exclusive := by
      intro e
      have : c' ∈ (otherClients c).filter fun c' => (s.holder r c').state == .exclusive :=
        List.mem_filter.mpr ⟨mem_otherClients.mpr ⟨a, b⟩, by simp [e]⟩
      rw [hx] at this; cases this
    cases hst : (s.holder r c').state <;> simp_all [HolderState.pends, HolderState.excludes]
  split
  · split
    · rename_i hx _ _
      obtain ⟨i1, i2, i3⟩ := h.revokeAll .request (r := r)
        (cs := (otherClients c).filter fun c' => (s.holder r c').state == .exclusive)
        ((nodup_otherClients c).filter _)
        (fun c' hc' => by simp [show (s.holder r c').state = .exclusive by simpa using (List.mem_filter.mp hc').2,
          HolderState.revocable])
      refine i1.waitFor .shared p hr hc ?_ ?_
      · rw [i2, if_neg]
        · exact hn
        · rintro ⟨-, hm⟩; exact (mem_otherClients.mp (List.mem_filter.mp hm).1).2 rfl
      · intro c' a b
        rw [i2]
        split
        · rfl
        rename_i hm
        -- an exclusive holder stands: everyone beside it is apart
        obtain ⟨x, hxm⟩ := List.exists_mem_of_ne_nil _ hx
        have hxe : (s.holder r x).state = .exclusive := by simpa using (List.mem_filter.mp hxm).2
        have hx3 := mem_otherClients.mp (List.mem_filter.mp hxm).1
        have hxc : x ≠ c' := by rintro rfl; exact hm ⟨rfl, hxm⟩
        exact h.1 r x c' hx3.1 a hxc (by rw [hxe]; rfl)
    · exact h
  · exact h

theorem mem_standingOthers {r c c' : Nat} : c' ∈ standingOthers s r c ↔
    (c' < 3 ∧ c' ≠ c) ∧ ((s.holder r c').state = .shared ∨ (s.holder r c').state = .exclusive) := by
  simp [standingOthers, List.mem_filter, mem_otherClients]

theorem StandingLaw.acquireExclusiveNew (h : StandingLaw s) {r c : Nat} (p : Params) (hr : r < 12) (hc : c < 3)
    (hn : (s.holder r c).state = .none) : StandingLaw (acquireExclusiveNew r c p s).1 := by
  simp only [Machine.acquireExclusiveNew]
  split
  · exact h
  split
  · exact h
  rename_i _ hp
  have hp' := fun {c'} => pendingOther_false (c' := c') (Bool.eq_false_iff.mpr hp)
  split
  · rename_i hx
    have hap : ∀ c', c' < 3 → c' ≠ c → (s.holder r c').state.apart = true := by
      intro c' a b
      have h0 : c' ∉ standingOthers s r c := by rw [hx]; simp
      rw [mem_standingOthers] at h0
      exact apart_of (hp' a b) (fun e => h0 ⟨⟨a, b⟩, .inl e⟩) (fun e => h0 ⟨⟨a, b⟩, .inr e⟩)
    split
    · split
      · exact h.waitFor .exclusive p hr hc hn hap
      · exact h
    · refine h.takeLevel .exclusive p hn (fun c' a b => ?_) (fun _ => hap)
      have := hap c' a b
      cases hst : (s.holder r c').state <;> simp_all [HolderState.apart, HolderState.excludes]
  split
  · split
    · obtain ⟨i1, i2, i3⟩ := h.revokeAll .request (r := r) (cs := standingOthers s r c)
        ((nodup_otherClients c).filter _)
        (fun c' hc' => by rcases (mem_standingOthers.mp hc').2 with e | e <;> simp [e, HolderState.revocable])
      refine i1.waitFor .exclusive p hr hc ?_ ?_
      · rw [i2, if_neg]
        · exact hn
        · rintro ⟨-, hm⟩; exact (mem_standingOthers.mp hm).1.2 rfl
      · intro c' a b
        rw [i2]
        split
        · rfl
        rename_i hm
        rw [mem_standingOthers] at hm
        exact apart_of (hp' a b) (fun e => hm ⟨rfl, ⟨a, b⟩, .inl e⟩) (fun e => hm ⟨rfl, ⟨a, b⟩, .inr e⟩)
    · exact h
  · exact h

theorem StandingLaw.decideAcquire (h : StandingLaw s) (level : Level) {r c : Nat} (p : Params) (hr : r < 12)
    (hc : c < 3) : StandingLaw (decideAcquire level r c p s).1 := by
  simp only [Machine.decideAcquire]
  split
  · rename_i hn
    cases level
    · exact h.acquireSharedNew p hr hc hn
    · exact h.acquireExclusiveNew p hr hc hn
  · exact h
  · exact h.renew r c p

theorem StandingLaw.decideUpgrade (h : StandingLaw s) {r c : Nat} (hr : r < 12) (hc : c < 3) :
    StandingLaw (decideUpgrade r c s).1 := by
  -- the waiting arm, in a state where the others are apart and the holder still SHARED
  have wait : ∀ t : State, StandingLaw t → (t.holder r c).state = .shared →
      (∀ c', c' < 3 → c' ≠ c → (t.holder r c').state.apart = true) →
      StandingLaw { moveHolder r c .upgrading t with
        din.prf := (moveHolder r c .upgrading t).din.prf ++ [⟨c, r, .exclusive⟩] } := by
    intro t ht hsh hap
    have hm : StandingLaw (moveHolder r c .upgrading t) := by
      refine ht.move .upgrading (fun _ => hap) (fun c' a b x => ?_) (fun _ k v hv => ?_) (by intro x; cases x)
      · have := hap c' a b
        cases hst : (t.holder r c').state <;> simp_all [HolderState.apart, HolderState.excludes]
      · exact ht.unnamed (by rw [hsh]; simp) k v hv
    refine hm.addPrf .exclusive hr hc (by rw [moveHolder_state t _ hr hc]; rfl) fun e he her => ?_
    have he' : e ∈ t.din.prf := by simpa using he
    obtain ⟨-, b, hp⟩ := ht.2.2.2.1 e he'
    rw [her] at hp
    by_cases hec : e.client = c
    · rw [hec, hsh] at hp; cases hp
    · have := hap e.client b hec
      cases hst : (t.holder r e.client).state <;> simp_all [HolderState.apart, HolderState.pends]
  simp only [Machine.decideUpgrade]
  split
  · exact h
  rename_i hsh
  have hsh' : (s.holder r c).state = .shared := by simpa using hsh
  split
  · exact h
  split
  · exact h
  rename_i _ hp
  have hp' := fun {c'} => pendingOther_false (c' := c') (Bool.eq_false_iff.mpr hp)
  -- beside a SHARED holder none is EXCLUSIVE
  have hnx : ∀ c', c' < 3 → c' ≠ c → (s.holder r c').state ≠ .exclusive := by
    intro c' a b e
    have := h.1 r c' c a hc b (by rw [e]; rfl)
    rw [hsh'] at this; cases this
  split
  · rename_i hx
    have hap : ∀ c', c' < 3 → c' ≠ c → (s.holder r c').state.apart = true := by
      intro c' a b
      refine apart_of (hp' a b) (fun e => ?_) (hnx c' a b)
      have : c' ∈ (otherClients c).filter fun c' => (s.holder r c').state == .shared :=
        List.mem_filter.mpr ⟨mem_otherClients.mpr ⟨a, b⟩, by simp [e]⟩
      rw [hx] at this; cases this
    split
    · split
      · exact wait s h hsh' hap
      · exact h
    · refine h.move .exclusive (fun _ => hap) (fun c' a b x => ?_) (fun _ k v hv => ?_) (fun _ e he => ?_)
      · have := hap c' a b
        cases hst : (s.holder r c').state <;> simp_all [HolderState.apart, HolderState.excludes]
      · exact h.unnamed (by rw [hsh']; simp) k v hv
      · exact h.unlisted (by rw [hsh']; rfl) e he
  split
  · split
    · obtain ⟨i1, i2, i3⟩ := h.revokeAll .request (r := r)
        (cs := (otherClients c).filter fun c' => (s.holder r c').state == .shared)
        ((nodup_otherClients c).filter _)
        (fun c' hc' => by simp [show (s.holder r c').state = .shared by simpa using (List.mem_filter.mp hc').2,
          HolderState.revocable])
      refine wait _ i1 ?_ ?_
      · rw [i2, if_neg]
        · exact hsh'
        · rintro ⟨-, hm⟩; exact (mem_otherClients.mp (List.mem_filter.mp hm).1).2 rfl
      · intro c' a b
        rw [i2]
        split
        · rfl
        rename_i hm
        refine apart_of (hp' a b) (fun e => hm ⟨rfl, ?_⟩) (hnx c' a b)
        exact List.mem_filter.mpr ⟨mem_otherClients.mpr ⟨a, b⟩, by simp [e]⟩
    · exact h
  · exact h

theorem StandingLaw.decideDowngrade (h : StandingLaw s) {r c : Nat} (hc : c < 3) :
    StandingLaw (decideDowngrade r c s).1 := by
  simp only [Machine.decideDowngrade]
  split
  · rename_i he
    refine h.move .shared (by intro x; cases x) (fun c' a b x => ?_) (fun _ k v hv => ?_) (fun _ e hm => ?_)
    · have := h.1 r c' c a hc b x
      rw [he] at this; cases this
    · exact h.unnamed (by rw [he]; simp) k v hv
    · exact h.unlisted (by rw [he]; rfl) e hm
  · exact h

theorem StandingLaw.decideYieldDone (h : StandingLaw s) (r c : Nat) : StandingLaw (decideYieldDone r c s).1 := by
  simp only [Machine.decideYieldDone]
  repeat' split
  all_goals first
    | exact h
    | exact h.noticeClear _

theorem StandingLaw.decideRelease (h : StandingLaw s) (r c : Nat) : StandingLaw (decideRelease r c s).1 := by
  simp only [Machine.decideRelease]
  split
  · exact h
  · exact h.decideYieldDone r c
  · rename_i hy
    exact h.toNone (by simpa using hy)

theorem StandingLaw.setClient (h : StandingLaw s) (c : Nat) (x : Client) : StandingLaw (s.setClient c x) :=
  h.of_eq (by simp) (by simp) (by simp)

/-- The decision of every item keeps the law. -/
theorem StandingLaw.decideItem (h : StandingLaw s) (op : ItemOp) {r c : Nat} (p : Params) (hr : r < 12) (hc : c < 3) :
    StandingLaw (decideItem op r c p s).1 := by
  cases op with
  | acquire level => exact h.decideAcquire level p hr hc
  | upgrade => exact h.decideUpgrade hr hc
  | downgrade => exact h.decideDowngrade hc
  | refresh =>
    simp only [Machine.decideItem, decideRefresh]
    split
    · exact h
    · exact h
    · exact h.renew r c p
  | release => exact h.decideRelease r c
  | yieldDone => exact h.decideYieldDone r c
  | reserve => exact h.setClient _ _
  | commitIf level g =>
    simp only [Machine.decideItem, decideCommitIf]
    split
    · exact (h.setClient _ _).decideAcquire level p hr hc
    · exact h.setClient _ _
  | bad => exact h

/-! ## Lapses and probes -/

/-- A lapse keeps the law (R50). -/
theorem StandingLaw.lapse (h : StandingLaw s) (r c : Nat) : StandingLaw (lapse r c s) := by
  have note : ∀ (t : State) (kept : Bool), StandingLaw t → StandingLaw (noteLapse r c kept t) := fun t kept ht =>
    ht.of_eq (by simp) (by simp) (by simp)
  simp only [Machine.lapse]
  split
  · exact h
  have hnone : (s.holder r c).state ≠ .yielding → StandingLaw (lapseToNone r c s) := fun hy =>
    note _ _ (h.toNone hy)
  have hback : StandingLaw (lapseToFallback r c s) := by
    apply note
    refine h.of_same (fun r' c' => ?_) (fun _ => rfl) rfl
    rw [holder_setHolder]; split
    · rename_i e; obtain ⟨rfl, rfl, -⟩ := e; rfl
    · rfl
  repeat' split
  all_goals first
    | exact h
    | exact hback
    | (apply hnone; simp_all)

theorem StandingLaw.evictOne (h : StandingLaw s) (r c : Nat) : StandingLaw (evictOne r c s) := by
  simp only [Machine.evictOne]
  split
  · rename_i hs; exact (h.toNone (by rw [hs]; simp)).notify _ _
  · rename_i hs; exact h.revoke .probe (by rw [hs]; rfl)
  · rename_i hs; exact h.revoke .probe (by rw [hs]; rfl)
  · rename_i hs; exact h.revoke .probe (by rw [hs]; rfl)
  · exact h
  · exact h

theorem StandingLaw.demoteOne (h : StandingLaw s) (r : Nat) {c : Nat} (hc : c < 3) : StandingLaw (demoteOne r c s) := by
  have := h.decideDowngrade (r := r) hc
  simp only [Machine.decideDowngrade] at this
  simp only [Machine.demoteOne]
  split
  · rename_i he
    rw [if_pos he] at this
    exact this.notify _ _
  · exact h

end Sys2Proof.Machine
end

