-- ==== Sys2Proof/Laws/Items.lean ====
section
/-! SUPPORT. A DEMAND item and a MANAGE operation taken whole: the frame around them removed, so that a proof about one meets
its decision alone. -/

namespace Sys2Proof.Machine

/-! ## States field by field -/

/-- Two states with the same fields are the same. -/
theorem State.ext_fields {s t : State} (h : s.now = t.now ∧ s.lpu = t.lpu ∧ s.fsu = t.fsu ∧ s.stm = t.stm ∧ s.pst = t.pst ∧
    s.cau = t.cau ∧ s.din = t.din ∧ s.gtb = t.gtb ∧ s.ale = t.ale ∧ s.chu = t.chu ∧ s.ssu = t.ssu ∧ s.alc = t.alc ∧
    s.mgu = t.mgu ∧ s.sent = t.sent ∧ s.pending = t.pending) : s = t := by
  cases s; cases t; simp_all

/-! ## DEMAND items -/

/-- An item that passes its checks names a resource of the table and a client of it. -/
theorem ItemPasses.bounds {d : DemandCtx} {it : DemandItem} {c : Nat} {s : State} (h : ItemPasses d it c s) :
    it.resource < 12 ∧ c < 3 := by
  obtain ⟨h1, -, h3⟩ := h
  refine ⟨?_, takenClient_lt h1⟩
  by_contra hn
  have : ((openFrame d s).resource it.resource).kind = .unused := by
    rw [State.resource, Table.get_beyond _ _ (by omega)]; rfl
  rw [this] at h3; simp at h3

/-- The command of an item is one step of its frame. -/
theorem exec_itemCommand (d : DemandCtx) (op : ItemOp) (it : DemandItem) (s : State) :
    exec (itemCommand d (op, it)) s = .next (demandStep d op it s) := by
  cases op with
  | acquire level => cases level <;> rfl
  | _ => rfl

/-- An item that passes its checks is decided, counted and answered (R44 to R46). -/
theorem exec_item {d : DemandCtx} {it : DemandItem} {c : Nat} {s : State} {op : ItemOp} (h : ItemPasses d it c s)
    (hop : op ≠ .bad) : exec (itemCommand d (op, it)) s =
      .next (answered d it (decideItem op it.resource c (clampItem it) (itemTaken d s))) := by
  obtain ⟨h1, h2, h3⟩ := h
  have hr : itemRefusal op it (countEvent .demandItems (openFrame d s)) = none := by
    simp only [itemRefusal, hop, if_false, countEvent_mgu, h2, countEvent_resource]
    rcases h3 with h3 | h3 <;> rw [h3]
  rw [exec_itemCommand]
  simp only [demandStep, h1, takeClientItem, hr, answered, itemTaken]
  congr 2
  unfold countRefusal
  split <;> rfl

/-- Another holder is WAITING or UPGRADING, as statements say it. -/
theorem pendingOther_iff (s : State) (r c : Nat) :
    pendingOther s r c = true ↔ OtherIn s r c [.waiting, .upgrading] := by
  apply someOther_iff
  intro x; cases x.state <;> simp [HolderState.pends]

/-- A level taken at once, as statements say it: the holder with its item's parameters, the generation moved on, the
client's lapse-alert mark set. -/
theorem takeLevel_eq {s : State} {r c : Nat} {it : DemandItem} {e : ClientEntry} (level : Level) (hr : r < 12)
    (hc : c < 3) (hn : (s.holder r c).state = .none) (he : (s.client c).entry = some e) :
    takeLevel level r c (clampItem it) s = markRenewed c (withHolder r c 1
      ({ s.holder r c with
          state := match level with | .shared => .shared | .exclusive => .exclusive
          target := none }.renewedBy it e s) s) := by
  have he' : (s.din.clients.get c).entry = some e := he
  cases level
  all_goals
    simp only [takeLevel, renew, startLease, writeParams, setHolder_setHolder, moveHolder, hn, HolderState.leaves]
    apply State.ext_fields
    simp [markRenewed, withHolder, Holders.get_set, hr, hc, Holder.renewedBy, clampItem, State.holder, State.client,
      bumpGeneration, State.setHolder, Holder.enter, Timer.start, he']

/-- A renewal, as statements say it. -/
theorem renew_eq {s : State} {r c : Nat} {it : DemandItem} {e : ClientEntry} (hr : r < 12) (hc : c < 3)
    (he : (s.client c).entry = some e) :
    renew r c (clampItem it) s = markRenewed c (s.setHolder r c ((s.holder r c).renewedBy it e s)) := by
  have he' : (s.din.clients.get c).entry = some e := he
  simp only [renew, startLease, writeParams, setHolder_setHolder]
  apply State.ext_fields
  simp [markRenewed, Holders.get_set, hr, hc, Holder.renewedBy, clampItem, State.holder, State.client, State.setHolder,
    Timer.start, he']

/-! ## MANAGE operations -/

/-- An operation from the management station is taken in the state after its frame's arrival, and answered. -/
theorem manage_from {m : ManageCtx} {s : State} (h : FromManager m s) (code : Nat) (take : State → Answer) :
    manage m code take s = conclude m.src m.seq code (take (arrive m.src s)) := by
  simp only [manage, if_pos (show m.src = (arrive m.src s).mgu.manager from h)]

/-- An answer without contents, as statements say it. -/
@[simp] theorem conclude_of (m : ManageCtx) (code : Nat) (st : Status) (s : State) :
    conclude m.src m.seq code (.of st s) = replied m code st s := rfl

/-- An answer with contents and no test of the head. -/
@[simp] theorem conclude_untested (dest seq code : Nat) (a : Answer) (h : a.tests = false) :
    conclude dest seq code a = reply dest seq code a := by simp [conclude, h]

/-- An operation answered DONE that is an event of R84, as statements say it. -/
@[simp] theorem conclude_tested (m : ManageCtx) (code : Nat) (s : State) :
    conclude m.src m.seq code (.tested s) = testHead (replied m code .done s) := rfl

/-- What the payload of a MANAGE frame stands for is the same, read as a command and read as an operation. -/
theorem exec_manageCommand (m : ManageCtx) (payload : List Byte) (s : State) :
    exec (manageCommand m payload) s =
      .next (manage m (operationOf m.seq payload).1 (operationOf m.seq payload).2 s) := by
  cases payload with
  | nil => rfl
  | cons op rest =>
    unfold manageCommand operationOf
    dsimp only
    split <;> first | rfl | (rename_i e; simp only [e]; rfl)

end Sys2Proof.Machine
end

