-- ==== Sys2Proof/Laws/Reports.lean ====
section
/-! SUPPORT. The reports of channel changes (R135): when there are none, and the one induction by which every operation of
the sequence slots keeps a property. -/

namespace Sys2Proof.Machine

/-- A property that a slot's record, a minimum and a report to the GTB keep. Every operation of chapter 7 is made of
these. -/
structure ReportClosed (P : State → Prop) : Prop where
  slot : ∀ s k x, P s → P (s.setSlot k x)
  minimum : ∀ s n, P s → P (refreshMinimum n s)
  gtb : ∀ s n, P s → P (reportToGtb n s)

namespace ReportClosed

variable {P : State → Prop} (C : ReportClosed P) {s : State}
include C

theorem enterStep {advance : Nat → State → State} (adv : ∀ k s, P s → P (advance k s)) (h : P s) (k : Nat)
    (st : SlotState) : P (Machine.enterStep advance k st s) := by
  simp only [Machine.enterStep]
  repeat' split
  · exact h
  · exact C.slot _ _ _ h
  · refine forEach_induct _ (C.gtb _ _ (C.minimum _ _ (C.slot _ _ _ h))) fun i _ t ht => ?_
    split
    · exact adv _ _ ht
    · exact ht
  · exact adv _ _ (C.minimum _ _ (C.slot _ _ _ h))
  · exact C.minimum _ _ (C.slot _ _ _ h)

theorem advanceSlot (fuel k : Nat) (h : P s) : P (Machine.advanceSlot fuel k s) := by
  induction fuel generalizing k s with
  | zero => exact h
  | succ n ih =>
    simp only [Machine.advanceSlot]
    repeat' split
    all_goals first
      | exact h
      | exact C.slot _ _ _ h
      | exact C.enterStep (fun k s h => ih k h) h _ _

theorem startStep (k : Nat) (st : SlotState) (h : P s) : P (Machine.startStep k st s) :=
  C.enterStep (fun k _ h => C.advanceSlot _ k h) h _ _

theorem reportToSsu (n : Nat) (h : P s) : P (Machine.reportToSsu n s) := by
  unfold Machine.reportToSsu
  refine forEach_induct _ h fun i _ t ht => ?_
  split
  · exact C.advanceSlot _ _ ht
  · exact ht

theorem reportChanges (b : State) (h : P s) : P (Machine.reportChanges b s) := by
  simp only [Machine.reportChanges]
  exact forEach_induct _ (forEach_induct _ h fun i _ t ht => C.gtb _ _ ht) fun i _ t ht => C.reportToSsu _ ht

theorem minimums (l : List Nat) (h : P s) : P (forEach l refreshMinimum s) :=
  forEach_induct _ h fun _ _ _ ht => C.minimum _ _ ht

theorem failSlot (alert : ∀ s c i, P s → P (raiseAlert c i s)) (k : Nat) (h : P s) : P (Machine.failSlot k s) := by
  simp only [Machine.failSlot]
  split
  · exact h
  · exact C.reportChanges _ (alert _ _ _ (C.minimums _ (C.slot _ _ _ h)))

theorem abortStart (k i : Nat) (sl : Slot) (h : P s) : P (Machine.abortStart k i sl s) := by
  simp only [Machine.abortStart]
  repeat' split
  · exact C.reportChanges _ (C.minimum _ _ (C.slot _ _ _ h))
  · exact C.startStep _ _ (C.reportChanges _ (C.minimum _ _ (C.slot _ _ _ h)))
  · exact C.reportChanges _ (C.minimum _ _ (C.slot _ _ _ h))

theorem stopDelayExpired (k : Nat) (h : P s) : P (Machine.stopDelayExpired k s) := by
  simp only [Machine.stopDelayExpired]
  repeat' split
  · exact h
  · exact C.startStep _ _ (C.slot _ _ _ h)
  · exact C.abortStart _ _ _ (C.slot _ _ _ h)
  · exact C.slot _ _ _ h

theorem slotPassStart (k c : Nat) (h : P s) : P (Machine.slotPassStart k c s) := by
  simp only [Machine.slotPassStart]
  split
  · exact h
  · have h1 : ∀ x, P (s.setSlot k x) := fun x => C.slot _ _ _ h
    repeat' split
    · exact C.startStep _ _ (h1 _)
    · exact h1 _
    · exact C.slot _ _ _ (h1 _)
    · exact C.stopDelayExpired _ (h1 _)
    · exact C.slot _ _ _ (h1 _)
    · exact h1 _
    · exact C.slot _ _ _ (h1 _)
    · exact C.stopDelayExpired _ (h1 _)
    · exact C.slot _ _ _ (h1 _)
    · exact h1 _
    · exact h1 _

theorem slotsPassStart (t : Table 12 LatchedRecord) (h : P s) : P (Machine.slotsPassStart t s) := by
  unfold Machine.slotsPassStart
  refine forEach_induct _ h fun i _ t ht => ?_
  split
  · exact C.slotPassStart _ _ ht
  · exact ht

end ReportClosed

/-! ## When there is nothing to report -/

/-- An event after which no channel is newly Settled, FAULTED or IDLE brings no report. -/
theorem reportChanges_quiet {b s : State} (hs : ∀ n < 16, settled s n = true → settled b n = true)
    (hl : ∀ n < 16, lost s n = true → lost b n = true) : reportChanges b s = s := by
  have e1 : ((List.range 16).filter fun n => !settled b n && settled s n) = [] := by
    rw [List.filter_eq_nil_iff]
    intro n hn
    have := hs n (List.mem_range.mp hn)
    cases h1 : settled s n <;> simp_all
  have e2 : ((List.range 16).filter fun n => !lost b n && lost s n) = [] := by
    rw [List.filter_eq_nil_iff]
    intro n hn
    have := hl n (List.mem_range.mp hn)
    cases h1 : lost s n <;> simp_all
  simp only [reportChanges, e1, e2, List.contains_nil, Bool.or_self, List.filter_false, forEach_nil]

/-- An event that leaves the channels brings no report. -/
theorem reportChanges_same {b s : State} (h : s.chu.channels = b.chu.channels) : reportChanges b s = s :=
  reportChanges_quiet (fun n _ hn => by simpa only [settled, State.channel, h] using hn)
    (fun n _ hn => by simpa only [lost, State.channel, h] using hn)

end Sys2Proof.Machine
end

