-- ==== Sys2Proof/Laws/ProbeHead.lean ====
section
/-! SUPPORT. The test of the head of the probe queue (R84): when it does nothing, what one execution does, what it leaves,
and why no step can leave a head waiting that could execute. -/

namespace Sys2Proof.Machine

variable {s t : State}

/-! ## One test -/

/-- What a probe does leaves the queue. -/
theorem act_probes (p : Probe) (s : State) : (p.act s).gtb.probes = s.gtb.probes := by
  unfold Probe.act
  split
  · simp
  · simp
  · simp
  all_goals simp [doFreeze, doThaw, doCap, doUncap]

/-- The head that executes leaves the rest of the queue. -/
@[simp] theorem runHead_probes (p : Probe) (rest : List Probe) (s : State) :
    (runHead p rest s).gtb.probes = rest := by simp [runHead, act_probes]

/-- With no probe waiting the test does nothing. -/
theorem testHead_empty (h : s.gtb.probes = []) : testHead s = s := by simp [testHead, h, testHeads]

/-- A head that stalls stays. -/
theorem testHead_stalled {p : Probe} {rest : List Probe} (h : s.gtb.probes = p :: rest) (hp : probeReady s p = false) :
    testHead s = s := by simp [testHead, h, testHeads, hp]

/-- A head that can execute does, and the new head is tested. -/
theorem testHead_ready {p : Probe} {rest : List Probe} (h : s.gtb.probes = p :: rest) (hp : probeReady s p = true) :
    testHead s = testHead (runHead p rest s) := by simp [testHead, h, testHeads, hp]

/-- Where the head stalls the test does nothing. -/
theorem testHead_of_law (h : HeadLaw s) : testHead s = s := by
  cases hp : s.gtb.probes with
  | nil => exact testHead_empty hp
  | cons p rest => exact testHead_stalled hp (h p rest hp)

/-! ## After a test -/

/-- What every execution keeps, the test keeps. -/
theorem testHead_induct {P : State → Prop} (hs : P s)
    (h : ∀ t p rest, P t → t.gtb.probes = p :: rest → probeReady t p = true → P (runHead p rest t)) : P (testHead s) := by
  suffices ∀ l s, s.gtb.probes = l → P s → P (testHeads l s) from this _ s rfl hs
  intro l
  induction l with
  | nil => intro s _ hs; exact hs
  | cons p rest ih =>
    intro s hl hs
    simp only [testHeads]
    split
    · rename_i hr; exact ih _ (runHead_probes p rest s) (h s p rest hs hl hr)
    · exact hs

/-- After a test the head stalls (R84). -/
theorem testHead_law (s : State) : HeadLaw (testHead s) := by
  suffices ∀ l s, s.gtb.probes = l → HeadLaw (testHeads l s) from this _ s rfl
  intro l
  induction l with
  | nil => intro s hs p rest h; simp [testHeads, hs] at h
  | cons p rest ih =>
    intro s hl
    simp only [testHeads]
    split
    · exact ih _ (runHead_probes p rest s)
    · rename_i hr
      intro q rest' hq
      rw [hl] at hq
      obtain ⟨rfl, rfl⟩ := List.cons.inj hq
      simpa using hr

/-- The law reads the Grant Table alone. -/
theorem HeadLaw.of_gtb (h : HeadLaw s) (e : t.gtb = s.gtb) : HeadLaw t := by
  intro p rest hp
  have hr : t.record = s.record := by funext k; simp only [State.record, e]
  have hh : t.holder = s.holder := by funext r c; simp only [State.holder, e]
  have e1 : noticeMarkSet t p.resource = noticeMarkSet s p.resource := by unfold noticeMarkSet; rw [hr]
  have e2 : revocationsNeeded t p = revocationsNeeded s p := by unfold revocationsNeeded; rw [hh]
  have e3 : freeRecords t = freeRecords s := by unfold freeRecords; rw [hr]
  have : probeReady t p = probeReady s p := by unfold probeReady; rw [e1, e2, e3]
  rw [this]
  exact h p rest (e ▸ hp)

/-- A test leaves a suffix of the queue. -/
theorem testHead_probes (s : State) : (testHead s).gtb.probes <:+ s.gtb.probes :=
  testHead_induct (P := fun t => t.gtb.probes <:+ s.gtb.probes) (List.suffix_refl _) fun t p rest ht hp _ => by
    rw [runHead_probes]
    exact (List.suffix_cons p rest).trans (hp ▸ ht)

/-- A probe rewrites of a resource record its probe cap alone (R9). -/
theorem testHead_resource (s : State) (r : Nat) :
    { (testHead s).resource r with probeCap := none } = { s.resource r with probeCap := none } := by
  refine testHead_induct (P := fun t => { t.resource r with probeCap := none } = { s.resource r with probeCap := none })
    rfl fun t p rest ht _ _ => ?_
  rw [← ht]
  have same : ∀ u v : State, v.cau = u.cau → v.resource r = u.resource r := fun u v e => by simp only [State.resource, e]
  have cap : ∀ (u : State) (c : Option Nat), { (u.setResource p.resource { u.resource p.resource with probeCap := c }).resource r
      with probeCap := none } = { u.resource r with probeCap := none } := by
    intro u c
    rw [resource_setResource]
    split
    · rename_i e; rw [e.1]
    · rfl
  show { (p.act { t with gtb.probes := rest }).resource r with probeCap := none } = _
  unfold Probe.act
  split
  · rw [same { t with gtb.probes := rest } _ (by simp)]; rfl
  · rw [same { t with gtb.probes := rest } _ (by simp)]; rfl
  · rw [same { t with gtb.probes := rest } _ (by simp)]; rfl
  · rfl
  · rfl
  · exact cap { t with gtb.probes := rest } _
  · exact cap { t with gtb.probes := rest } _

/-! ## Arrivals are no event of R84 -/

/-- The return of a station makes no channel Settled, FAULTED or IDLE, and so changes nothing in the GTB. -/
theorem stationReturned_eq (a : Nat) (s : State) : stationReturned a s = chuStationReturn a s := by
  have key : ∀ n ch, s.channel n = some ch → ∃ ch', (chuStationReturn a s).channel n = some ch' ∧
      (ch'.settled = true → ch.settled = true) ∧ (ch'.state = .faulted → ch.state = .faulted) := by
    intro n ch h
    obtain ⟨ch', h1, h2, h3⟩ := chuStationReturn_channel s a n ch h
    refine ⟨ch', h1, ?_, ?_⟩
    all_goals by_cases hc : ch.station = a ∧ ch.state = .faulted ∧ ch.cause = some .station
    · intro hs
      have := (h2 hc).2.1
      simp [Channel.settled, this] at hs
    · rw [h3 hc]; exact id
    · intro _; exact hc.2.1
    · rw [h3 hc]; exact id
  apply reportChanges_quiet
  · intro n _ hs
    cases h : s.channel n with
    | none =>
      have : (chuStationReturn a s).channel n = none := by
        unfold chuStationReturn
        refine (forEach_induct (P := fun t => t.channel n = none) _ h fun i _ t ht => ?_)
        repeat' split
        · exact ht
        · rename_i ch' hch _
          have hn : i ≠ n := by rintro rfl; rw [ht] at hch; cases hch
          rw [(returnChannel_channel t i _).1 n hn]; exact ht
        · exact ht
      simp [settled, this] at hs
    | some ch =>
      obtain ⟨ch', h1, h2, -⟩ := key n ch h
      simp only [settled, h1] at hs
      simp only [settled, h]; exact h2 hs
  · intro n _ hs
    cases h : s.channel n with
    | none => simp [lost, h]
    | some ch =>
      obtain ⟨ch', h1, -, h2⟩ := key n ch h
      simp only [lost, h1, beq_iff_eq] at hs
      simp only [lost, h, beq_iff_eq]; exact h2 hs

/-- The arrival of a frame leaves the Grant Table. -/
@[simp] theorem arrive_gtb (a : Nat) (s : State) : (arrive a s).gtb = s.gtb := by
  have h1 : ∀ (u : State) (b : Nat), (stationReturned b u).gtb = u.gtb := by
    intro u b; rw [stationReturned_eq]; simp
  have h2 : (stationHeard a s).gtb = s.gtb := by
    simp only [stationHeard, returnStation]
    repeat' split
    all_goals simp [h1]
  simp only [arrive]
  repeat' split
  all_goals simp [h2]

/-! ## The law of R63 -/

theorem StandingLaw.testHead (h : StandingLaw s) : StandingLaw (testHead s) := by
  refine testHead_induct h fun t p rest ht _ hp => ?_
  have h0 : StandingLaw { t with gtb.probes := rest } := ht.of_eq rfl rfl rfl
  suffices StandingLaw (p.act { t with gtb.probes := rest }) from
    this.of_eq (by simp [runHead]) (by simp [runHead]) (by simp [runHead])
  unfold Probe.act
  split
  · simp only [doEvict]
    split
    · rename_i hr; exact h0.revoke .probe hr
    · exact h0
  · exact forEach_induct (P := StandingLaw) [0, 1, 2] h0 fun c _ u hu => hu.evictOne _ c
  · exact forEach_induct (P := StandingLaw) [0, 1, 2] h0 fun c hc u hu => hu.demoteOne _ (by
      simp only [List.mem_cons, List.not_mem_nil, or_false] at hc; omega)
  · exact h0.of_eq (t := doFreeze p _) rfl rfl rfl
  · exact h0.of_eq (t := doThaw p _) rfl rfl rfl
  · exact h0.of_eq (t := doCap p _) rfl rfl rfl
  · exact h0.of_eq (t := doUncap p _) rfl rfl rfl

end Sys2Proof.Machine
end

