-- ==== Sys2Proof/Tests/Slice0.lean ====
section
/-! SUPPORT. The model's own tests: the ill-formed commands that the checks refuse, the worked examples and tables of the
manual, and for every obligation with hypotheses a state and operands that meet them. -/

namespace Sys2Proof.Tests

open Sys2Proof.Machine

set_option Elab.async false

/-! ## Well-formed commands (R159 to R162) -/

def goodFrame : RxFrame := { input := .forward, dest := 31, src := 31, seq := 15, payload := List.replicate 56 0 }
def goodMarker : MarkerFrame :=
  { number := 255, sentOn := .forward, hops := 255, forwardWrap := some 1, reverseWrap := none }
def goodCtx : DemandCtx := { input := .forward, src := 1, seq := 15, first := true, last := true }
def goodItem : DemandItem :=
  { resource := 15, cls := 3, weight := 15, q := 65535, floor := some 65535, fallback := some 65535 }
def goodManage : ManageCtx := { input := .reverse, src := 31, seq := 15 }

theorem test_wf_frames : ([ .frameForward 15 goodFrame, .sample goodFrame, .markerReturn .reverse goodMarker,
    .commitIf goodCtx goodItem .shared 255, .load goodManage 255 255 255 ⟨127, true⟩ (List.replicate 51 0),
    .leaseExpiry 11 2, .pollTimeout 29 ] : List Instr).all Instr.wf = true := by decide

/-- One ill-formed frame for each check of a frame, a marker and an own frame. -/
theorem test_wf_refuses_frames : ([ .frameForward 16 goodFrame, .sample { goodFrame with dest := 32 },
    .sample { goodFrame with src := 0 }, .statusFrame { goodFrame with src := 32 },
    .intercept { goodFrame with seq := 16 }, .sample { goodFrame with payload := List.replicate 57 0 },
    .ownFrameStrip ⟨.forward, 32, 0, 0, []⟩, .ownFrameStrip ⟨.forward, 0, 16, 0, []⟩,
    .ownFrameStrip ⟨.forward, 0, 0, 16, []⟩, .ownFrameStrip ⟨.forward, 0, 0, 0, List.replicate 57 0⟩,
    .markerReturn .forward { goodMarker with number := 256 }, .markerReturn .forward { goodMarker with hops := 256 },
    .markerReturn .forward { goodMarker with forwardWrap := some 0 },
    .markerReturn .forward { goodMarker with reverseWrap := some 256 } ] : List Instr).all (!·.wf) = true := by decide

/-- One ill-formed item for each check of an item and of its frame, in the eleven rows in turn. -/
theorem test_wf_refuses_items : ([ .acquireShared { goodCtx with src := 0 } goodItem,
    .acquireExclusive { goodCtx with seq := 16 } goodItem, .upgrade goodCtx { goodItem with resource := 16 },
    .downgrade goodCtx { goodItem with cls := 4 }, .refresh goodCtx { goodItem with weight := 16 },
    .release goodCtx { goodItem with q := 65536 }, .yieldDone goodCtx { goodItem with floor := some 65536 },
    .reserve goodCtx { goodItem with fallback := some 65536 }, .commitIf goodCtx goodItem .shared 256,
    .badItem { goodCtx with src := 32 } goodItem, .malformed { goodCtx with src := 0 } ] : List Instr).all (!·.wf)
    = true := by decide

/-- One ill-formed operation for each check, in the management rows in turn. -/
theorem test_wf_refuses_operations : ([ .load goodManage 256 0 1 ⟨0, true⟩ [], .load goodManage 1 256 1 ⟨0, true⟩ [],
    .load goodManage 1 0 256 ⟨0, true⟩ [], .load goodManage 1 0 1 ⟨128, true⟩ [],
    .load goodManage 1 0 1 ⟨0, true⟩ (List.replicate 52 0), .read goodManage 256 0, .read goodManage 1 256,
    .status goodManage 256 0, .status goodManage 1 256, .start { goodManage with src := 0 },
    .restart { goodManage with src := 32 }, .enterConfig { goodManage with seq := 16 }, .holdChannel goodManage 256,
    .freeChannel goodManage 256, .returnStation goodManage 256, .clearSequence goodManage 256,
    .clearAlert goodManage 256 0, .clearAlert goodManage 1 256, .ackOldest { goodManage with src := 0 },
    .clearCounts { goodManage with src := 0 }, .clearLoop { goodManage with src := 0 },
    .probe goodManage 256 0 0 0, .probe goodManage 1 256 0 0, .probe goodManage 1 0 256 0,
    .probe goodManage 6 0 0 65536, .badOperation goodManage 256 ] : List Instr).all (!·.wf) = true := by decide

/-- One timer number beyond each table. -/
theorem test_wf_refuses_timers : ([ .staleTimerExpiry 48, .leaseExpiry 12 0, .leaseExpiry 0 3, .yieldTimerExpiry 8,
    .rampExpiry 16, .ackTimeout 16, .refreshTimerExpiry 16, .watchExpiry 4, .stopDelayExpiry 4, .antiCycleExpiry 4,
    .silenceExpiry 30, .pollTimeout 30 ] : List Instr).all (!·.wf) = true := by decide

/-! ## Arriving bytes (R159 to R162, R196) -/

/-- The table gives no row bits. -/
theorem test_no_word_spells_a_command : decodeTableWord 16 0xFFFF = none := by decide

/-- The CRC of R159 over the digits 1 to 9. -/
theorem test_crc_check_value : crc16 [0x31, 0x32, 0x33, 0x34, 0x35, 0x36, 0x37, 0x38, 0x39] = 0x29B1 := by decide +kernel

/-- A DEMAND item of R160 written out byte by byte: resource 1 and operation 2, class 1 and weight 8, a floor present, q
600, floor 300. -/
theorem test_item_layout : takeItem [0x12, 0x18, 0x01, 0x02, 0x58, 0x01, 0x2C] =
    some ((.acquire .exclusive, { resource := 1, cls := 1, weight := 8, q := 600, floor := some 300, fallback := none }),
      []) := by decide

/-- A MANAGE payload of R162: LOAD of table 10, index 0, class 2, part 0 with the last mark. -/
theorem test_load_layout : manageCommand goodManage [1, 10, 0, 2, 0x80, 1, 1, 0, 250] =
    .load goodManage 10 0 2 ⟨0, true⟩ [1, 1, 0, 250] := by decide

/-- A frame whose bytes are changed in one bit is dropped. -/
theorem test_flipped_bit_dropped :
    receive .forward ((frameBytes 0 5 8 3 []).set 1 4) = [.dropInvalidFrame] ∧
      receive .forward (frameBytes 0 5 8 3 []) = [.frameForward 8 ⟨.forward, 0, 5, 3, []⟩] := by decide +kernel

/-! ## The manual's worked figures -/

def compCurve : List Breakpoint := [⟨-200, 450⟩, ⟨250, 600⟩, ⟨350, 520⟩, ⟨450, 380⟩]
def radCurve : List Breakpoint := [⟨-200, 520⟩, ⟨200, 420⟩, ⟨400, 330⟩, ⟨500, 250⟩]

/-- Section 1.5, Interpolation (R14). -/
theorem test_interpolation_figures :
    ([410, 353, 480, -300].map (interpolate compCurve), [210, 400].map (interpolate radCurve)) =
      ([436, 516, 380, 450], [415, 330]) := by decide +kernel

def diverter : List Nat := [0, 40, 100, 180, 290, 430, 600, 800, 1000]

/-- Section 6.10: the searches of R125 at F 400, 0 and 500. -/
theorem test_valve_searches : [400, 0, 500].map (valvePosition diverter) = [613, 1, 693] := by decide +kernel

def share (c q w f : Nat) : Option Claim :=
  some { level := .shared, q := q, f := f, cls := c, weight := w, departed := false }

/-- The latched inputs of section 5.8, One pass on the reference plant. -/
def workedPass : Table 12 LatchedRecord :=
  ((((Table.all 12 ({} : LatchedRecord)).set 0 { kind := .parent, capacity := 436 }).set 1
    { kind := .child, capacity := 400, parent := some 0, draw := 100, pack := share 0 380 8 50 }).set 2
    { kind := .child, capacity := 150, parent := some 0, draw := 110, cab := share 2 80 8 20 }).set 3
    { kind := .plain, capacity := 322, drive := share 1 300 6 0, pack := share 1 200 3 50, cab := share 3 80 8 0 }
  |>.set 4 { kind := .plain, capacity := 200, drive := share 1 150 4 0, pack := share 0 120 8 0 }

def workedOutput : PassOutcome := computePass workedPass

/-- Section 5.8: the totals handed, and the shares of RAD. -/
theorem test_worked_pass_results :
    (List.range 5).map (fun r => (handedResult workedPass workedOutput r).total) = [435, 380, 50, 322, 200] ∧
      (handedResult workedPass workedOutput 3).drive = 215 ∧ (handedResult workedPass workedOutput 3).pack = 107 ∧
      (handedResult workedPass workedOutput 4).drive = 80 := by decide +kernel

/-- Section 5.8: the demand draw, the cut class, the cut and the floor drops. -/
theorem test_worked_pass_cut :
    workedOutput.demandDraw.get 0 = 468 ∧ workedOutput.cutClass.get 0 = some 2 ∧ workedOutput.anyCut = true ∧
      workedOutput.drops = 0 := by decide +kernel

/-- Section 5.8, Water-filling: the leftover case and the floor case. -/
theorem test_water_filling :
    (shareClass 2 100 [⟨0, 500, 0, 1⟩, ⟨1, 500, 0, 1⟩, ⟨2, 500, 0, 1⟩]).1 = [(0, 34), (1, 33), (2, 33)] ∧
      shareClass 2 120 [⟨0, 200, 0, 1⟩, ⟨1, 200, 80, 1⟩] = ([(0, 120)], 1) := by
  decide +kernel

/-- Section 5.8, A cut that needs a trim: the grants left of Drive and Cab, and the drop when Cab's floor is 22. -/
theorem test_trim :
    ((cutParent 200 [⟨2, 2, 2, 20, 110, 45⟩, ⟨1, 1, 0, 0, 100, 150⟩, ⟨2, 0, 2, 10, 110, 47⟩]).lines.map fun l =>
      (l.client, l.g)) = [(1, 150), (0, 23), (2, 21)] ∧
    (cutParent 200 [⟨2, 2, 2, 22, 110, 45⟩, ⟨1, 1, 0, 0, 100, 150⟩, ⟨2, 0, 2, 10, 110, 47⟩]).drops = 1 := by
  decide +kernel

def glitchPoint : Point := { source := some (7, 2), lo := -400, hi := 1000, step := 30 }

/-- The outcomes of samples one after another, and the point after them. -/
def sampleRun (pt : Point) (l : List Int) : List Count × Point :=
  l.foldl (fun x v => (x.1 ++ [(x.2.sample 0 v).1], (x.2.sample 0 v).2)) ([], pt)

/-- Section 2.8, Range check and glitch filter: the outcomes of the eight samples, and the point after them. -/
theorem test_glitch_filter_case :
    sampleRun glitchPoint [295, 310, 1200, 650, 318, 400, 412, 425] =
      ([.samplesAccepted, .samplesAccepted, .samplesRange, .samplesGlitch, .samplesAccepted, .samplesGlitch,
        .samplesGlitch, .samplesAccepted],
        { glitchPoint with accepted := some 425, quality := .fresh, staleTimer := .running 100000 }) := by decide +kernel

def seven : List AlertNo := [⟨2, 9⟩, ⟨3, 2⟩, ⟨1, 3⟩, ⟨1, 0⟩, ⟨4, 5⟩, ⟨7, 1⟩, ⟨6, 3⟩]
def eight : List AlertNo := seven ++ [⟨5, 0⟩]

/-- Section 10.5: the list and the overflow count after each raise. -/
theorem test_full_list_case :
    (raiseOn ⟨6, 3⟩ seven 0, raiseOn ⟨5, 0⟩ seven 0, raiseOn ⟨2, 11⟩ eight 0, raiseOn ⟨3, 6⟩ eight 255) =
      (none, some (eight, 0), some (eight, 1), none) := by decide +kernel

/-- Names and fields of the notices of R82 in bytes (R162): GRANTED of resource 2 at SHARED with 300, and LAPSED. -/
theorem test_notice_bytes : (Notice.bytes ⟨2, .granted (some .shared) 300⟩, Notice.bytes ⟨11, .lapsed true⟩) =
    ([0x21, 1, 0x01, 0x2C], [0xB8, 2]) := by decide +kernel

/-! ## A small plant in RUN -/

/-- A station record with its timers running. -/
def station (a : Nat) (role : Role) (st : StationState) : Option Station :=
  some { address := a, role := role, silenceLimit := 500, state := st, silenceTimer := .running 50000,
         pollTimer := .running 2000, retryCount := 0, heard := false }

/-- The condenser fan's, the radiator fan's and the drive's common shape. -/
def fan : Channel :=
  { kind := .fan, station := 13, output := 0, characteristic := none, minRun := 200, slew := 50, rampInterval := 100,
    tolerance := 16, ackLimit := 30, refreshPeriod := 1000, state := .active, current := some 0, target := 350,
    lastActual := some 0, cmdSeq := 4, rampTimer := .running 4000, refreshTimer := .running 100000 }

/-- A plant in RUN: three client stations 1 to 3, a sensor station 7, an actuator station 13, a fan on channel 2, its slot
2, RAD as resource 3, COMP and CHIL as 0 and 1, and point 1 of section 2.8. The management station is 30. -/
def plant : State :=
  { State.reset with
    stm.stations := ((((Table.all 30 none).set 0 (station 1 .client .online)).set 1 (station 2 .client .online)).set 2
      (station 3 .client .online) |>.set 3 (station 7 .sensor .online)) |>.set 4 (station 13 .actuator .online)
    pst.points := (Table.all 48 ({} : Point)).set 1
      { source := some (7, 2), lo := -400, hi := 1000, step := 30, quality := .fresh, accepted := some 310,
        staleTimer := .running 100000 }
    cau.resources := (((Table.all 12 ({} : Resource)).set 0 { kind := .parent }).set 1
      { kind := .child, parent := some 0, draw := some 100, yieldTimeout := some 5000 }).set 3
      { kind := .plain, blind := some 250, yieldTimeout := some 5000, slot := some 2,
        bindings := [⟨2, .level [⟨0, 0⟩, ⟨100, 300⟩, ⟨400, 1000⟩], 40⟩] }
    din.clients := (((Table.all 3 ({} : Client)).set 0 { entry := some ⟨1, .release, 1, 6, 1000⟩ }).set 1
      { entry := some ⟨2, .fallback, 1, 3, 1000⟩, lapseAlert := true }).set 2 { entry := some ⟨3, .release, 3, 8, 1000⟩ }
    chu.channels := (Table.all 16 none).set 2 (some fan)
    ssu.slots := (Table.all 4 none).set 2 (some
      { resource := 3, steps := [⟨2, 300, 20⟩], stopDelay := 10, antiCycle := 120 })
    mgu.part := .run
    mgu.manager := 30
    ale.passTimer := .running 25000 }

/-- A holder with a standing of class 2 and a running lease. -/
def held (st : HolderState) (g : Nat) : Holder :=
  { state := st, q := 300, f := 50, cls := 2, weight := 8, g := g, lease := .running 100000 }

/-- The plant with one holder in a state. -/
def with1 (r c : Nat) (h : Holder) : State := plant.setHolder r c h

/-- Pack YIELDING on RAD under record 0. -/
def yielding (ramp : RampMark) (notice : Bool) : State :=
  (with1 3 1 { state := .yielding, q := 300, cls := 2, weight := 8 }).setRecord 0 (some
    { resource := 3, client := 1, grant := 100, cause := .request, ramp := ramp, notice := notice,
      timer := if notice then .running 500000 else .stopped, passSeen := true })

def ctx (src : Nat) : DemandCtx := { input := .forward, src := src, seq := 3, first := true, last := true }
def item (r : Nat) : DemandItem := { resource := r, cls := 1, weight := 0, q := 12000, floor := none, fallback := none }
def boss : ManageCtx := { input := .forward, src := 30, seq := 9 }
def frame (src dest : Nat) (payload : List Byte) : RxFrame :=
  { input := .forward, dest := dest, src := src, seq := 1, payload := payload }

/-- The state a command leaves. -/
def after (i : Instr) (s : State) : State :=
  match exec i s with
  | .next t => t
  | _ => s

/-! ## Worked figures on a small plant -/

/-- Points 0 and 3 and channels 0 and 1 of section 1.5. -/
def compPlant : State :=
  { plant with
    pst.points := ((plant.pst.points.set 0 { quality := .fresh, accepted := some 410 }).set 3
      { quality := .fresh, accepted := some 600 })
    chu.channels := (plant.chu.channels.set 0 (some { fan with station := 12 })).set 1 (some { fan with station := 12 })
    ssu.slots := plant.ssu.slots.set 0 (some { resource := 0, steps := [], stopDelay := 0, antiCycle := 0, state := .running }) }

def comp : Resource :=
  { kind := .parent, curve := compCurve, input := some 0, blind := some 400, limitPoint := some 3, slot := some 0,
    bindings := [⟨0, .level [], 0⟩, ⟨1, .level [], 60⟩] }

def faulted (n : Nat) (s : State) : State := s.modifyChannel n fun ch => ch.enterFaulted .status

/-- Section 1.5, Losses, limits and the gate: the effective capacity and what bound it, line by line. -/
theorem test_capacity_lines :
    ([(compPlant, comp), (faulted 1 compPlant, comp), (faulted 0 (faulted 1 compPlant), comp),
      (compPlant.setPoint 3 { quality := .fresh, accepted := some 300 }, comp),
      (compPlant.setPoint 3 { quality := .stale, accepted := some 600 }, comp),
      (compPlant, { comp with probeCap := some 350 }), (faulted 1 compPlant, { comp with probeCap := some 350 }),
      (compPlant.setSlot 0 none, comp)].map fun x => ((evaluate x.1 x.2).effective, (evaluate x.1 x.2).boundBy)) =
    [(436, .none), (261, .derate), (0, .derate), (300, .limit), (0, .limitStale), (350, .cap), (261, .derate), (0, .gate)] := by
  decide +kernel

/-- Section 6.10, Targets after one pass: channels 0, 1, 2 and 5 from their bindings. -/
theorem test_targets :
    [interpolate [⟨0, 0⟩, ⟨100, 300⟩, ⟨600, 1023⟩] 435, interpolate [⟨0, 0⟩, ⟨450, 1023⟩] 435,
      interpolate [⟨0, 0⟩, ⟨100, 300⟩, ⟨400, 1000⟩] 322, interpolate [⟨0, 250⟩, ⟨400, 1023⟩] 200,
      interpolate [⟨0, 250⟩, ⟨400, 1023⟩] 120] = [784, 989, 818, 637, 482] := by decide +kernel

/-- Section 6.10, A ramp with its handshake: the first expiry of channel 2. -/
theorem test_ramp_first_step :
    ((after (.rampExpiry 2) plant).channel 2).map (fun ch => (ch.current, ch.handshake)) =
      some (some 200, .awaiting 5 200 0) := by decide +kernel

/-- Section 7.10, A start: at a pass start with a claim sum above 0 a STOPPED slot enters its first step. -/
theorem test_slot_starts :
    (((slotPassStart 2 460 plant).slot 2).map fun sl => (sl.state, sl.claimSum), sequenceMinimum (slotPassStart 2 460 plant) 2,
      ((slotPassStart 2 460 plant).channel 2).map (·.target)) = (some (.starting 1, 460), 300, some 300) := by decide +kernel

/-- Section 8.8: marker 41 home at the reverse input with forward-wrap 8. -/
def homeWrapped : State :=
  after (.markerReturn .reverse ⟨41, .forward, 8, some 8, none⟩)
    { plant with lpu.forwardMarker := some { number := 41, role := .regular, sentAt := 0, watch := .running 2000 } }

theorem test_wrap_forward :
    homeWrapped.lpu.loop = .wrapFwd ∧ homeWrapped.alc.alerts = [⟨1, 3⟩] ∧ homeWrapped.lpu.forwardWrap = some 8 ∧
      homeWrapped.count .loopSwitches = 1 := by decide +kernel

/-! ## States that meet the hypotheses of the statements

One theorem `test_witness_<statement>` for each statement with hypotheses: each of its clauses is met. -/

theorem test_witness_StepRunsFrontCommandOrIdles :
    ({ plant with pending := [.passCompletion, .freeze] } : State).pending = .passCompletion :: [.freeze] ∧
      plant.pending = [] := by decide +kernel

/-- An own SAMPLE frame coming home at the reverse input in WRAP-BOTH. -/
theorem test_witness_FramesSteeredOrStripped_own :
    ({ plant with lpu.loop := .wrapBoth } : State).lpu.loop = .wrapBoth ∧
      (1, Instr.sample { frame 0 31 [] with input := .reverse }) ∈
        [(1, Instr.sample { frame 0 31 [] with input := .reverse })] ∧
      1 = (⟨.reverse, 31, 1, 1, []⟩ : OwnFrame).cls := by decide +kernel

/-- The clauses of `FramesSteeredOrStripped`: classes that travel on, a DEMAND frame of no client, a MANAGE frame of a station
that is not the management station. -/
theorem test_witness_FramesSteeredOrStripped :
    ((frame 7 9 []).src ≠ 0 ∧ interceptFor (arrive 7 plant) 7 9 = none ∧ (frame 7 9 []).dest ≠ 0) ∧
      (∀ cls ∈ [0, 3, 5, 10, 11, 15], cls ≠ 1 ∧ cls ≠ 4 ∧ cls ≠ 2 ∧ cls ≠ 6) ∧
      ((frame 7 0 [0x12]).dest = 0 ∧ takenClient 7 (arrive 7 plant) = none) ∧
      7 ≠ (arrive 7 plant).mgu.manager := by decide +kernel

/-- Station 13 FAULTY under a return mode, its channel 2 FAULTED with it. -/
def fallen (mode : ReturnMode) (hold : Bool) : State :=
  { plant with
    stm := { stations := plant.stm.stations.set 4 (station 13 .actuator .faulty), pollTimeout := 20, retryLimit := 5,
             returnMode := mode }
    chu.channels := plant.chu.channels.set 2 (some { fan.enterFaulted .station with hold := hold }) }

theorem test_witness_ArrivalTakenAsEvidence :
    stationRecord 9 plant = none ∧
      (stationRecord 13 plant = some 4 ∧ plant.station 4 = station 13 .actuator .online ∧ StationState.online ≠ .faulty) ∧
      (stationRecord 13 (fallen .manual false) = some 4 ∧ (fallen .manual false).station 4 = station 13 .actuator .faulty ∧
        (fallen .manual false).stm.returnMode ≠ .auto) ∧
      (∀ hold, stationRecord 13 (fallen .auto hold) = some 4 ∧
        (fallen .auto hold).station 4 = station 13 .actuator .faulty ∧ (fallen .auto hold).stm.returnMode = .auto ∧
        (fallen .auto hold).channel 2 = some { fan.enterFaulted .station with hold := hold } ∧
        { fan.enterFaulted .station with hold := hold }.station = 13 ∧
        { fan.enterFaulted .station with hold := hold }.cause = some .station ∧
        { fan.enterFaulted .station with hold := hold }.state = .faulted) := by decide +kernel

/-- The plant with a marker outstanding on the forward ring. -/
def marked (number : Nat) (role : MarkerRole) (watch : Timer) (misses : Nat) : State :=
  { plant with
    lpu.forwardMarker := some { number := number, role := role, sentAt := 0, watch := watch }
    lpu.missCount := misses }

def plainMarker : MarkerFrame := { number := 7, sentOn := .forward, hops := 20, forwardWrap := none, reverseWrap := none }

/-- The plant in a loop state with number 7 outstanding on both rings, in a role, and a paired round or none. -/
def judged (l : LoopState) (role : MarkerRole) (misses : Nat) (round : Option PairedRound) : State :=
  let o : Outstanding := { number := 7, role := role, sentAt := 0, watch := .running 2000 }
  { plant with
    lpu := { plant.lpu with
      loop := l, missCount := misses, round := round, forwardMarker := some o, reverseMarker := some o } }

theorem judged_outstanding (ring : Ring) (l : LoopState) (role : MarkerRole) (misses : Nat) (round : Option PairedRound) :
    outstanding (judged l role misses round) ring =
        some { number := 7, role := role, sentAt := 0, watch := .running 2000 } ∧
      (judged l role misses round).lpu.loop = l ∧ (judged l role misses round).lpu.missCount = misses ∧
      (judged l role misses round).lpu.round = round := by
  cases ring <;> exact ⟨rfl, rfl, rfl, rfl⟩

/-- With `judged_outstanding`: every role at every loop state, miss count and round. -/
theorem test_witness_MarkerReturnJudged :
    (judged .wrapBoth .regular 0 none).lpu.loop = .wrapBoth ∧ ¬(plant.lpu.loop = .wrapBoth ∧ Ring.reverse = .reverse) ∧
      (∀ o ∈ outstanding (marked 8 .regular .stopped 0) .forward, o.number ≠ plainMarker.number) ∧
      (indicates .forward .forward none none = some .forward ∧ indicates .forward .reverse (some 8) none = some .wrapFwd ∧
        indicates .forward .reverse none none = none) ∧
      (1 + 1 < 3 ∧ 3 ≤ 2 + 1) ∧
      ∃ r : PairedRound, (judged .down .paired 0 (some r)).lpu.round = some r ∧ r.reverseEnd = none ∧
        r.forwardEnd = some (some .wrapFwd) := by
  refine ⟨rfl, by decide, by decide +kernel, by decide, by decide, ⟨some (some .wrapFwd), none⟩, rfl, rfl, rfl⟩

/-- The plant in a loop state, with a recovery count, and with a paired round in progress or none. -/
def looped (l : LoopState) (recovery : Nat) (round : Option PairedRound) : State :=
  { plant with lpu.loop := l, lpu.recoveryCount := recovery, lpu.round := round }

theorem test_witness_MarkersSentAtExpiry :
    (∀ d, ({ plant with lpu.markerTimer := .stopped } : State).lpu.markerTimer ≠ .running d) ∧
      (∀ l r p, (looped l r p).lpu.markerTimer = .running 10000) ∧
      (looped .down 0 (some ⟨none, none⟩)).lpu.round.isSome = true ∧
      (∀ l r, (looped l r none).lpu.round = none ∧ (looped l r none).lpu.loop = l ∧
        (looped l r none).lpu.recoveryCount = r) ∧ 8 + 1 < 10 ∧ 10 ≤ 9 + 1 := by
  refine ⟨fun d h => Timer.noConfusion h, fun _ _ _ => rfl, rfl, fun _ _ => ⟨rfl, rfl, rfl⟩, by decide, by decide⟩

/-- With `judged_outstanding`: every role at every loop state, miss count and round. -/
theorem test_witness_ReturnWatchExpiryCounted :
    (∀ d role m, outstanding (marked 7 role .stopped m) .forward =
        some { number := 7, role := role, sentAt := 0, watch := .stopped } ∧ Timer.stopped ≠ .running d) ∧
      (1 + 1 < 3 ∧ 3 ≤ 2 + 1) ∧ ∀ other, (judged .down .paired 0 (some ⟨none, some other⟩)).lpu.round =
        some ⟨none, some other⟩ := by
  refine ⟨fun d _ _ => ⟨rfl, fun h => Timer.noConfusion h⟩, by decide, fun _ => rfl⟩

/-- Every change from one loop state to another, COMMANDS_SENT at its end, and the channels that re-send. -/
theorem test_witness_LoopChangeActs :
    (∀ l r p, (looped l r p).lpu.loop = l) ∧ LoopState.down ≠ .forward ∧
      ({ plant with alc.counts := plant.alc.counts.set 3 65535 } : State).count .commandsSent ≤ 65535 ∧
      (∀ l, (looped l 0 none).channel 2 = some fan) ∧ fan.state = .active ∧ fan.handshake = .clear ∧
      fan.current = some 0 := by
  refine ⟨fun _ _ _ => rfl, by decide, by decide +kernel, fun l => by cases l <;> rfl, rfl, rfl, rfl⟩

/-- A FAULTY sensor station 7, not returned by its frames. -/
def deafTo7 : State :=
  { plant with stm.stations := plant.stm.stations.set 3 (station 7 .sensor .faulty), stm.returnMode := .manual }

theorem test_witness_SampleFrameTouchesOnlyItsPoints :
    (frame 7 9 [2, 1, 0]).src ≠ 0 ∧ (∀ slot, ((arrive 7 plant).point 5).source ≠ some (7, slot)) ∧
      Count.crcErrors ∉ [Count.framesForwarded, .samplesAccepted, .samplesRange, .samplesGlitch] ∧
      stationFaulty 7 (arrive 7 deafTo7) = true := by
  refine ⟨by decide, fun slot h => ?_, by decide, by decide +kernel⟩
  have : ((arrive 7 plant).point 5).source = none := by decide +kernel
  rw [this] at h; cases h

/-- Point 1 with a candidate. -/
def confirming (c : Option Candidate) : State :=
  plant.setPoint 1 { plant.point 1 with candidate := c }

/-- Point 1 accepts −400 to 1000 with step 30 and holds 310: 1001 is out of range, 340 within the step, 341 not; beside
the candidate 400, 430 is within the step and 431 not; two of three samples confirm, or three. -/
theorem test_witness_SampleJudgedByRangeAndGlitch :
    (∀ c ∈ [none, some ⟨400, 1⟩, some ⟨400, 2⟩], (frame 7 9 [2, 1, 0]).src ≠ 0 ∧
      stationFaulty 7 (arrive 7 (confirming c)) = false ∧ pointOf (arrive 7 (confirming c)) 7 2 = some 1 ∧
      (arrive 7 (confirming c)).point 1 = { plant.point 1 with candidate := c }) ∧
      ((plant.point 1).lo = -400 ∧ (plant.point 1).hi = 1000 ∧ (plant.point 1).step = 30 ∧
        (plant.point 1).confirm = 3 ∧ (plant.point 1).accepted = some 310 ∧ (plant.point 1).quality = .fresh) ∧
      [signed16 (be16 3 0xE9), signed16 (be16 1 0x54), signed16 (be16 1 0x55), signed16 (be16 1 0xAE),
        signed16 (be16 1 0xAF), signed16 (be16 0xFE 0x6F)] = [1001, 340, 341, 430, 431, -401] ∧
      ((340 - 310 : Int).natAbs ≤ 30 ∧ ¬(341 - 310 : Int).natAbs ≤ 30 ∧ (430 - 400 : Int).natAbs ≤ 30 ∧
        30 < (431 - 400 : Int).natAbs) ∧ 3 ≤ 2 + 1 ∧ 1 + 1 < 3 := by decide +kernel

/-- Channel 2 with a handshake, and station 13 ONLINE. -/
def awaiting (h : Handshake) (current : Option Nat) (st : ChannelState) : State :=
  plant.setChannel 2 (some { fan with handshake := h, current := current, state := st, ackTimer := .running 3000 })

/-- Station 13's FAULTY frames do not return it. -/
def deafTo13 : State := fallen .manual false

theorem test_witness_StatusEntryHandled :
    stationFaulty 13 (arrive 13 deafTo13) = true ∧
      (∀ x ∈ [(Handshake.clear, some 0, ChannelState.active), (.awaiting 4 200 0, some 200, .active),
          (.awaiting 4 200 0, some 250, .active), (.awaiting 4 200 0, none, .active), (.awaiting 4 200 0, some 250, .held)],
        (frame 13 0 [0, 0x40, 0, 0xB4]).payload = [0, 0x40, 0, 0xB4] ∧
        stationFaulty 13 (arrive 13 (awaiting x.1 x.2.1 x.2.2)) = false ∧
        channelOf (arrive 13 (awaiting x.1 x.2.1 x.2.2)) 13 (0 : Byte).toNat = some 2 ∧
        (arrive 13 (awaiting x.1 x.2.1 x.2.2)).channel 2 = some
          { fan with handshake := x.1, current := x.2.1, state := x.2.2, ackTimer := .running 3000 }) ∧
      ((0x40 : Byte).toNat / 16 = 4 ∧ (0x41 : Byte).toNat / 16 = 4 ∧ (0x50 : Byte).toNat / 16 ≠ 4 ∧
        (0x40 : Byte).toNat % 2 = 0 ∧ (0x41 : Byte).toNat % 2 = 1) := by decide +kernel

/-- Frames of station 1 to station 13 are intercepted, output 0 being a mapping to RAD. -/
def intercepting (p : PartState) (src : Nat) : State :=
  { plant with
    mgu.part := p
    fsu.entries := plant.fsu.entries.set 0 (some { source := src, destination := 13, mappings := [⟨0, 3, 1000⟩] }) }

theorem test_witness_CommandFrameIntercepted :
    (frame 1 13 [0, 3, 0]).src ≠ 0 ∧ interceptFor (arrive 1 plant) 1 13 = none ∧
      (interceptFor (arrive 1 (intercepting .halted 1)) 1 13 = some ⟨1, 13, [⟨0, 3, 1000⟩]⟩ ∧
        (arrive 1 (intercepting .halted 1)).mgu.part = .halted) ∧
      (interceptFor (arrive 7 (intercepting .run 7)) 7 13 = some ⟨7, 13, [⟨0, 3, 1000⟩]⟩ ∧
        takenClient 7 (arrive 7 (intercepting .run 7)) = none) ∧
      (interceptFor (arrive 1 (intercepting .run 1)) 1 13 = some ⟨1, 13, [⟨0, 3, 1000⟩]⟩ ∧
        (arrive 1 (intercepting .run 1)).mgu.part = .run ∧ takenClient 1 (arrive 1 (intercepting .run 1)) = some 0 ∧
        ((arrive 1 (intercepting .run 1)).client 0).entry = some ⟨1, .release, 1, 6, 1000⟩ ∧
        (∀ m ∈ [(⟨0, 3, 1000⟩ : Mapping)], m.output ≠ (5 : Byte).toNat ∧ m.output = (0 : Byte).toNat)) := by
  decide +kernel

/-! ### DEMAND items -/

def driveEntry : ClientEntry := ⟨1, .release, 1, 6, 1000⟩

/-- An item of Drive on RAD that passes the checks. -/
def DriveItem (s : State) : Prop := ItemOf (ctx 1) (item 3) 0 driveEntry s

/-- What the item is decided on. -/
def seen (s : State) : State := itemTaken (ctx 1) s

def frozenRad (s : State) : State := { s with gtb.frozen := s.gtb.frozen.set 3 true }

def waitingPack : State := with1 3 1 { state := .waiting, target := some .exclusive, lease := .running 100000 }

/-- A PRF full with entries of other resources. -/
def fullPrf (s : State) : State :=
  { s with din.prf := [4, 5, 6, 7, 8, 9, 10, 11].map fun r => ⟨0, r, .exclusive⟩ }

/-- Drive's own holder on RAD beside Pack's. -/
def beside (st : HolderState) (s : State) : State := s.setHolder 3 0 (held st 120)

/-- Every record live. -/
def fullRecords (s : State) : State :=
  { s with gtb.records := Table.all 8 (some
      { resource := 5, client := 2, grant := 0, cause := .request, ramp := .settle, notice := false, timer := .stopped,
        passSeen := true }) }

/-- Two records free, the sixth and the seventh, and one place in the PRF. -/
def tight (s : State) : State :=
  { s with
    gtb.records := ((fullRecords s).gtb.records.set 6 none).set 7 none
    din.prf := (fullPrf s).din.prf.take 7 }

/-- Pack's and Cab's holders on RAD, both of class 3. -/
def two (st st' : HolderState) : State :=
  (with1 3 1 { held st 100 with cls := 3 }).setHolder 3 2 { held st' 40 with cls := 3 }

theorem other_of_none {s : State} {r c : Nat} {l : List HolderState}
    (h : someOther s r c (fun x => decide (x.state ∈ l)) = false) : ¬OtherIn s r c l := by
  rw [← someOther_iff s r c (fun x => decide (x.state ∈ l)) l (fun x => by simp)]
  simp [h]

theorem no_record {s : State} {r : Nat} (h : recordNames s r = false) : ¬RecordNames s r := by
  rw [← recordNames_iff]; simp [h]

theorem test_witness_AcquireSharedFromNone :
    (∀ s ∈ [plant, frozenRad plant, waitingPack, with1 3 1 { held .exclusive 50 with cls := 1 },
        fullRecords (two .exclusive .none), fullPrf (two .exclusive .none)],
      DriveItem s ∧ ((seen s).holder 3 0).state = .none) ∧
      (seen (frozenRad plant)).isFrozen 3 = true ∧
      (∀ s ∈ [plant, waitingPack, with1 3 1 { held .exclusive 50 with cls := 1 }, fullRecords (two .exclusive .none),
        fullPrf (two .exclusive .none)], (seen s).isFrozen 3 = false) ∧
      OtherIn (seen waitingPack) 3 0 [.waiting, .upgrading] ∧
      (∀ s ∈ [plant, with1 3 1 { held .exclusive 50 with cls := 1 }, fullRecords (two .exclusive .none),
        fullPrf (two .exclusive .none)], ¬OtherIn (seen s) 3 0 [.waiting, .upgrading]) ∧
      (((seen (with1 3 1 { held .exclusive 50 with cls := 1 })).holder 3 1).state = .exclusive ∧
        ((seen (with1 3 1 { held .exclusive 50 with cls := 1 })).holder 3 1).cls ≤ (item 3).cls) ∧
      (∀ s ∈ [fullRecords (two .exclusive .none), fullPrf (two .exclusive .none)],
        victims (seen s) 3 0 [.exclusive] ≠ [] ∧
          ∀ c' ∈ victims (seen s) 3 0 [.exclusive], (item 3).cls < ((seen s).holder 3 c').cls) ∧
      ((freeList (seen (fullRecords (two .exclusive .none)))).length <
          (victims (seen (fullRecords (two .exclusive .none))) 3 0 [.exclusive]).length ∧
        8 ≤ (seen (fullPrf (two .exclusive .none))).din.prf.length) ∧
      ¬OtherIn (seen plant) 3 0 [.exclusive] := by
  refine ⟨?_, by decide +kernel, by decide +kernel, ⟨1, by decide, by decide, by decide +kernel⟩, ?_, by decide +kernel,
    by decide +kernel, by decide +kernel, other_of_none (by decide +kernel)⟩
  · unfold DriveItem ItemOf ItemPasses
    decide +kernel
  · intro s hs
    simp only [List.mem_cons, List.not_mem_nil, or_false] at hs
    rcases hs with rfl | rfl | rfl | rfl <;> exact other_of_none (by decide +kernel)

/-- Pack YIELDING on RAD leaves RAD free of other standings and named by a record; beside two holders the records do not
suffice, or the PRF is full. -/
theorem test_witness_AcquireExclusiveFromNone :
    (∀ s ∈ [plant, frozenRad plant, waitingPack, with1 3 1 { held .shared 50 with cls := 1 }, yielding .settle true,
        fullPrf (yielding .settle true), fullRecords (two .shared .shared), fullPrf (two .shared .shared)],
        DriveItem s ∧ ((seen s).holder 3 0).state = .none) ∧
      (seen (frozenRad plant)).isFrozen 3 = true ∧
      (∀ s ∈ [plant, waitingPack, with1 3 1 { held .shared 50 with cls := 1 }, yielding .settle true,
        fullPrf (yielding .settle true), fullRecords (two .shared .shared), fullPrf (two .shared .shared)],
        (seen s).isFrozen 3 = false) ∧
      OtherIn (seen waitingPack) 3 0 [.waiting, .upgrading] ∧
      (((seen (with1 3 1 { held .shared 50 with cls := 1 })).holder 3 1).state = .shared ∧
        ((seen (with1 3 1 { held .shared 50 with cls := 1 })).holder 3 1).cls ≤ (item 3).cls) ∧
      (∀ s ∈ [fullRecords (two .shared .shared), fullPrf (two .shared .shared)],
        ¬OtherIn (seen s) 3 0 [.waiting, .upgrading] ∧ victims (seen s) 3 0 [.shared, .exclusive] = [1, 2] ∧
          (((seen s).holder 3 1).cls = 3 ∧ ((seen s).holder 3 2).cls = 3 ∧ (item 3).cls < 3)) ∧
      ((freeList (seen (fullRecords (two .shared .shared)))).length < 2 ∧
        8 ≤ (seen (fullPrf (two .shared .shared))).din.prf.length) ∧
      (∀ s ∈ [plant, yielding .settle true, fullPrf (yielding .settle true)],
        ¬OtherIn (seen s) 3 0 [.waiting, .upgrading] ∧ ¬OtherIn (seen s) 3 0 [.shared, .exclusive]) ∧
      ¬RecordNames (seen plant) 3 ∧ RecordNames (seen (yielding .settle true)) 3 ∧
      (seen (yielding .settle true)).din.prf.length < 8 ∧ 8 ≤ (seen (fullPrf (yielding .settle true))).din.prf.length := by
  refine ⟨?_, by decide +kernel, by decide +kernel, ⟨1, by decide, by decide, by decide +kernel⟩, by decide +kernel, ?_,
    by decide +kernel, ?_, no_record (by decide +kernel), ⟨0, _, rfl, rfl⟩, by decide +kernel, by decide +kernel⟩
  · unfold DriveItem ItemOf ItemPasses
    decide +kernel
  · intro s hs
    simp only [List.mem_cons, List.not_mem_nil, or_false] at hs
    rcases hs with rfl | rfl <;> exact ⟨other_of_none (by decide +kernel), by decide +kernel, by decide +kernel⟩
  · intro s hs
    simp only [List.mem_cons, List.not_mem_nil, or_false] at hs
    rcases hs with rfl | rfl | rfl <;> exact ⟨other_of_none (by decide +kernel), other_of_none (by decide +kernel)⟩

/-- An EXCLUSIVE holder in the way of SHARED and of EXCLUSIVE, two SHARED ones in the way of EXCLUSIVE and of an UPGRADE,
with as many records free as are needed and one place in the PRF. -/
theorem test_witness_RequestRevokesLessUrgent :
    (∀ x ∈ [(tight (two .exclusive .none), HolderState.none, [HolderState.exclusive]),
        (tight (two .exclusive .none), .none, [.shared, .exclusive]), (tight (two .shared .shared), .none, [.shared, .exclusive]),
        (tight (beside .shared (two .shared .shared)), .shared, [.shared])],
      DriveItem x.1 ∧ ((seen x.1).holder 3 0).state = x.2.1 ∧ (seen x.1).isFrozen 3 = false ∧
        victims (seen x.1) 3 0 x.2.2 ≠ [] ∧
        (∀ c' ∈ victims (seen x.1) 3 0 x.2.2, (item 3).cls < ((seen x.1).holder 3 c').cls) ∧
        (victims (seen x.1) 3 0 x.2.2).length ≤ (freeList (seen x.1)).length ∧ (seen x.1).din.prf.length < 8) ∧
      (∀ c' ∈ victims (seen (tight (beside .shared (two .shared .shared)))) 3 0 [.shared],
        ((seen (tight (beside .shared (two .shared .shared)))).holder 3 0).cls <
          ((seen (tight (beside .shared (two .shared .shared)))).holder 3 c').cls) ∧
      (victims (seen (tight (two .shared .shared))) 3 0 [.shared, .exclusive]).length = 2 ∧
      (freeList (seen (tight (two .shared .shared)))).length = 2 ∧
      (∀ s ∈ [tight (two .exclusive .none), tight (two .shared .shared), tight (beside .shared (two .shared .shared))],
        ¬OtherIn (seen s) 3 0 [.waiting, .upgrading]) := by
  refine ⟨?_, by decide +kernel, by decide +kernel, by decide +kernel, ?_⟩
  · unfold DriveItem ItemOf ItemPasses
    decide +kernel
  · intro s hs
    simp only [List.mem_cons, List.not_mem_nil, or_false] at hs
    rcases hs with rfl | rfl | rfl <;> exact other_of_none (by decide +kernel)

theorem test_witness_UpgradeDecided :
    (∀ s ∈ [plant, beside .shared plant, frozenRad (beside .shared plant), beside .shared waitingPack,
        beside .shared (with1 3 1 (held .shared 50)), beside .shared (yielding .settle true),
        fullPrf (beside .shared (yielding .settle true)), fullRecords (beside .shared (two .shared .shared)),
        fullPrf (beside .shared (two .shared .shared))], ItemPasses (ctx 1) (item 3) 0 s) ∧
      ((seen plant).holder 3 0).state ≠ .shared ∧
      (∀ s ∈ [beside .shared plant, frozenRad (beside .shared plant), beside .shared waitingPack,
        beside .shared (with1 3 1 (held .shared 50)), beside .shared (yielding .settle true),
        fullPrf (beside .shared (yielding .settle true)), fullRecords (beside .shared (two .shared .shared)),
        fullPrf (beside .shared (two .shared .shared))], ((seen s).holder 3 0).state = .shared) ∧
      (seen (frozenRad (beside .shared plant))).isFrozen 3 = true ∧ (seen (beside .shared plant)).isFrozen 3 = false ∧
      OtherIn (seen (beside .shared waitingPack)) 3 0 [.waiting, .upgrading] ∧
      (((seen (beside .shared (with1 3 1 (held .shared 50)))).holder 3 1).state = .shared ∧
        ((seen (beside .shared (with1 3 1 (held .shared 50)))).holder 3 1).cls ≤
          ((seen (beside .shared (with1 3 1 (held .shared 50)))).holder 3 0).cls) ∧
      (∀ s ∈ [fullRecords (beside .shared (two .shared .shared)), fullPrf (beside .shared (two .shared .shared))],
        (seen s).isFrozen 3 = false ∧ ¬OtherIn (seen s) 3 0 [.waiting, .upgrading] ∧
          victims (seen s) 3 0 [.shared] = [1, 2] ∧ ((seen s).holder 3 0).cls < ((seen s).holder 3 1).cls ∧
          ((seen s).holder 3 0).cls < ((seen s).holder 3 2).cls ∧
          ((freeList (seen s)).length < 2 ∨ 8 ≤ (seen s).din.prf.length)) ∧
      (∀ s ∈ [beside .shared plant, beside .shared (yielding .settle true), fullPrf (beside .shared (yielding .settle true))],
        ¬OtherIn (seen s) 3 0 [.waiting, .upgrading] ∧ ¬OtherIn (seen s) 3 0 [.shared]) ∧
      ¬RecordNames (seen (beside .shared plant)) 3 ∧ RecordNames (seen (beside .shared (yielding .settle true))) 3 ∧
      8 ≤ (seen (fullPrf (beside .shared (yielding .settle true)))).din.prf.length := by
  refine ⟨?_, by decide +kernel, by decide +kernel, by decide +kernel, by decide +kernel,
    ⟨1, by decide, by decide, by decide +kernel⟩, by decide +kernel, ?_, ?_, no_record (by decide +kernel),
    ⟨0, _, rfl, rfl⟩, by decide +kernel⟩
  · unfold ItemPasses
    decide +kernel
  · intro s hs
    simp only [List.mem_cons, List.not_mem_nil, or_false] at hs
    rcases hs with rfl | rfl <;> exact ⟨by decide +kernel, other_of_none (by decide +kernel), by decide +kernel⟩
  · intro s hs
    simp only [List.mem_cons, List.not_mem_nil, or_false] at hs
    rcases hs with rfl | rfl | rfl <;> exact ⟨other_of_none (by decide +kernel), other_of_none (by decide +kernel)⟩

theorem test_witness_StandingRenewedOrDowngraded_downgrade :
    ∀ s ∈ [plant, beside .exclusive plant, frozenRad (beside .exclusive plant)], ItemPasses (ctx 1) (item 3) 0 s := by
  unfold ItemPasses
  decide +kernel

/-- Drive's holder on RAD in each state. -/
theorem test_witness_StandingRenewedOrDowngraded :
    ∀ st ∈ [HolderState.none, .waiting, .shared, .upgrading, .exclusive, .yielding],
      DriveItem (beside st plant) ∧ ((seen (beside st plant)).holder 3 0).state = st := by
  unfold DriveItem ItemOf ItemPasses
  decide +kernel

theorem test_witness_ReleaseEndsStanding :
    ∀ st ∈ [HolderState.none, .waiting, .shared, .upgrading, .exclusive],
      ItemPasses (ctx 1) (item 3) 0 (beside st plant) ∧ ((seen (beside st plant)).holder 3 0).state = st := by
  unfold ItemPasses
  decide +kernel

/-! Laws of small states. -/

/-- The law of R63 in a state whose only live record is record `k`. -/
theorem standing_of_record {s : State} {k : Nat} {v : Revocation}
    (h1 : ∀ r < 12, ∀ c < 3, ∀ c' < 3, c ≠ c' → (s.holder r c).state.excludes = true →
      (s.holder r c').state.apart = true)
    (h2 : ∀ j < 8, s.record j = if j = k then some v else none) (h3 : v.resource < 12) (h4 : v.client < 3)
    (h5 : (s.holder v.resource v.client).state = .yielding)
    (h6 : ∀ e ∈ s.din.prf, e.resource < 12 ∧ e.client < 3 ∧ (s.holder e.resource e.client).state.pends = true)
    (h7 : s.din.prf.Pairwise fun a b => a.resource ≠ b.resource) : StandingLaw s := by
  have only : ∀ j w, s.record j = some w → j = k ∧ w = v := by
    intro j w h
    have := h2 j (record_lt s h)
    rw [h] at this
    split at this <;> simp_all
  refine ⟨fun r c c' hc hc' hn he => ?_, fun j w h => ?_, fun j l w w' h h' _ _ => ?_, h6, h7⟩
  · by_cases hr : r < 12
    · exact h1 r hr c hc c' hc' hn he
    · rw [holder_beyond s (.inl (by omega))] at he; cases he
  · obtain ⟨-, rfl⟩ := only j w h; exact ⟨h3, h4, h5⟩
  · rw [(only j w h).1, (only l w' h').1]

/-- The same with an empty PRF. -/
theorem standing_of_one {s : State} {k : Nat} {v : Revocation}
    (h1 : ∀ r < 12, ∀ c < 3, ∀ c' < 3, c ≠ c' → (s.holder r c).state.excludes = true →
      (s.holder r c').state.apart = true)
    (h2 : ∀ j < 8, s.record j = if j = k then some v else none) (h3 : v.resource < 12) (h4 : v.client < 3)
    (h5 : (s.holder v.resource v.client).state = .yielding) (h6 : s.din.prf = []) : StandingLaw s :=
  standing_of_record h1 h2 h3 h4 h5 (by simp [h6]) (by simp [h6])

/-- The record of `yielding`. -/
def packRecord (ramp : RampMark) (notice : Bool) : Revocation :=
  { resource := 3, client := 1, grant := 100, cause := .request, ramp := ramp, notice := notice,
    timer := if notice then .running 500000 else .stopped, passSeen := true }

theorem test_standing_law_of_yielding : ∀ ramp notice, StandingLaw (yielding ramp notice) := by
  intro ramp notice
  apply standing_of_one (k := 0) (v := packRecord ramp notice)
  · cases ramp <;> cases notice <;> decide +kernel
  · cases ramp <;> cases notice <;> decide +kernel
  · exact (by decide : 3 < 12)
  · exact (by decide : 1 < 3)
  · cases ramp <;> cases notice <;> decide +kernel
  · rfl

/-- An item of Pack on RAD, where it is YIELDING. -/
theorem test_witness_YieldDoneAcknowledges :
    (ItemPasses (ctx 2) (item 3) 1 plant ∧ ((itemTaken (ctx 2) plant).holder 3 1).state ≠ .yielding) ∧
      (∀ x ∈ [(RampMark.settle, false), (.pass, true), (.settle, true), (.clear, true)],
        ItemPasses (ctx 2) (item 3) 1 (yielding x.1 x.2) ∧
        ((itemTaken (ctx 2) (yielding x.1 x.2)).holder 3 1).state = .yielding ∧
        recordOf (itemTaken (ctx 2) (yielding x.1 x.2)) 3 1 = some 0 ∧
        (itemTaken (ctx 2) (yielding x.1 x.2)).record 0 = some (packRecord x.1 x.2)) ∧
      StandingLaw (itemTaken (ctx 2) (yielding .clear true)) := by
  refine ⟨?_, ?_, ?_⟩
  · unfold ItemPasses; decide +kernel
  · unfold ItemPasses; decide +kernel
  · apply standing_of_one (k := 0) (v := packRecord .clear true) <;> decide +kernel

/-- Drive with a reservation of RAD, its holder there in a state, and RAD's generation at 7. -/
def reserved (g : Nat) (st : HolderState) : State :=
  { beside st plant with
    din.clients := plant.din.clients.set 0 { entry := some driveEntry, reservation := some (3, g) }
    gtb.generations := plant.gtb.generations.set 3 7 }

/-- Drive WAITING for EXCLUSIVE on RAD beside Pack YIELDING there, its entry in the PRF: the case of `RecordFreed` in which an
entry completes. -/
def awaited : State :=
  { (yielding .clear true).setHolder 3 0 { held .waiting 0 with target := some .exclusive } with
    din.prf := [⟨0, 3, .exclusive⟩] }

theorem test_witness_RecordFreed :
    StandingLaw (itemTaken (ctx 2) awaited) ∧ StandingLaw awaited ∧ ItemPasses (ctx 2) (item 3) 1 awaited ∧
      awaited.record 0 = some (packRecord .clear true) ∧ (⟨0, 3, .exclusive⟩ : PrfEntry) ∈ awaited.din.prf ∧
      (∀ j < 8, j ≠ 0 → awaited.record j = none) ∧
      (after (.yieldTimerExpiry 0) awaited).holder 3 0 =
        { held .waiting 0 with state := .exclusive } := by
  refine ⟨?_, ?_, by unfold ItemPasses; decide +kernel, by decide +kernel, by decide +kernel, by decide +kernel,
    by decide +kernel⟩ <;>
    apply standing_of_record (k := 0) (v := packRecord .clear true) <;> decide +kernel

theorem test_witness_ReserveAndCommitIfDecided :
    (∀ g ∈ [6, 7], ∀ st ∈ [HolderState.none, .waiting, .shared, .upgrading, .exclusive, .yielding],
      DriveItem (reserved g st) ∧ ((seen (reserved g st)).holder 3 0).state = st ∧
        ((seen (reserved g st)).client 0).reservation = some (3, g) ∧ (seen (reserved g st)).generation 3 = 7 ∧
        (seen (reserved g st)).isFrozen 3 = false) ∧
      ((seen (frozenRad (reserved 7 .none))).holder 3 0).state = .none ∧
      (seen (frozenRad (reserved 7 .none))).isFrozen 3 = true ∧
      ((seen plant).client 0).reservation ≠ some (3, 0) ∧
      (¬OtherIn (seen (reserved 7 .none)) 3 0 [.waiting, .upgrading, .exclusive] ∧
        ¬OtherIn (seen (reserved 7 .none)) 3 0 [.waiting, .upgrading, .shared, .exclusive] ∧
        ¬RecordNames (seen (reserved 7 .none)) 3) ∧
      (∀ st ∈ [HolderState.waiting, .upgrading, .shared, .exclusive],
        DriveItem ((reserved 7 .none).setHolder 3 1 (held st 0)) ∧
        OtherIn (seen ((reserved 7 .none).setHolder 3 1 (held st 0))) 3 0 [.waiting, .upgrading, .shared, .exclusive]) ∧
      RecordNames (seen ((reserved 7 .none).setRecord 0 ((yielding .settle true).record 0))) 3 := by
  refine ⟨?_, by decide +kernel, by decide +kernel, by decide +kernel, ⟨other_of_none (by decide +kernel),
    other_of_none (by decide +kernel), no_record (by decide +kernel)⟩, fun st hs => ⟨?_, 1, by decide, by decide, ?_⟩,
    ⟨0, _, rfl, rfl⟩⟩
  · unfold DriveItem ItemOf ItemPasses
    decide +kernel
  · revert st
    unfold DriveItem ItemOf ItemPasses
    decide +kernel
  · revert st
    decide +kernel

/-- Items of Drive in CONFIG, in HALTED, and in RUN on an UNUSED record, on a PARENT and on no record; a frame of no
client; a remainder after items and alone. -/
theorem test_witness_ItemsRefusedByState :
    (ItemOp.release ≠ .bad) ∧
      (∀ p ∈ [PartState.config, .halted, .run],
        takenClient 1 (openFrame (ctx 1) { plant with mgu.part := p }) = some 0 ∧
        (itemTaken (ctx 1) { plant with mgu.part := p }).mgu.part = p) ∧
      (((seen plant).resource 11).kind = .unused ∧ ((seen plant).resource 15).kind = .unused ∧
        ((seen plant).resource 0).kind = .parent) ∧
      takenClient 7 (openFrame (ctx 7) plant) = none ∧ (ctx 1).first = true ∧
      ({ ctx 1 with first := false } : DemandCtx).first = false ∧ takenClient 1 plant = some 0 := by decide +kernel

/-! ### Management operations -/

/-- The plant in a part state, with parts of a load of table 6, index 3, class 1 held up to number 1, or none. -/
def loading (p : PartState) (held : Option HeldParts) : State := { plant with mgu.part := p, mgu.held := held }

def partHeld : HeldParts := { table := 6, index := 3, cls := 1, next := 1, bytes := [1, 1, 0, 2] }

theorem test_witness_LoadPartsAndRefusals :
    (∀ p ∈ [PartState.config, .run, .halted], ∀ h ∈ [none, some partHeld], FromManager boss (loading p h)) ∧
      ((arrive 30 (loading .config none)).mgu.held = none ∧ (arrive 30 (loading .config (some partHeld))).mgu.held = some partHeld) ∧
      (partHeld.table = 6 ∧ partHeld.index = 3 ∧ partHeld.cls = 1 ∧ partHeld.next = 1 ∧ partHeld.next ≠ 2 ∧ (1 ≠ 0)) ∧
      (∀ x ∈ [(0, 0, 2), (12, 0, 2), (1, 0, 3), (1, 0, 2), (10, 0, 1), (4, 48, 1), (1, 30, 1), (7, 16, 1), (9, 16, 1),
          (6, 12, 2), (8, 4, 1), (5, 3, 2), (2, 1, 1), (10, 1, 2)],
        x.1 = 0 ∨ 11 < x.1 ∨ (x.2.2 ≠ 1 ∧ x.2.2 ≠ 2) ∨ (x.2.2 = 2 ∧ x.1 ∈ [1, 2, 3, 9]) ∨ (x.2.2 = 1 ∧ x.1 ∈ [10, 11]) ∨
          (x.1 = 4 ∧ 47 < x.2.1) ∨ (x.1 = 1 ∧ 29 < x.2.1) ∨ (x.1 ∈ [7, 9] ∧ 15 < x.2.1) ∨ (x.1 = 6 ∧ 11 < x.2.1) ∨
          (x.1 = 8 ∧ 3 < x.2.1) ∨ (x.1 = 5 ∧ 2 < x.2.1) ∨ (x.1 ∈ [2, 3, 10, 11] ∧ 0 < x.2.1)) ∧
      (∀ x ∈ [(1, 29), (2, 0), (3, 0), (4, 47), (5, 2), (6, 11), (7, 15), (8, 3), (9, 15)],
        1 ≤ x.1 ∧ x.1 ≤ 9 ∧ ∀ n ∈ tableShape x.1, x.2 < n.1) ∧
      (arrive 30 (loading .run none)).mgu.part ≠ .config := by
  unfold FromManager
  decide +kernel

/-- Values at the ends of each range, and beyond them; records that exist and records that do not. -/
theorem test_witness_TunableSettingsLoaded :
    FromManager boss plant ∧
      (∀ v ∈ [(-32768 : Int), 32767], Carries v) ∧
      (∀ v ∈ [(100 : Int), 2000], 100 ≤ v ∧ v ≤ 2000 ∧ v % 50 = 0) ∧
      (∀ v ∈ [(50 : Int), 2050, 101], ¬(100 ≤ v ∧ v ≤ 2000 ∧ v % 50 = 0)) ∧
      (∀ x ∈ [((20 : Int), (19 : Int)), (500, 2), (500, 100)],
        20 ≤ x.1 ∧ x.1 ≤ 500 ∧ 2 ≤ x.2 ∧ x.2 ≤ 100 ∧ x.2 < x.1) ∧
      ¬(20 ≤ (20 : Int) ∧ (20 : Int) ≤ 500 ∧ 2 ≤ (20 : Int) ∧ (20 : Int) ≤ 100 ∧ (20 : Int) < 20) ∧
      (((loadTaken boss plant).client 0).entry = some ⟨1, .release, 1, 6, 1000⟩ ∧
        ((loadTaken boss (plant.setClient 2 {})).client 2).entry = none) ∧
      ((loadTaken boss plant).channel 2 = some fan ∧ (loadTaken boss plant).channel 15 = none) ∧
      ((loadTaken boss plant).slot 2 = some { resource := 3, steps := [⟨2, 300, 20⟩], stopDelay := 10, antiCycle := 120 } ∧
        (loadTaken boss plant).slot 3 = none ∧ (1 ≤ (1 : Int) ∧ (1 : Int) ≤ [(⟨2, 300, 20⟩ : Step)].length) ∧
        ¬(1 ≤ (2 : Int) ∧ (2 : Int) ≤ [(⟨2, 300, 20⟩ : Step)].length)) := by
  unfold FromManager Carries
  decide +kernel

/-- Station 13 FAULTY in CONFIG, channel 2 FAULTED with it. -/
def fallenInConfig : State := { fallen .manual false with mgu.part := .config }

/-- CONFIG, with a record beside another of its address, and a FAULTY one whose channel it holds. -/
theorem test_witness_StructuralRecordsLoaded :
    (∀ s ∈ [loading .config none, fallenInConfig], FromManager boss s ∧ (loadTaken boss s).mgu.part = .config) ∧
      (∀ v ∈ [(-32768 : Int), 30, 32767], Carries v) ∧
      ((loadTaken boss (loading .config none)).station 4 = station 13 .actuator .online ∧
        (∃ j < 5, ((loadTaken boss (loading .config none)).station j).map (·.address) = some 13)) ∧
      ((loadTaken boss fallenInConfig).station 4 = station 13 .actuator .faulty ∧
        (∀ j < 30, j ≠ 4 → ((loadTaken boss fallenInConfig).station j).map (·.address) ≠ some 13) ∧
        (loadTaken boss fallenInConfig).channel 2 = some (fan.enterFaulted .station) ∧
        (fan.enterFaulted .station).state = .faulted ∧ (fan.enterFaulted .station).cause = some .station) ∧
      (∀ y ∈ [(⟨7, 11, 10000⟩ : Mapping), ⟨0, 0, 1⟩], (y.output ≤ 32767 ∧ y.resource ≤ 32767 ∧ y.scale ≤ 32767) ∧
        y.output ≤ 7 ∧ y.resource ≤ 11 ∧ 1 ≤ y.scale ∧ y.scale ≤ 10000) := by
  unfold FromManager Carries
  decide +kernel

/-- RAD as a whole record: PLAIN, with a binding of each mode. -/
def radRecord : Resource :=
  { kind := .plain, curve := radCurve, input := some 1, blind := some 10000, limitPoint := some 47, yieldTimeout := some 500,
    slot := some 2, bindings := [⟨2, .level [⟨0, 0⟩, ⟨10000, 1023⟩], 40⟩, ⟨15, .split 2, 100⟩] }

/-- A whole record of each kind, in a state to read it from, and the plant in CONFIG and in RUN to load it into. -/
theorem test_witness_PlantRecordsLoaded :
    (∀ p ∈ [PartState.config, .run], FromManager boss (loading p none) ∧ (loadTaken boss (loading p none)).mgu.part = p) ∧
      (Carries (-32768) ∧ Carries 10000) ∧
      (((plant.setResource 3 radRecord).resource 3).InRange ∧ (plant.resource 11).InRange) ∧
      (∃ ch, plant.channel 2 = some ch ∧ ch.InRange) ∧ (∃ sl, plant.slot 2 = some sl ∧ sl.InRange) ∧
      (((loadTaken boss plant).resource 11).kind = .unused ∧ ((loadTaken boss plant).resource 0).kind = .parent ∧
        ((loadTaken boss plant).resource 3).kind ≠ .unused ∧ ((loadTaken boss plant).resource 3).kind ≠ .parent) ∧
      ((loadTaken boss plant).resource 3).bindings = [⟨2, .level [⟨0, 0⟩, ⟨100, 300⟩, ⟨400, 1000⟩], 40⟩] ∧
      [1000, 500, 0].length = [(⟨0, 0⟩ : Breakpoint), ⟨100, 300⟩, ⟨400, 1000⟩].length := by
  refine ⟨by unfold FromManager; decide +kernel, by unfold Carries; decide, ⟨?_, ?_⟩, ⟨fan, by decide +kernel, ?_⟩,
    ⟨_, rfl, ?_⟩, by decide +kernel, by decide +kernel, by decide⟩
  · have : (plant.setResource 3 radRecord).resource 3 = radRecord := by decide +kernel
    rw [this]
    simp [Resource.InRange, Binding.InRange, CurveInRange, radRecord, radCurve]
  · have : plant.resource 11 = {} := by decide +kernel
    rw [this]
    simp [Resource.InRange]
  · simp [Channel.InRange, fan]
  · simp [Slot.InRange]

/-- R157 and R158: an unloaded slot reports STOPPED, no steps, three stopped timers and a claim sum of 0. -/
theorem test_status_of_unloaded_slot :
    (statusSlot State.reset 3).map (·.values) = [[1], [0], [1], [1], [1], [0]] := by decide +kernel

theorem test_witness_ReadoutsReportState :
    FromManager boss plant ∧ stationRecord 13 (arrive 30 plant) = some 4 ∧
      (arrive 30 plant).station 4 = station 13 .actuator .online := by
  unfold FromManager
  decide +kernel

theorem test_witness_ReadAndStatusChangeNothing : FromManager boss plant := by
  unfold FromManager
  decide +kernel

/-- The plant with the management station's record, in a part state, with channels 3, 4 and 5 HELD, HELD by the
supervisor and FAULTED. -/
def complete (p : PartState) : State :=
  { plant with
    mgu.part := p
    stm.stations := plant.stm.stations.set 5 (station 30 .manager .online)
    chu.channels := ((plant.chu.channels.set 3 (some { fan with output := 1, state := .held })).set 4
      (some { fan with output := 2, state := .held, hold := true })).set 5
      (some { fan with output := 3, state := .faulted, cause := some .status })
    ale.passTimer := .stopped }

/-- HALT mode with station 7 FAULTY. -/
def haltMode (s : State) : State :=
  { s with stm.stations := s.stm.stations.set 3 (station 7 .sensor .faulty), stm.returnMode := .halt }

/-- A table with nothing in it but the MANAGER record of station 1 passes its checks. -/
def bare : State :=
  { State.reset with
    stm.stations := (Table.all 30 none).set 0 ((station 1 .manager .online).map fun st => { st with pollTimer := .stopped }) }

/-- The tables of `bare`, but for the intercept table and the points from `p` on. -/
theorem bare_tables {s : State} {p : Nat} (h1 : s.stm.stations = bare.stm.stations) (h2 : s.mgu.manager = 1)
    (h3 : ∀ n < p, s.point n = {}) (h4 : s.din.clients = bare.din.clients) (h5 : s.cau.resources = bare.cau.resources)
    (h6 : s.chu.channels = bare.chu.channels) (h7 : s.ssu.slots = bare.ssu.slots) :
    (∀ t n, t ∉ [4, 9] → ¬TableBreaks s t n) ∧ ∀ n < p, ¬TableBreaks s 4 n := by
  have one : ∀ i st, s.station i = some st → i = 0 ∧ st.address = 1 ∧ st.role = .manager := by
    intro i st h
    rw [State.station, h1] at h
    have : ∀ i < 30, ∀ st ∈ bare.stm.stations.get i, i = 0 ∧ st.address = 1 ∧ st.role = .manager := by decide +kernel
    exact this i (station_lt (s := bare) h) st h
  have res : ∀ n, s.resource n = {} := fun n => by
    rw [State.resource, h5]
    by_cases hn : n < 12
    · exact (by decide +kernel : ∀ n < 12, bare.cau.resources.get n = {}) n hn
    · exact Table.get_beyond _ _ (by omega)
  refine ⟨fun t n ht hb => ?_, fun n hn hb => ?_⟩
  · unfold TableBreaks at hb
    split at hb
    · obtain ⟨st, h, i, hi, x, hx, -⟩ := hb
      have := (one _ _ h).1; have := (one _ _ hx).1; omega
    · obtain ⟨-, hb⟩ := hb
      refine hb ⟨0, _, (by rw [State.station, h1]; rfl : s.station 0 = _), h2.symm, rfl, by omega⟩
    · simp at ht
    · obtain ⟨e, h, -⟩ := hb
      have hc := entry_lt s h
      have : ∀ c < 3, (bare.din.clients.get c).entry = none := by decide +kernel
      rw [State.client, h4, this n hc] at h; cases h
    · rw [ResourceBreaks, res] at hb; exact hb.1 rfl
    · obtain ⟨ch, h, -⟩ := hb
      have hc := channel_lt s h
      have : ∀ c < 16, bare.chu.channels.get c = none := by decide +kernel
      rw [State.channel, h6, this n hc] at h; cases h
    · obtain ⟨sl, h, -⟩ := hb
      have hc := slot_lt s h
      have : ∀ c < 4, bare.ssu.slots.get c = none := by decide +kernel
      rw [State.slot, h7, this n hc] at h; cases h
    · simp at ht
    · exact hb
  · unfold TableBreaks PointBreaks at hb
    rw [h3 n hn] at hb
    simp at hb

theorem no_point_beyond {s : State} {n : Nat} (h : 48 ≤ n) : ¬TableBreaks s 4 n := by
  intro hb
  unfold TableBreaks PointBreaks at hb
  rw [State.point, Table.get_beyond _ _ (by omega)] at hb
  obtain hb | ⟨_, _, hb, -⟩ | ⟨_, hb⟩ := hb
  · exact absurd hb (by decide)
  · cases hb
  · cases hb

/-- Point 47 has no value in its range. -/
def badPoint : State := bare.setPoint 47 { lo := 1, hi := 0 }

/-- Intercept entry 15 has a source that is no client's station. -/
def badIntercept : State :=
  { bare with fsu.entries := bare.fsu.entries.set 15 (some { source := 1, destination := 2, mappings := [⟨0, 0, 1⟩] }) }

/-- RUN; HALT mode; and CONFIG with the last point, or the last intercept entry, the first that fails its checks. -/
theorem test_witness_StartTestsRefuse :
    (∀ s ∈ [plant, haltMode (complete .halted)], FromManager boss s) ∧
      (∀ s ∈ [badPoint, badIntercept], FromManager { boss with src := 1 } s ∧ (arrive 1 s).mgu.part = .config ∧
        (arrive 1 s).stm.returnMode ≠ .halt) ∧
      (arrive 30 plant).mgu.part = .run ∧
      ((arrive 30 (haltMode (complete .halted))).mgu.part ≠ .run ∧
        (arrive 30 (haltMode (complete .halted))).stm.returnMode = .halt ∧
        (arrive 30 (haltMode (complete .halted))).station 3 = station 7 .sensor .faulty) ∧
      (TableBreaks (arrive 1 badPoint) 4 47 ∧ (∀ n < 47, ¬TableBreaks (arrive 1 badPoint) 4 n) ∧
        ∀ u < 4, ∀ n, ¬TableBreaks (arrive 1 badPoint) u n) ∧
      (TableBreaks (arrive 1 badIntercept) 9 15 ∧ (∀ n < 15, ¬TableBreaks (arrive 1 badIntercept) 9 n) ∧
        ∀ u < 9, ∀ n, ¬TableBreaks (arrive 1 badIntercept) u n) := by
  have hp := bare_tables (s := arrive 1 badPoint) (p := 47) (by decide +kernel) (by decide +kernel) (by decide +kernel)
    (by decide +kernel) (by decide +kernel) (by decide +kernel) (by decide +kernel)
  have hi := bare_tables (s := arrive 1 badIntercept) (p := 48) (by decide +kernel) (by decide +kernel)
    (by decide +kernel) (by decide +kernel) (by decide +kernel) (by decide +kernel) (by decide +kernel)
  refine ⟨by unfold FromManager; decide +kernel, by unfold FromManager; decide +kernel, by decide +kernel,
    by decide +kernel, ⟨?_, hp.2, fun u hu n => hp.1 u n (by simp; omega)⟩, ⟨?_, ?_, fun u hu n => ?_⟩⟩
  · exact .inl (by decide +kernel)
  · refine ⟨{ source := 1, destination := 2, mappings := [⟨0, 0, 1⟩] }, by decide +kernel, .inl fun c x h => ?_⟩
    have : ∀ c < 3, ((arrive 1 badIntercept).client c).entry = none := by decide +kernel
    rw [this c (entry_lt _ h)] at h; cases h
  · rintro n hn ⟨e, h, -⟩
    have : ∀ n < 15, interceptAt (arrive 1 badIntercept) n = none := by decide +kernel
    rw [this n hn] at h; cases h
  · by_cases h4 : u = 4
    · subst h4
      by_cases hn : n < 48
      · exact hi.2 n hn
      · exact no_point_beyond (by omega)
    · exact hi.1 u n (by simp; omega)

/-- A slot with each of its timers running. -/
def busySlot : Slot :=
  { resource := 3, steps := [⟨2, 300, 20⟩], stopDelay := 10, antiCycle := 120, state := .starting 1,
    watch := .running 2000000, stopDelayTimer := .running 1000000, antiCycleTimer := .running 3000000 }

/-- HALTED, Drive SHARED on CHIL with its lease suspended, Pack YIELDING on RAD, slot 2's timers suspended. -/
def paused : State :=
  ((((complete .halted).setHolder 3 1 { state := .yielding, q := 300, cls := 2, weight := 8 }).setRecord 0
    (some (packRecord .clear true))).setHolder 1 0 { held .shared 80 with lease := .suspended 700 }).setSlot 2
    (some { busySlot with watch := .suspended 20000, stopDelayTimer := .suspended 10000 })

theorem test_witness_StartEntersRun_suspended :
    (FromManager boss paused ∧ (arrive 30 paused).stm.returnMode ≠ .halt ∧ (arrive 30 paused).mgu.part = .halted) ∧
      StandingLaw (arrive 30 paused) ∧
      (((arrive 30 paused).holder 1 0).lease = .suspended 700 ∧ ((arrive 30 paused).holder 1 0).state = .shared) ∧
      (arrive 30 paused).slot 2 =
        some { busySlot with watch := .suspended 20000, stopDelayTimer := .suspended 10000 } := by
  refine ⟨by unfold FromManager; decide +kernel, ?_, by decide +kernel, by decide +kernel⟩
  apply standing_of_one (k := 0) (v := packRecord .clear true) <;> decide +kernel

theorem test_witness_StartEntersRun :
    (FromManager boss (complete .halted) ∧ (arrive 30 (complete .halted)).stm.returnMode ≠ .halt ∧
        (arrive 30 (complete .halted)).mgu.part = .halted) ∧
      (FromManager { boss with src := 1 } bare ∧ (arrive 1 bare).stm.returnMode ≠ .halt ∧
        (arrive 1 bare).mgu.part = .config ∧ ∀ table n, ¬TableBreaks (arrive 1 bare) table n) ∧
      ((arrive 30 (complete .halted)).channel 3 = some { fan with output := 1, state := .held } ∧
        (arrive 30 (complete .halted)).channel 4 = some { fan with output := 2, state := .held, hold := true } ∧
        (arrive 30 (complete .halted)).channel 5 = some
          { fan with output := 3, state := .faulted, cause := some .status }) := by
  have hi := bare_tables (s := arrive 1 bare) (p := 48) (by decide +kernel) (by decide +kernel)
    (by decide +kernel) (by decide +kernel) (by decide +kernel) (by decide +kernel) (by decide +kernel)
  refine ⟨by unfold FromManager; decide +kernel, ⟨by unfold FromManager; decide +kernel, by decide +kernel,
    by decide +kernel, fun t n => ?_⟩, by decide +kernel⟩
  by_cases h4 : t = 4
  · subst h4
    by_cases hn : n < 48
    · exact hi.2 n hn
    · exact no_point_beyond (by omega)
  · by_cases h9 : t = 9
    · subst h9
      rintro ⟨e, h, -⟩
      have : ∀ n < 16, interceptAt (arrive 1 bare) n = none := by decide +kernel
      by_cases hn : n < 16
      · rw [this n hn] at h; cases h
      · rw [interceptAt, Table.get_beyond _ _ (by omega)] at h; cases h
    · exact hi.1 t n (by simp; omega)

theorem test_witness_RestartTakesRestartValues :
    FromManager boss (complete .run) ∧ (arrive 30 (complete .run)).station 4 = station 13 .actuator .online ∧
      stationRecord 13 (arrive 30 (complete .run)) = some 4 := by
  unfold FromManager
  decide +kernel

/-- Channel 9 unloaded, channel 16 none of the sixteen; channels ACTIVE, HELD and FAULTED, and one whose station is
FAULTY. -/
theorem test_witness_HoldAndFreeChannel :
    (∀ s ∈ [complete .run, complete .halted, fallen .manual true], FromManager boss s) ∧
      (arrive 30 (complete .run)).channel 9 = none ∧ (arrive 30 (complete .run)).channel 16 = none ∧
      (arrive 30 (complete .run)).channel 3 = some { fan with output := 1, state := .held } ∧
      ((arrive 30 (complete .run)).channel 2 = some fan ∧ fan.state = .active) ∧
      ((arrive 30 (fallen .manual true)).channel 2 = some { fan.enterFaulted .station with hold := true } ∧
        { fan.enterFaulted .station with hold := true }.state ≠ .active ∧
        stationFaulty 13 (arrive 30 (fallen .manual true)) = true) ∧
      (∀ p ∈ [PartState.run, .halted], (arrive 30 (complete p)).mgu.part = p ∧
        ((arrive 30 (complete p)).channel 5).map (·.state) = some .faulted ∧
        stationFaulty 13 (arrive 30 (complete p)) = false) := by
  unfold FromManager
  decide +kernel

/-- Slot 2 FAILED, slot 3 unloaded, slot 4 none of the four. -/
def failedSlot : Slot :=
  { resource := 3, steps := [⟨2, 300, 20⟩], stopDelay := 10, antiCycle := 120, state := .failed }

theorem test_witness_StationReturnedSequenceCleared :
    (∀ s ∈ [plant, plant.setSlot 2 (some failedSlot)], FromManager boss s) ∧
      stationRecord 12 (arrive 30 plant) = none ∧
      (stationRecord 13 (arrive 30 plant) = some 4 ∧ (arrive 30 plant).station 4 = station 13 .actuator .online) ∧
      (∀ hold, FromManager boss (fallen .manual hold) ∧ stationRecord 13 (arrive 30 (fallen .manual hold)) = some 4 ∧
        (arrive 30 (fallen .manual hold)).station 4 = station 13 .actuator .faulty ∧
        (arrive 30 (fallen .manual hold)).channel 2 = some { fan.enterFaulted .station with hold := hold }) ∧
      (arrive 30 plant).slot 3 = none ∧ (arrive 30 plant).slot 4 = none ∧
      (arrive 30 plant).slot 2 = some { failedSlot with state := .stopped } ∧
      (arrive 30 (plant.setSlot 2 (some failedSlot))).slot 2 = some failedSlot := by
  unfold FromManager
  decide +kernel

def alarmed : State := { plant with alc.alerts := [⟨4, 15⟩, ⟨2, 30⟩, ⟨8, 0⟩], alc.overflow := 3 }

/-- Alert numbers at the ends of their categories, and beyond them. -/
theorem test_witness_AlertsCountsAndLoopCleared :
    (FromManager boss alarmed ∧ FromManager boss plant) ∧
      (∀ x ∈ [(4, 15), (2, 30), (8, 0), (1, 5), (2, 1), (3, 47), (5, 3), (6, 11), (7, 2)],
        (x.1 = 1 ∧ x.2 ≤ 5) ∨ (x.1 = 2 ∧ 1 ≤ x.2 ∧ x.2 ≤ 30) ∨ (x.1 = 3 ∧ x.2 ≤ 47) ∨ (x.1 = 4 ∧ x.2 ≤ 15) ∨
          (x.1 = 5 ∧ x.2 ≤ 3) ∨ (x.1 = 6 ∧ x.2 ≤ 11) ∨ (x.1 = 7 ∧ x.2 ≤ 2) ∨ (x.1 = 8 ∧ x.2 = 0)) ∧
      (∀ x ∈ [(0, 0), (1, 6), (2, 0), (2, 31), (3, 48), (4, 16), (5, 4), (6, 12), (7, 3), (8, 1), (9, 0)],
        ¬((x.1 = 1 ∧ x.2 ≤ 5) ∨ (x.1 = 2 ∧ 1 ≤ x.2 ∧ x.2 ≤ 30) ∨ (x.1 = 3 ∧ x.2 ≤ 47) ∨ (x.1 = 4 ∧ x.2 ≤ 15) ∨
          (x.1 = 5 ∧ x.2 ≤ 3) ∨ (x.1 = 6 ∧ x.2 ≤ 11) ∨ (x.1 = 7 ∧ x.2 ≤ 2) ∨ (x.1 = 8 ∧ x.2 = 0))) ∧
      (⟨4, 15⟩ : AlertNo) ∈ (arrive 30 alarmed).alc.alerts ∧ (⟨4, 14⟩ : AlertNo) ∉ (arrive 30 alarmed).alc.alerts ∧
      (arrive 30 plant).alc.alerts = [] ∧ (arrive 30 alarmed).alc.alerts = ⟨4, 15⟩ :: [⟨2, 30⟩, ⟨8, 0⟩] := by
  unfold FromManager
  decide +kernel

def queued (l : List Probe) (s : State) : State := { s with gtb.probes := l }
def probeOf (k : ProbeKind) : Probe := { kind := k, resource := 3, client := 1, quantity := 350, seq := 9 }

theorem test_witness_ProbesQueuedOrRefused :
    FromManager boss plant ∧ FromManager boss (loading .config none) ∧
      FromManager boss (queued (List.replicate 4 (probeOf .freeze)) plant) := by
  unfold FromManager
  decide +kernel

theorem unmarked {s : State} (h : recordNames s 3 = false) :
    ¬∃ k v, s.record k = some v ∧ v.resource = 3 ∧ v.notice = true :=
  fun ⟨k, v, hk, hr, _⟩ => no_record h ⟨k, v, hk, hr⟩

/-- A head that can execute, one that a notice mark stalls, and one for which records are wanting. -/
theorem test_witness_HeadOfProbeQueueTested :
    (queued [probeOf .freeze] plant).gtb.probes = probeOf .freeze :: [] ∧
      probeReady (queued [probeOf .freeze] plant) (probeOf .freeze) = true ∧
      probeReady (queued [probeOf .evict] (yielding .settle true)) (probeOf .evict) = false ∧
      probeReady (queued [probeOf .evict] (fullRecords (with1 3 1 (held .shared 100)))) (probeOf .evict) = false ∧
      HeadLaw (queued [probeOf .freeze] (yielding .settle true)) := by
  refine ⟨rfl, by decide +kernel, by decide +kernel, by decide +kernel, fun p rest h => ?_⟩
  obtain ⟨rfl, -⟩ := List.cons.inj h
  decide +kernel

/-- Each kind at the head of the queue, with a notice mark set on its resource and without one. -/
theorem test_witness_ProbesExecute :
    (∀ k s, (queued [probeOf k] s).gtb.probes = probeOf k :: [] ∧ (probeOf k).kind = k ∧
        (probeOf k).resource < 12 ∧ (probeOf k).client < 3) ∧
      (∃ k v, (yielding .settle true).record k = some v ∧ v.resource = 3 ∧ v.notice = true) ∧
      (∀ s ∈ [plant, with1 3 1 (held .shared 100)], ¬∃ k v, s.record k = some v ∧ v.resource = 3 ∧ v.notice = true) ∧
      (∀ k ∈ [ProbeKind.evict, .evictAll],
        freeRecords (fullRecords (with1 3 1 (held .shared 100))) <
          revocationsNeeded (fullRecords (with1 3 1 (held .shared 100))) (probeOf k)) ∧
      (∀ k, revocationsNeeded (with1 3 1 (held .shared 100)) (probeOf k) ≤ freeRecords (with1 3 1 (held .shared 100))) ∧
      (((with1 3 1 (held .shared 100)).holder 3 1).state ∈ [.shared, .upgrading, .exclusive] ∧
        ((with1 3 1 (held .shared 100)).holder 3 0).state ∈ [.none, .yielding] ∧
        (waitingPack.holder 3 1).state = .waiting ∧ ((with1 3 1 (held .exclusive 9)).holder 3 1).state = .exclusive) := by
  refine ⟨fun k s => ⟨rfl, rfl, by cases k <;> decide, by cases k <;> decide⟩, ⟨0, _, rfl, rfl, rfl⟩, fun s hs => ?_,
    by decide +kernel, fun k => ?_, by decide +kernel⟩
  · simp only [List.mem_cons, List.not_mem_nil, or_false] at hs
    rcases hs with rfl | rfl <;> exact unmarked (by decide +kernel)
  · cases k <;> decide +kernel

/-! ### Timers and passes -/

theorem stopped_runs_not (d : Nat) : Timer.stopped ≠ .running d := fun h => Timer.noConfusion h

theorem test_witness_StaleTimerEndsStanding :
    ∀ d, ((plant.point 1).staleTimer = .running 100000 ∧ 1 < 48) ∧ ((plant.point 47).staleTimer ≠ .running d ∧ 47 < 48) :=
  fun d => ⟨⟨rfl, by decide⟩, stopped_runs_not d, by decide⟩

/-- Pack's holder on RAD with a lease, under RELEASE and, as the plant has it, under FALLBACK. -/
def leased (st : HolderState) (policy : LapsePolicy) : State :=
  (with1 3 1 (held st 100)).setClient 1 { entry := some ⟨2, policy, 1, 3, 1000⟩, lapseAlert := true }

theorem test_witness_LeaseExpiryLapses :
    (∀ st ∈ [HolderState.waiting, .shared, .upgrading, .exclusive], ∀ p ∈ [LapsePolicy.release, .fallback],
      3 < 12 ∧ 1 < 3 ∧ ((leased st p).client 1).entry = some ⟨2, p, 1, 3, 1000⟩ ∧
        ((leased st p).holder 3 1).lease = .running 100000 ∧ ((leased st p).holder 3 1).lapsed = false ∧
        ((leased st p).holder 3 1).state = st) ∧
      ∀ d, (plant.holder 3 1).lease ≠ .running d :=
  ⟨by decide +kernel, stopped_runs_not⟩

theorem test_witness_YieldTimerClearsNotice :
    (∀ ramp ∈ [RampMark.pass, .settle, .clear], (yielding ramp true).record 0 = some (packRecord ramp true) ∧
      (packRecord ramp true).resource < 12 ∧ (packRecord ramp true).client < 3 ∧
      (packRecord ramp true).timer = .running 500000 ∧ (packRecord ramp true).notice = true) ∧
      StandingLaw (yielding .clear true) ∧ ∀ d, (packRecord .settle false).timer ≠ .running d :=
  ⟨by decide +kernel, test_standing_law_of_yielding .clear true, stopped_runs_not⟩

/-- RAD used, another record UNUSED, and a state of the law of R63. -/
theorem test_witness_PassStartLatches :
    (loading .halted none).mgu.part ≠ .run ∧ (∀ d, (complete .run).ale.passTimer ≠ .running d) ∧
      (plant.mgu.part = .run ∧ plant.ale.passTimer = .running 25000) ∧
      ((plant.resource 3).kind ≠ .unused ∧ (plant.resource 11).kind = .unused) ∧
      ((yielding .clear true).mgu.part = .run ∧ (yielding .clear true).ale.passTimer = .running 25000 ∧
        StandingLaw (yielding .clear true)) :=
  ⟨by decide +kernel, stopped_runs_not, by decide +kernel, by decide +kernel, by decide +kernel, by decide +kernel,
    test_standing_law_of_yielding .clear true⟩

/-- Slot 2 in a state, with its timers stopped or running. -/
def slotIn (st : SlotState) (stopDelay antiCycle : Timer) (delay : Nat) : Slot :=
  { resource := 3, steps := [⟨2, 300, 20⟩], stopDelay := delay, antiCycle := 120, state := st,
    stopDelayTimer := stopDelay, antiCycleTimer := antiCycle }

/-- RUN with the pass timer running; slot 2 in every state; and the step whose channel is not Settled. -/
theorem test_witness_SlotsActAtPassStart :
    (plant.mgu.part = .run ∧ plant.ale.passTimer = .running 25000 ∧ (slotIn .stopped .stopped .stopped 10).resource < 12) ∧
      (∀ st a b n, (plant.setSlot 2 (some (slotIn st a b n))).slot 2 = some (slotIn st a b n)) ∧
      ((slotIn .stopped .stopped (.running 5) 10).antiCycleTimer.isRunning = true ∧
        (slotIn .stopped .stopped .stopped 10).antiCycleTimer.isRunning = false) ∧
      (∃ i, (slotIn (.starting 1) .stopped .stopped 0).state = .starting i) ∧
      (slotIn .running (.running 7) .stopped 10).stopDelayTimer ≠ .stopped ∧
      ((slotIn .running .stopped .stopped 0).stopDelayTimer = .stopped ∧ (slotIn .running .stopped .stopped 0).stopDelay = 0) ∧
      (∃ i, (slotIn (.stopping 1) .stopped .stopped 10).state = .stopping i) ∧
      settled (refreshMinimum 2 (plant.setSlot 2 (some
        { slotIn .stopped .stopped .stopped 10 with
          claimSum := 1, state := .starting 1, watch := .running (plant.now + 100 * (1000 * 20)) }))) 2 = false ∧
      plant.channel 2 = some fan := by
  refine ⟨by decide +kernel, fun _ _ _ _ => rfl, by decide, ⟨1, rfl⟩, by decide, by decide, ⟨1, rfl⟩,
    by decide +kernel, by decide +kernel⟩

theorem test_witness_CapacityEvaluated : ∀ b ∈ comp.bindings, b.loss ≤ 100 := by decide

/-- Drive SHARED on RAD beside Pack YIELDING there, in a pass. -/
def inPass : State := after .passStart ((yielding .pass false).setHolder 3 0 (held .shared 120))

/-- What the pass of `inPass` latched: RAD with the one claim. -/
def inPassLatched : Table 12 LatchedRecord := (inPass.ale.pass).getD (Table.all 12 {})

theorem grantLaw_of_checks {s : State}
    (h1 : ∀ r < 12, ∀ c < 3, (s.holder r c).state.leaves = true → (s.holder r c).g = 0)
    (h2 : ∀ t ∈ s.ale.pass, ∀ r < 12, ∀ c < 3, ∀ x ∈ (t.get r).claim c, x.departed = false →
      (s.holder r c).state.leaves = false) : GrantLaw s := by
  refine ⟨fun r c h => ?_, fun t ht r c x hx hd => ?_⟩
  · by_cases hb : r < 12 ∧ c < 3
    · exact h1 r hb.1 c hb.2 h
    · rw [holder_beyond s (by omega)]
  · by_cases hb : r < 12 ∧ c < 3
    · exact h2 t ht r hb.1 c hb.2 x hx hd
    · exfalso
      by_cases hr : r < 12
      · match c, hb with
        | 0, hb | 1, hb | 2, hb => omega
        | c + 3, _ => cases hx
      · rw [Table.get_beyond _ _ (by omega)] at hx
        match c with
        | 0 | 1 | 2 => cases hx
        | c + 3 => cases hx

theorem test_witness_PassCompletionWritesGrants :
    plant.ale.pass = none ∧ inPass.ale.pass = some inPassLatched ∧ GrantLaw inPass ∧ StandingLaw inPass ∧
      ((inPassLatched.get 3).claim 0).map (·.departed) = some false ∧
      ((inPassLatched.get 3).claim 2 = none ∧ (inPass.holder 3 2).g = 0) ∧ (inPassLatched.get 11).kind = .unused := by
  refine ⟨rfl, by decide +kernel, grantLaw_of_checks (by decide +kernel) (by decide +kernel), ?_, by decide +kernel,
    by decide +kernel, by decide +kernel⟩
  apply standing_of_one (k := 0) (v := packRecord .pass false) <;> decide +kernel

/-- A completion over a revocation record with its ramp mark in PASS, the bound channel FAULTED or not at rest, and no slot
in a step. -/
def passing (seen notice rest : Bool) : State :=
  ((if rest then faulted 2 inPass else inPass).setSlot 2 (some failedSlot)).setRecord 0
    (some { packRecord .pass notice with passSeen := seen })

theorem test_witness_PassCompletionWritesGrants_ramp : ∀ seen notice rest,
    (passing seen notice rest).ale.pass = some inPassLatched ∧ GrantLaw (passing seen notice rest) ∧
      StandingLaw (passing seen notice rest) ∧
      (passing seen notice rest).record 0 = some { packRecord .pass notice with passSeen := seen } ∧
      ((passing seen notice rest).resource 3).bindings.all (fun b =>
        settled (chuTakeResults inPassLatched (computePass inPassLatched) (passing seen notice rest)) b.channel ||
        lost (chuTakeResults inPassLatched (computePass inPassLatched) (passing seen notice rest)) b.channel) = rest ∧
      ∀ j < 4, ∀ sl ∈ (passing seen notice rest).slot j, sl.state ∈ [.failed, .stopped] := by
  intro seen notice rest
  refine ⟨by cases rest <;> rfl, grantLaw_of_checks ?_ ?_, ?_, by cases rest <;> rfl, ?_, ?_⟩
  case refine_3 =>
    apply standing_of_one (k := 0) (v := { packRecord .pass notice with passSeen := seen }) <;>
      cases seen <;> cases notice <;> cases rest <;> decide +kernel
  all_goals cases seen <;> cases notice <;> cases rest <;> decide +kernel

/-- Drive UPGRADING on RAD in a pass whose completion frees the one record there. -/
def upgradingInPass : State :=
  { (passing true false true).setHolder 3 0 (held .upgrading 120) with din.prf := [⟨0, 3, .exclusive⟩] }

theorem test_witness_PassCompletionWritesGrants_prf :
    upgradingInPass.ale.pass = some inPassLatched ∧ GrantLaw upgradingInPass ∧ StandingLaw upgradingInPass ∧
      (⟨0, 3, .exclusive⟩ : PrfEntry) ∈ upgradingInPass.din.prf ∧ RecordNames upgradingInPass 3 ∧
      (after .passCompletion upgradingInPass).record 0 = none := by
  refine ⟨rfl, grantLaw_of_checks (by decide +kernel) (by decide +kernel), ?_, by decide +kernel, ⟨0, _, rfl, rfl⟩,
    by decide +kernel⟩
  apply standing_of_record (k := 0) (v := packRecord .pass false) <;> decide +kernel

theorem test_witness_ChannelTimersAct :
    ((complete .run).channel 3 = some { fan with output := 1, state := .held } ∧ ChannelState.held ≠ .active) ∧
      (plant.channel 2 = some fan ∧ fan.state = .active ∧ fan.rampTimer = .running 4000 ∧ fan.handshake = .clear ∧
        fan.current ≠ some 200 ∧ fan.refreshTimer = .running 100000 ∧ fan.current = some 0) ∧
      (∀ k ∈ [1, 2], (awaiting (.awaiting 4 200 k) (some 200) .active).channel 2 = some
        { fan with handshake := .awaiting 4 200 k, current := some 200, ackTimer := .running 3000 }) ∧
      (Handshake.awaiting 4 200 2 ≠ .clear ∧ 1 < 2 ∧ 2 ≤ 2 ∧ 2 < 16) := by decide +kernel

/-- Channel 2 with m 200 and a target of 100, at 250 and at 0. -/
theorem test_witness_TargetDerived :
    (∀ s ∈ [plant], splitOf s 2 = none ∧ max (levelTarget s 2) fan.seqMin = 0) ∧
      (0 < max (levelTarget plant 2) { fan with seqMin := 100 }.seqMin ∧
        max (levelTarget plant 2) { fan with seqMin := 100 }.seqMin < fan.minRun ∧ fan.current = some 0) ∧
      fan.minRun ≤ max (levelTarget plant 2) { fan with seqMin := 200 }.seqMin := by decide +kernel

theorem test_witness_SlotTimersAct :
    ((plant.setSlot 2 (some busySlot)).slot 2 = some busySlot ∧ busySlot.watch = .running 2000000 ∧
        busySlot.stopDelayTimer = .running 1000000 ∧ busySlot.antiCycleTimer = .running 3000000 ∧ 2 < 4) ∧
      (busySlot.steps.take 1 = [⟨2, 300, 20⟩] ∧ plant.channel 2 = some fan ∧ ∀ j < 4, j ≠ 2 → plant.slot j = none) ∧
      (plant.slot 2 = some { failedSlot with state := .stopped } ∧
        ∀ d, failedSlot.watch ≠ .running d ∧ failedSlot.stopDelayTimer ≠ .running d ∧ failedSlot.antiCycleTimer ≠ .running d) :=
  ⟨by decide +kernel, by decide +kernel, by decide +kernel,
    fun d => ⟨stopped_runs_not d, stopped_runs_not d, stopped_runs_not d⟩⟩

/-- The plant, or one with channel 2 FAULTED, with slot 2 of one or of two steps in a state, its stop delay running. -/
def delayed (lost : Bool) (more : List Step) (st : SlotState) : State :=
  (if lost then faulted 2 plant else plant).setSlot 2
    (some { busySlot with steps := ⟨2, 300, 20⟩ :: more, state := st, watch := .stopped })

/-- The cases of `StopBegins`: RUNNING with the last step's channel Settled and not, the first step of a start, and a
later one whose abort and entry leave nothing Settled. -/
theorem test_witness_StopBegins :
    (∀ lost, settled (refreshMinimum 2 ((delayed lost [] .running).setSlot 2
        (some { busySlot with state := .stopping 1, watch := .running (plant.now + 100 * (1000 * 20)),
                              stopDelayTimer := .stopped }))) 2 = !lost) ∧
      ((delayed false [] (.starting 1)).slot 2 = some { busySlot with watch := .stopped } ∧ 1 ≤ 1) ∧
      (settled (refreshMinimum 3 (delayed true [⟨3, 300, 20⟩] (.stopping 1))) 3 = false ∧
        settled (refreshMinimum 2 (delayed true [⟨3, 300, 20⟩] (.stopping 1))) 2 = false) ∧
      (∀ j < 4, j ≠ 2 → (delayed false [] .running).slot j = none) := by decide +kernel

/-- Station 7, the source of point 1, and station 13, that of channel 2, polled `n` times. -/
def polling (n limit : Nat) : State :=
  { plant with
    stm.stations := (plant.stm.stations.set 3 (station 7 .sensor (.polling n))).set 4
      (station 13 .actuator (.polling n))
    stm.retryLimit := limit }

/-- Pack, FALLBACK, SHARED on CHIL and YIELDING on RAD; Drive, RELEASE, SHARED on CHIL. -/
def clientsHold (ramp : RampMark) : State :=
  ((yielding ramp true).setHolder 1 1 (held .shared 100)).setHolder 1 0 (held .shared 80)

/-- HALT mode, slot 2's timers running. -/
def halting : State :=
  { (clientsHold .clear).setSlot 2 (some busySlot) with stm.returnMode := .halt, stm.retryLimit := 0 }

theorem test_witness_StationTimersAct :
    (plant.station 4 = station 13 .actuator .online ∧ StationState.online ∈ [.absent, .online] ∧ 0 < plant.stm.retryLimit ∧
        (polling 0 0).stm.retryLimit = 0 ∧ 4 < 30) ∧
      (StandingLaw halting ∧ halting.stm.returnMode = .halt ∧ halting.mgu.part = .run ∧ halting.stm.retryLimit = 0 ∧
        halting.station 4 = station 13 .actuator .online ∧ halting.slot 2 = some busySlot ∧
        ((halting.client 0).entry = some driveEntry ∧ driveEntry.station ≠ 13) ∧ (halting.holder 1 0).state = .shared ∧
        (halting.holder 1 0).lease = .running 100000) ∧
      (∀ n ∈ [3, 4], (polling n 5).station 4 = station 13 .actuator (.polling n) ∧ (polling n 5).stm.retryLimit = 5) ∧
      (3 + 1 < 5 ∧ 5 ≤ 4 + 1) ∧
      ((plant.point 1).source = some (7, 2) ∧ plant.channel 2 = some fan ∧ fan.station = 13 ∧ plant.mgu.part = .run) ∧
      (∀ d, ({ address := 13, role := .actuator, silenceLimit := 500, state := .online, silenceTimer := .stopped,
               pollTimer := .stopped, retryCount := 0, heard := false } : Station).silenceTimer ≠ .running d) ∧
      ∀ ramp ∈ [RampMark.pass, .settle, .clear], StandingLaw (clientsHold ramp) ∧
        (clientsHold ramp).count .leaseLapses ≤ 65535 ∧
        (∀ c ∈ [0, 1], ∃ e, ((clientsHold ramp).client c).entry = some e ∧
          (clientsHold ramp).station c = station e.station .client .online ∧
          e.policy = (if c = 0 then .release else .fallback) ∧
          ((clientsHold ramp).holder 1 c).state = .shared ∧ ((clientsHold ramp).holder 1 c).lapsed = false) ∧
        (clientsHold ramp).record 0 = some (packRecord ramp true) ∧ (packRecord ramp true).client = 1 ∧
        (packRecord ramp true).ramp = ramp := by
  refine ⟨by decide +kernel, ⟨?_, by decide +kernel⟩, by decide +kernel, by decide, by decide +kernel, stopped_runs_not,
    fun ramp hr => ⟨?_, by revert ramp; decide +kernel, fun c hc => ?_, rfl, rfl, rfl⟩⟩
  · apply standing_of_one (k := 0) (v := packRecord .clear true) <;> decide +kernel
  · apply standing_of_one (k := 0) (v := packRecord ramp true)
    · revert ramp; decide +kernel
    · revert ramp; decide +kernel
    · exact (by decide : 3 < 12)
    · exact (by decide : 1 < 3)
    · revert ramp; decide +kernel
    · rfl
  · simp only [List.mem_cons, List.not_mem_nil, or_false] at hc
    rcases hc with rfl | rfl <;> exact ⟨_, rfl, by revert ramp; decide +kernel⟩

/-- Lists of three and of eight entries. -/
theorem test_witness_AlertRaiseRule :
    (⟨AlertCategory.channel.number, 15⟩ : AlertNo) ∈ alarmed.alc.alerts ∧
      ((⟨AlertCategory.channel.number, 14⟩ : AlertNo) ∉ alarmed.alc.alerts ∧ alarmed.alc.alerts.length < 8 ∧
        seven.length < 8) ∧
      ((⟨AlertCategory.lease.number, 0⟩ : AlertNo) ∉ eight ∧ 8 ≤ eight.length) := by decide +kernel

/-! ### The pass as a whole -/

theorem claims_of_checks {l : Table 12 LatchedRecord} {P : Claim → Prop}
    (h : ∀ r < 12, ∀ c < 3, ∀ x ∈ (l.get r).claim c, P x) : ∀ r c x, (l.get r).claim c = some x → P x := by
  intro r c x hx
  by_cases hr : r < 12
  · match c with
    | 0 => exact h r hr 0 (by decide) x hx
    | 1 => exact h r hr 1 (by decide) x hx
    | 2 => exact h r hr 2 (by decide) x hx
    | c + 3 => cases hx
  · rw [Table.get_beyond _ _ (by omega)] at hx
    match c with
    | 0 | 1 | 2 => cases hx
    | c + 3 => cases hx

theorem test_witness_CompletionWithinCapacity : ∀ r c x, (workedPass.get r).claim c = some x → x.cls ≤ 3 :=
  claims_of_checks (P := fun x => x.cls ≤ 3) (by decide +kernel)

theorem test_witness_GrantsBetweenFloorAndRequest : ∀ r c x, (workedPass.get r).claim c = some x → x.f ≤ x.q :=
  claims_of_checks (P := fun x => x.f ≤ x.q) (by decide +kernel)

theorem claim_of_checks {l : LatchedRecord} {P : Claim → Prop} (h : ∀ c < 3, ∀ x ∈ l.claim c, P x) :
    ∀ c x, l.claim c = some x → P x
  | 0, x, hx => h 0 (by decide) x hx
  | 1, x, hx => h 1 (by decide) x hx
  | 2, x, hx => h 2 (by decide) x hx

/-- A PLAIN record with one EXCLUSIVE claim of 100 and a floor of 60. -/
def alone (capacity : Nat) : LatchedRecord :=
  { kind := .plain, capacity := capacity
    pack := some { level := .exclusive, q := 100, f := 60, cls := 1, weight := 8, departed := false } }

/-- A PLAIN record with three SHARED claims of class 1, the last of quantity 0. -/
def three (capacity : Nat) : LatchedRecord :=
  { kind := .plain, capacity := capacity, drive := share 1 200 8 0, pack := share 1 200 8 80, cab := share 1 0 1 0 }

/-- An EXCLUSIVE claim at its floor and below it; SHARED claims that fit, that are shared and kept, and that lose one. -/
theorem test_witness_ResourceDivided :
    (∀ n ∈ [0, 59, 60, 100], (alone n).kind = .plain ∧ (alone n).claim 0 = none ∧
        (∀ c x, (alone n).claim c = some x → x.f ≤ x.q ∧ x.cls ≤ 3 ∧ 1 ≤ x.weight) ∧
        ∃ x, (alone n).claim 1 = some x ∧ x.level = .exclusive ∧ ∀ c', c' ≠ 1 → (alone n).claim c' = none) ∧
      (∀ n ∈ [120, 200, 400], (three n).kind = .plain ∧
        (∀ c x, (three n).claim c = some x → x.f ≤ x.q ∧ x.cls ≤ 3 ∧ 1 ≤ x.weight) ∧
        (∀ c x, (three n).claim c = some x → x.level = .shared) ∧ ((three n).claim 2).map (·.q) = some 0) ∧
      (200 < requestSum (classClaims (three 200) 1) ∧
        ∀ y ∈ classClaims (three 200) 1, y.2.f ≤ shareOf (divideRecord (three 200)).shares y.1) ∧
      ((workedPass.get 3).kind = .plain ∧ (workedPass.get 1).kind = .child) := by
  refine ⟨fun n hn => ⟨rfl, rfl, claim_of_checks ?_, _, rfl, rfl, fun c' h => ?_⟩,
    fun n hn => ⟨rfl, claim_of_checks ?_, claim_of_checks ?_, rfl⟩, by decide +kernel, by decide +kernel⟩
  · revert n; decide
  · match c' with
    | 0 | 2 | _ + 3 => rfl
    | 1 => exact absurd rfl h
  all_goals revert n; decide

/-- COMP in the worked pass: class 2 is scaled and class 0 keeps its grant. -/
theorem test_witness_ParentCutScalesLeastUrgent :
    (∀ r c x, (workedPass.get r).claim c = some x → x.cls ≤ 3) ∧ (workedPass.get 0).kind = .parent ∧
      (workedPass.get 0).capacity < workedOutput.demandDraw.get 0 ∧
      (∀ r ∈ [1, 2], (workedPass.get r).kind = .child ∧ (workedPass.get r).parent = some 0) ∧
      ((workedPass.get 2).claim 2).map (·.cls) = some 2 ∧ ((workedPass.get 1).claim 1).map (·.cls) = some 0 :=
  ⟨claims_of_checks (P := fun x => x.cls ≤ 3) (by decide +kernel), by decide +kernel, by decide +kernel,
    by decide +kernel, by decide +kernel, by decide +kernel⟩

/-! ### Laws of every state -/

theorem test_witness_EveryStepKeepsBounds :
    (AlcLaw alarmed ∧ QueueLaw (fullPrf alarmed)) ∧ (step alarmed = .next { alarmed with now := 1 }) := by
  refine ⟨⟨⟨?_, ?_, ?_, ?_⟩, ?_, ?_⟩, ?_⟩ <;> first | rfl | decide +kernel

/-- A HALTED part with HELD and FAULTED channels. -/
theorem test_witness_EveryStepKeepsQuiet :
    QuietLaw (complete .halted |>.setChannel 2 none) ∧ (complete .halted).mgu.part ≠ .run := by
  refine ⟨fun _ => ⟨rfl, rfl, fun n ch h => ?_⟩, by decide⟩
  have : ∀ m < 16, ∀ x ∈ (complete .halted |>.setChannel 2 none).channel m, x.state ≠ .active := by decide +kernel
  exact this n (channel_lt _ h) ch h

/-- Pack acknowledges, and the FREEZE that its notice mark stalled executes. -/
theorem test_witness_EveryStepKeepsHeadLaw :
    HeadLaw { queued [probeOf .freeze] (yielding .settle true) with pending := [.yieldDone (ctx 2) (item 3)] } ∧
      (∃ t, step { queued [probeOf .freeze] (yielding .settle true) with pending := [.yieldDone (ctx 2) (item 3)] } =
        .next t) ∧
      (after (.yieldDone (ctx 2) (item 3)) (queued [probeOf .freeze] (yielding .settle true))).isFrozen 3 = true := by
  refine ⟨fun p rest h => ?_, ⟨_, rfl⟩, by decide +kernel⟩
  obtain ⟨rfl, -⟩ := List.cons.inj h
  decide +kernel

/-- A completion in `inPass`, which holds a claim that has not departed. -/
theorem test_witness_EveryStepKeepsGrantLaw :
    GrantLaw { inPass with pending := [.passCompletion] } ∧
      ∃ t, step { inPass with pending := [.passCompletion] } = .next t :=
  ⟨grantLaw_of_checks (by decide +kernel) (by decide +kernel), _, rfl⟩

/-- Pack acknowledges its revocation. -/
theorem test_witness_EveryStepKeepsStandingLaw :
    StandingLaw { yielding .clear true with pending := [.yieldDone (ctx 2) (item 3)] } ∧
      ∃ t, step { yielding .clear true with pending := [.yieldDone (ctx 2) (item 3)] } = .next t := by
  refine ⟨?_, _, rfl⟩
  apply standing_of_one (k := 0) (v := packRecord .clear true) <;> decide +kernel

/-! ### Bytes -/

theorem test_witness_FrameBytesReadOrDropped :
    (31 ≤ 31 ∧ 30 ≤ 31 ∧ 15 ≤ 15 ∧ 15 ≤ 15 ∧ (List.replicate 56 (0 : Byte)).length ≤ 56) ∧
      ∀ it ∈ [(⟨255, [-32768, 32767]⟩ : FieldItem), ⟨1, []⟩],
        it.field ≤ 255 ∧ it.values.length ≤ 255 ∧ ∀ v ∈ it.values, Carries v := by
  unfold Carries
  decide

theorem test_witness_WholeFrameIsItsCommands :
    ∀ cls ∈ [2, 6], (1 ≠ 0 ∧ 0 = 0 ∧ (cls = 2 ∨ cls = 6)) ∧
      readFrame (frameBytes 0 1 cls 3 [0x02, 0x18, 0x01, 0x2C, 0x00]) =
        some { dest := 0, src := 1, cls := cls, seq := 3, payload := [0x02, 0x18, 0x01, 0x2C, 0x00] } := by decide +kernel

end Sys2Proof.Tests
end

