-- ==== Sys2Proof/Proofs/Capacity.lean ====
section
/-! SUPPORT. The capacity of a resource, stage by stage as the numbers it comes to (R13 to R19). -/

namespace Sys2Proof.Machine

/-! ## The worst lost channel (R15) -/

/-- One lost channel compared with the worst so far, as `worstLoss` compares them. -/
def worseLoss (best : Option (Nat × Nat)) (b : Binding) : Option (Nat × Nat) :=
  match best with
  | none => some (b.channel, b.loss)
  | some (n, d) => if b.loss < d ∨ (b.loss = d ∧ b.channel < n) then some (b.channel, b.loss) else some (n, d)

theorem worstLoss_eq (s : State) (l : List Binding) :
    worstLoss s l = (l.filter fun b => lost s b.channel).foldl worseLoss none := rfl

/-- A base after the loss derate found. -/
def deratedBy (base : Nat) : Option (Nat × Nat) → Nat
  | none => base
  | some (_, d) => base * d / 100

theorem availabilityOf_snd (s : State) (x : Resource) (base : Nat) :
    (availabilityOf s x base).2 = deratedBy base (worstLoss s x.bindings) := by
  unfold availabilityOf deratedBy
  cases worstLoss s x.bindings <;> rfl

/-- Derating is monotone, so that the worse of two losses gives the smaller capacity. -/
theorem deratedBy_worseLoss (base : Nat) (best : Option (Nat × Nat)) (b : Binding) (hb : b.loss ≤ 100) :
    deratedBy base (worseLoss best b) = min (deratedBy base best) (base * b.loss / 100) := by
  have mono : ∀ {d e : Nat}, d ≤ e → base * d / 100 ≤ base * e / 100 :=
    fun h => Nat.div_le_div_right (Nat.mul_le_mul_left base h)
  cases best with
  | none =>
    have := mono hb
    simp only [worseLoss, deratedBy]
    omega
  | some x =>
    obtain ⟨n, d⟩ := x
    simp only [worseLoss]
    split
    · have := mono (d := b.loss) (e := d) (by omega)
      simp only [deratedBy]; omega
    · have := mono (d := d) (e := b.loss) (by omega)
      simp only [deratedBy]; omega

theorem deratedBy_foldl (base : Nat) {l : List Binding} (hl : ∀ b ∈ l, b.loss ≤ 100) (best : Option (Nat × Nat)) :
    deratedBy base (l.foldl worseLoss best) =
      l.foldl (fun a b => min a (base * b.loss / 100)) (deratedBy base best) := by
  induction l generalizing best with
  | nil => rfl
  | cons b l ih =>
    rw [List.foldl_cons, List.foldl_cons, ih (fun x hx => hl x (by simp [hx])),
      deratedBy_worseLoss base best b (hl b (by simp))]

/-! ## The stages that lower a capacity (R16 to R18) -/

theorem capStage_snd (name : BoundBy) (limit : Nat) (x : BoundBy × Nat) :
    (capStage name limit x).2 = min x.2 limit := by
  unfold capStage
  split
  · exact (Nat.min_eq_right (by omega)).symm
  · exact (Nat.min_eq_left (by omega)).symm

/-- A capacity held to a limit point: at most its usable value held to 0 to 10000, and 0 without one (R16). -/
def limitedTo (s : State) (p : Option Nat) (n : Nat) : Nat :=
  match p with
  | none => n
  | some p => match usableValue s p with
    | some v => min n (max 0 (min v 10000)).toNat
    | none => 0

/-- A capacity held to a probe cap (R17). -/
def cappedTo (cap : Option Nat) (n : Nat) : Nat :=
  match cap with
  | none => n
  | some c => min n c

theorem limitStage_snd (s : State) (p : Option Nat) (x : BoundBy × Nat) :
    (limitStage s p x).2 = limitedTo s p x.2 := by
  cases p with
  | none => rfl
  | some p =>
    simp only [limitStage, capStage_snd, limitOf, limitedTo]
    cases usableValue s p <;> simp

theorem probeCapStage_snd (cap : Option Nat) (x : BoundBy × Nat) :
    (probeCapStage cap x).2 = cappedTo cap x.2 := by
  cases cap with
  | none => rfl
  | some c => exact capStage_snd _ _ _

theorem gateStage_snd (s : State) (slot : Option Nat) (x : BoundBy × Nat) :
    (gateStage s slot x).2 = if gateOpen s slot then x.2 else 0 := by
  unfold gateStage
  split
  · rfl
  · simp [capStage_snd]

/-- The base of a record (R13). -/
theorem baseOf_snd (s : State) (x : Resource) :
    (baseOf s x).2 = match x.input.bind (usableValue s) with
      | some v => interpolate x.curve v
      | none => x.blind.getD 0 := by
  unfold baseOf
  cases x.input.bind (usableValue s) <;> rfl

/-- Settles O43: each stage of the evaluation taken as the number it comes to. -/
theorem capacityEvaluated : Obligations.CapacityEvaluated := by
  intro s x base availability limited capped hloss
  have hbase : (baseOf s x).2 = base := baseOf_snd s x
  have havail : (availabilityOf s x (baseOf s x).2).2 = availability := by
    rw [hbase, availabilityOf_snd, worstLoss_eq]
    exact deratedBy_foldl base (fun b hb => hloss b (List.mem_of_mem_filter hb)) none
  refine ⟨hbase, havail, ?_⟩
  have hderated : ∀ y : BoundBy × Nat, y.2 = availability →
      (gateStage s x.slot (probeCapStage x.probeCap (limitStage s x.limitPoint y))).2 =
        if gateOpen s x.slot then capped else 0 := by
    intro y hy
    rw [gateStage_snd, probeCapStage_snd, limitStage_snd, hy]
    rfl
  simp only [evaluate]
  rw [hderated]
  split <;> exact havail

end Sys2Proof.Machine
end


-- ==== Sys2Proof/Proofs/Restart.lean ====
section
/-! SUPPORT. The values of a hard reset and of a RESTART, block by block (R202). -/

namespace Sys2Proof.Machine

/-! ## Tables whose records are all the same -/

/-- A table of default records reads as the default at every number. -/
theorem Table.get_all_default {n : Nat} {α : Type} [Inhabited α] (i : Nat) :
    (Table.all n (default : α)).get i = default := by
  by_cases h : i < n
  · exact Table.get_all _ h
  · exact Table.get_beyond _ i (Nat.le_of_not_lt h)

theorem reset_holder (s : State) (h : s.gtb = State.reset.gtb) (r c : Nat) : s.holder r c = {} := by
  by_cases hr : r < 12
  · simp only [State.holder, h, State.reset, Table.get_all _ hr]
    match c with
    | 0 | 1 | 2 | _ + 3 => rfl
  · exact holder_beyond s (.inl (Nat.le_of_not_lt hr))

/-- The Grant Table after a reset (R90). -/
theorem reset_gtb {s : State} (h : s.gtb = State.reset.gtb) :
    (∀ r, s.generation r = 0) ∧ (∀ r, s.isFrozen r = false) ∧ (∀ k, s.record k = none) ∧ s.gtb.probes = [] := by
  simp only [State.generation, State.isFrozen, State.record, h]
  exact ⟨fun r => Table.get_all_default (α := Nat) r, fun r => Table.get_all_default (α := Bool) r,
    fun k => Table.get_all_default (α := Option Revocation) k, rfl⟩

/-- Settles O2: the state after a hard reset is `State.reset` but for the queue, and each table in it is one record
repeated. -/
theorem hardResetTakesResetValues : Obligations.HardResetTakesResetValues := by
  intro s
  obtain ⟨hgen, hfrozen, hrec, hprobes⟩ := reset_gtb (s := { State.reset with pending := s.pending }) rfl
  have hmarker : State.reset.lpu.markerTimer = .running (State.reset.now + 100 * 100) := by
    simp [State.reset]
  refine ⟨{ State.reset with pending := s.pending }, rfl, rfl, ⟨rfl, rfl, rfl⟩,
    ⟨rfl, rfl, rfl, rfl, rfl, rfl, rfl, rfl, rfl, hmarker⟩, ⟨rfl, rfl, rfl, rfl, rfl, rfl⟩,
    fun n => Table.get_all_default (α := Option Intercept) n,
    ⟨fun i => Table.get_all_default (α := Option Station) i, rfl, rfl, rfl⟩,
    fun p hp => Table.get_all _ hp, fun r hr => ⟨Table.get_all _ hr, Table.get_all _ hr⟩,
    ⟨fun c hc => Table.get_all _ hc, rfl⟩,
    ⟨fun r _ c _ => reset_holder _ rfl r c, hgen, hfrozen, hrec, hprobes⟩,
    ⟨rfl, rfl, rfl, fun r hr => Table.get_all _ hr⟩,
    ⟨fun n => Table.get_all_default (α := Option Channel) n, fun r hr => Table.get_all _ hr⟩,
    fun k => Table.get_all_default (α := Option Slot) k,
    ⟨rfl, rfl, fun c => Table.get_all _ c.number_lt⟩⟩

/-! ## RESTART (R202) -/

/-- The station table after RESTART (R178, R188). -/
theorem stmRestart_station (s : State) {i : Nat} (hi : i < 30) :
    (stmRestart s).station i = (s.station i).map fun st =>
      { st with state := .absent, pollTimer := .stopped, heard := false,
                silenceTimer :=
                  if stationRecord st.address s = some i then Timer.start s.now st.silenceLimit else .stopped } :=
  Table.get_build _ hi

theorem afterRestart_antiCycle (now antiCycle : Nat) :
    Timer.startUnlessZero now (1000 * antiCycle) =
      if antiCycle = 0 then .stopped else .running (now + 100 * (1000 * antiCycle)) := by
  rw [startUnlessZero_eq]
  by_cases h : antiCycle = 0 <;> simp [h]

/-- The slots after RESTART (R158). -/
theorem Slot.afterRestart_eq (now : Nat) (sl : Slot) :
    sl.afterRestart now = { sl with
      state := .stopped, watch := .stopped, stopDelayTimer := .stopped, claimSum := 0,
      antiCycleTimer := if sl.antiCycle = 0 then .stopped else .running (now + 100 * (1000 * sl.antiCycle)) } := by
  rw [Slot.afterRestart, afterRestart_antiCycle]

/-- The state that RESTART leaves before its REPLY. -/
def restarted (s : State) : State := stmRestart (restartUnits (restartTables s))

/-- RESTART and ENTER-CONFIG are one operation, answered DONE whatever the part state (R202). -/
theorem exec_restart {m : ManageCtx} {s : State} (h : FromManager m s) :
    exec (.restart m) s = .next (replied m 5 .done (restarted (arrive m.src s))) ∧
      exec (.enterConfig m) s = .next (replied m 6 .done (restarted (arrive m.src s))) := by
  have key : ∀ code, manage m code takeRestart s = replied m code .done (restarted (arrive m.src s)) :=
    fun code => manage_from h code takeRestart
  exact ⟨congrArg Host.Outcome.next (key 5), congrArg Host.Outcome.next (key 6)⟩

theorem restarted_station {s : State} {i : Nat} {st : Station} (hi : i < 30) (h : s.station i = some st) :
    ∃ st', (restarted s).station i = some st' ∧ st'.state = .absent ∧
      st'.address = st.address ∧ st'.role = st.role ∧ st'.silenceLimit = st.silenceLimit ∧
      st'.pollTimer = .stopped ∧ st'.retryCount = st.retryCount ∧ st'.heard = false ∧
      (stationRecord st.address s = some i → st'.silenceTimer = .running (s.now + 100 * st.silenceLimit)) := by
  have hs : (restartUnits (restartTables s)).station i = some st := h
  have ht := stmRestart_station (restartUnits (restartTables s)) hi
  rw [hs] at ht
  refine ⟨_, ht, rfl, rfl, rfl, rfl, rfl, rfl, rfl, fun hrec => ?_⟩
  exact if_pos hrec

/-- Settles O31: both commands come to `restarted`, whose tables are those of before with their kept fields reset. -/
theorem restartTakesRestartValues : Obligations.RestartTakesRestartValues := by
  intro m s hm s0 x hx
  obtain ⟨hrestart, henter⟩ := exec_restart hm
  obtain ⟨hgen, hfrozen, hrec, hprobes⟩ := reset_gtb (s := restarted s0) rfl
  refine ⟨restarted s0, ?_, rfl, rfl, rfl, rfl, rfl, ⟨rfl, rfl, rfl⟩, fun i st hi h => restarted_station hi h,
    fun p hp => Table.get_map_of_lt _ _ hp,
    fun r hr => ⟨Table.get_map_of_lt _ _ hr, Table.get_all _ hr⟩,
    fun c hc => Table.get_map_of_lt _ _ hc, rfl, fun r _ c _ => reset_holder _ rfl r c, hgen, hfrozen, hrec, hprobes,
    rfl, rfl, rfl, fun r hr => ⟨Table.get_all _ hr, Table.get_all _ hr⟩,
    fun n => Table.get_mapOption _ _ n, fun k => ?_⟩
  · simp only [List.mem_cons, List.not_mem_nil, or_false] at hx
    rcases hx with rfl | rfl
    · exact hrestart
    · exact henter
  · have : (restarted s0).slot k = (s0.slot k).map (·.afterRestart s0.now) := Table.get_mapOption _ _ k
    rw [this]
    simp only [Slot.afterRestart_eq]

end Sys2Proof.Machine
end


-- ==== Sys2Proof/Proofs/Readouts.lean ====
section
/-! SUPPORT. The contents of READ and STATUS: the codes and the parts of fields, value by value (R162; logs 12, 15), and the
REPLY that carries them. -/

namespace Sys2Proof.Machine

/-! ## The REPLY -/

/-- READ of a record that exists (R196, R200). -/
theorem exec_read {m : ManageCtx} {s : State} (h : FromManager m s) {table index n : Nat} {cs : List LoadClass}
    (ht : tableShape table = some (n, cs)) (hi : index < n) :
    exec (.read m table index) s = .next (let s0 := arrive m.src s
      { s0 with sent := s0.sent ++ [⟨originRing s0.lpu.loop, m.src, .reply m.seq
          { op := 2, status := .done, contents := readContents table index s0 }⟩] }) := by
  show Host.Outcome.next (manage m 2 (takeRead table index) s) = _
  rw [manage_from h]
  simp only [takeRead, ht, if_neg (Nat.not_le.mpr hi)]
  rfl

/-- STATUS of an item that exists (R196). -/
theorem exec_status {m : ManageCtx} {s : State} (h : FromManager m s) {item index : Nat} {c : List FieldItem}
    (ht : statusContents item index (arrive m.src s) = some c) :
    exec (.status m item index) s = .next (let s0 := arrive m.src s
      { s0 with sent := s0.sent ++ [⟨originRing s0.lpu.loop, m.src, .reply m.seq
          { op := 3, status := .done, contents := c }⟩] }) := by
  show Host.Outcome.next (manage m 3 (takeStatusItem item index) s) = _
  rw [manage_from h]
  simp only [takeStatusItem, ht]
  rfl

/-! ## Codes of names (R162) -/

theorem codeIn_roles (r : Role) : codeIn roles r =
    match r with | .sensor => 1 | .actuator => 2 | .client => 3 | .manager => 4 | .other => 5 := by
  cases r <;> rfl

theorem codeIn_returnModes (x : ReturnMode) : codeIn returnModes x =
    match x with | .auto => 1 | .manual => 2 | .halt => 3 := by
  cases x <;> rfl

theorem codeIn_lapsePolicies (x : LapsePolicy) : codeIn lapsePolicies x =
    match x with | .release => 1 | .fallback => 2 := by
  cases x <;> rfl

theorem codeIn_channelKinds (x : ChannelKind) : codeIn channelKinds x =
    match x with | .pump => 1 | .fan => 2 | .valve => 3 | .compressor => 4 | .heater => 5 := by
  cases x <;> rfl

theorem codeIn_qualities (x : Quality) : codeIn qualities x =
    match x with | .none => 1 | .fresh => 2 | .held => 3 | .stale => 4 | .substituted => 5 := by
  cases x <;> rfl

theorem codeIn_boundBys (x : BoundBy) : codeIn boundBys x =
    match x with | .none => 1 | .derate => 2 | .limit => 3 | .limitStale => 4 | .cap => 5 | .gate => 6 := by
  cases x <;> rfl

theorem codeIn_holderStates (x : HolderState) : codeIn holderStates x =
    match x with
    | .none => 1 | .waiting => 2 | .shared => 3 | .upgrading => 4 | .exclusive => 5 | .yielding => 6 := by
  cases x <;> rfl

theorem codeIn_levels (x : Level) : codeIn levels x = match x with | .shared => 1 | .exclusive => 2 := by
  cases x <;> rfl

theorem codeIn_causes (x : Cause) : codeIn causes x = match x with | .request => 1 | .probe => 2 := by
  cases x <;> rfl

theorem codeIn_rampMarks (x : RampMark) : codeIn rampMarks x =
    match x with | .pass => 1 | .settle => 2 | .clear => 3 := by
  cases x <;> rfl

theorem codeIn_probeKinds (x : ProbeKind) : codeIn probeKinds x =
    match x with
    | .evict => 1 | .evictAll => 2 | .demote => 3 | .freeze => 4 | .thaw => 5 | .cap => 6 | .uncap => 7 := by
  cases x <;> rfl

theorem codeIn_loopStates (x : LoopState) : codeIn loopStates x =
    match x with
    | .forward => 1 | .reverse => 2 | .wrapBoth => 3 | .wrapFwd => 4 | .wrapRev => 5 | .down => 6 := by
  cases x <;> rfl

theorem targetCode_eq (x : Option Level) : targetCode x =
    match x with | none => 1 | some .shared => 2 | some .exclusive => 3 := by
  rcases x with _ | _ | _ <;> rfl

/-! ## Parts of fields (logs 13, 15) -/

theorem optNum_eq (x : Option Nat) : optNum x = match x with | none => [] | some v => [(v : Int)] := by
  cases x <;> rfl

theorem optPart_natCast (x : Option Nat) :
    optPart (x.map fun v => (v : Int)) = match x with | none => [0] | some v => [1, (v : Int)] := by
  cases x <;> rfl

/-- The time left on a timer as it is reported (log 5). -/
def reportedLeft (now : Nat) (t : Timer) : Option Nat := (t.remaining now).map reportedMs

theorem reportedLeft_eq (now : Nat) (t : Timer) : reportedLeft now t =
    match t with
    | .stopped => none
    | .running d => some (reportedMs (d - now))
    | .suspended r => some (reportedMs r) := by
  cases t <;> rfl

theorem optPart_remaining (now : Nat) (t : Timer) :
    optPart ((t.remaining now).map fun t => (reportedMs t : Int)) =
      match reportedLeft now t with | none => [0] | some v => [1, (v : Int)] := by
  cases t <;> rfl

theorem timerValues_eq (now : Nat) (t : Timer) :
    timerValues now t = match reportedLeft now t with | none => [1] | some v => [2, (v : Int)] := by
  cases t <;> rfl

/-- Of the steps of a slot the first `placed` ones are placed; a number beyond the last step places them all (R144). -/
theorem placedValues_of_take (sl : Slot) (i : Nat) (h : sl.placed = sl.steps.take i) :
    placedValues sl = (sl.steps.length : Int) :: sl.steps.zipIdx.flatMap fun y =>
      [if y.2 < i then 1 else 2, (y.1.channel : Int), (y.1.run : Int)] := by
  have hcounted : ∀ f : Step × Nat → List Int,
      counted sl.steps.zipIdx f = (sl.steps.length : Int) :: sl.steps.zipIdx.flatMap f := by
    intro f; simp [counted]
  rw [placedValues, hcounted, h]
  congr 1
  refine List.flatMap_congr fun y hy => ?_
  have hlt : y.2 < sl.steps.length := by
    have := List.snd_lt_of_mem_zipIdx hy
    omega
  simp only [List.length_take, lt_min_iff, hlt, and_true]

theorem placedValues_eq (sl : Slot) :
    placedValues sl = (sl.steps.length : Int) :: sl.steps.zipIdx.flatMap fun y =>
      [if y.2 < (match sl.state with
          | .starting i => i
          | .running => sl.steps.length
          | .stopping i => i - 1
          | _ => 0) then 1 else 2, (y.1.channel : Int), (y.1.run : Int)] := by
  apply placedValues_of_take
  unfold Slot.placed
  cases sl.state <;> simp

/-- Settles O28: each table and item is read as its fields, and the codes and parts of the fields as above. -/
theorem readoutsReportState : Obligations.ReadoutsReportState := by
  intro m x s hm s0 items each answer read status int mark opt part value left timer slotTimer level role holder standing
  have hread : ∀ {table index n : Nat} {cs : List LoadClass} {c : List FieldItem}, tableShape table = some (n, cs) →
      index < n → readContents table index s0 = c → read table index c :=
    fun ht hi hc => hc ▸ exec_read hm ht hi
  have hstatus : ∀ {item index : Nat} {c : List FieldItem}, statusContents item index s0 = some c →
      status item index c := fun hc => exec_status hm hc
  have hwithin : ∀ {n : Nat} {c c' : List FieldItem}, x < n → c = c' → (if x < n then some c else none) = some c' :=
    fun hx hc => by rw [if_pos hx, hc]
  have hleft : ∀ t, reportedLeft s0.now t = left t := reportedLeft_eq s0.now
  refine ⟨fun hx => hread rfl hx ?_, hread rfl Nat.one_pos ?_, fun hx => ⟨hread rfl hx ?_, hstatus (hwithin hx ?_)⟩,
    fun hx => hread rfl hx ?_, fun hx => hread rfl hx ?_, fun hx => ⟨hstatus (hwithin hx ?_), hstatus (hwithin hx ?_)⟩,
    hstatus (congrArg some ?_), hstatus (congrArg some ?_), hstatus (congrArg some ?_), hstatus (congrArg some ?_),
    fun hx => hstatus (hwithin hx ?_), fun hx => hstatus (hwithin hx ?_), hstatus (congrArg some ?_),
    fun i st hi hst => hstatus ?_, hstatus (congrArg some ?_), hstatus (congrArg some ?_)⟩
  · refine congrArg numbered ?_
    cases s0.station x with
    | none => rfl
    | some st => simp only [codeIn_roles] <;> rfl
  · refine congrArg numbered ?_
    simp only [codeIn_returnModes] <;> rfl
  · refine congrArg numbered ?_
    rcases (s0.point x).source with _ | ⟨a, n⟩ <;> rcases (s0.point x).substitute with _ | v | ⟨q, fallback⟩ <;> rfl
  · refine congrArg numbered ?_
    have hvalue : ∀ v : Option Int, (v.map fun v => [v]).getD [] = value v := by intro v; cases v <;> rfl
    have hsource : sourceState s0 (s0.point x) =
        match ((s0.point x).source.bind fun y => stationRecord y.1 s0).bind s0.station with
        | none => []
        | some st => standing st.state := by
      rcases hs : (s0.point x).source with _ | ⟨a, n⟩
      · simp only [sourceState, hs] <;> rfl
      · simp only [sourceState, hs, stationAt, Option.bind_some]
        cases (stationRecord a s0).bind s0.station <;> rfl
    simp only [codeIn_qualities, hvalue, timerValues_eq, hleft, hsource] <;> rfl
  · refine congrArg numbered ?_
    cases (s0.client x).entry with
    | none => rfl
    | some e => simp only [codeIn_lapsePolicies] <;> rfl
  · refine congrArg numbered ?_
    cases interceptAt s0 x <;> rfl
  · refine congrArg numbered ?_
    rcases (s0.cau.reports.get x).baseSource with _ | _ | _ <;> simp only [optNum_eq, codeIn_boundBys] <;> rfl
  · simp only [statusGrants, holderValues, codeIn_holderStates, targetCode_eq, optPart_natCast, optPart_remaining, hleft] <;> rfl
  · refine congrArg (repeated 1) (List.map_congr_left fun k _ => ?_)
    cases s0.record k with
    | none => rfl
    | some v => simp only [recordValues, codeIn_causes, codeIn_rampMarks, optPart_remaining, hleft] <;> rfl
  · simp only [statusProbes, codeIn_probeKinds]
    cases s0.gtb.probes <;> rfl
  · simp only [statusPrf, codeIn_levels, codeIn_holderStates] <;> rfl
  · have hparents : ((List.range 12).filter fun r => (s0.resource r).kind == .parent) =
        (List.range 12).filter fun r => decide ((s0.resource r).kind = .parent) :=
      List.filter_congr fun r _ => by cases (s0.resource r).kind <;> rfl
    have hpass : (if s0.ale.pass.isSome then (2 : Int) else 1) = if s0.ale.pass = none then 1 else 2 := by
      cases s0.ale.pass <;> rfl
    simp only [statusAllocation, optPart_natCast, timerValues_eq, hleft, hparents, hpass] <;> rfl
  · refine congrArg numbered ?_
    cases hn : s0.channel x with
    | none => rfl
    | some ch => simp only [codeIn_channelKinds, optNum_eq, settled, hn] <;> rfl
  · refine congrArg numbered ?_
    cases hk : s0.slot x with
    | none => rfl
    | some sl =>
      simp only [placedValues_eq, timerValues_eq, hleft] <;> rfl
  · refine congrArg numbered ?_
    simp only [codeIn_loopStates, optPart_natCast, optNum_eq] <;> rfl
  · have hitem : statusContents 12 x s0 = some (statusStation s0 i st) := by
      simp only [statusContents, hi, hst] <;> rfl
    rw [hitem]
    refine congrArg (some ∘ numbered) ?_
    simp only [codeIn_roles, timerValues_eq, hleft] <;> rfl
  · rfl
  · rfl

end Sys2Proof.Machine
end


-- ==== Sys2Proof/Proofs/StartChecks.lean ====
section
/-! SUPPORT. The checks of START: the test of each table is the constraint of its rule (R199, R178, R26, R41, R11, R122,
R146, R168), and the scan charges the first record that breaks one. -/

namespace Sys2Proof.Machine

/-! ## Searches among the records -/

theorem anyBelow_iff {n : Nat} {p : Nat → Bool} : anyBelow n p = true ↔ ∃ i < n, p i = true := by
  simp [anyBelow, List.any_eq_true]

theorem faultyCount_pos (s : State) :
    0 < faultyCount s ↔ ∃ i st, s.station i = some st ∧ st.state = .faulty := by
  simp only [faultyCount, List.length_pos_iff_exists_mem, List.mem_filter, List.mem_range]
  constructor
  · rintro ⟨i, -, hi⟩
    cases h : s.station i with
    | none => simp [h] at hi
    | some st => exact ⟨i, st, h, by simpa [h] using hi⟩
  · rintro ⟨i, st, h, hf⟩
    exact ⟨i, station_lt s h, by simp [h, hf]⟩

/-- The lowest-numbered record of an address (R178). -/
theorem stationRecord_iff {s : State} {a i : Nat} : stationRecord a s = some i ↔
    ∃ st, s.station i = some st ∧ st.address = a ∧ ∀ j < i, ∀ x, s.station j = some x → x.address ≠ a := by
  constructor
  · intro h
    obtain ⟨-, st, hst, ha⟩ := stationRecord_some h
    refine ⟨st, hst, ha, fun j hj x hx => ?_⟩
    simpa [hx] using (lowest_eq_some.mp h).2.2 j hj
  · rintro ⟨st, hst, ha, hlow⟩
    refine lowest_eq_some.mpr ⟨station_lt s hst, by simpa [hst] using ha, fun j hj => ?_⟩
    cases hx : s.station j with
    | none => rfl
    | some x => simpa using hlow j hj x hx

theorem hasStation_iff (s : State) (a : Nat) :
    hasStation s a = true ↔ ∃ i st, s.station i = some st ∧ st.address = a := by
  unfold hasStation
  constructor
  · intro h
    obtain ⟨i, hi⟩ := Option.isSome_iff_exists.mp h
    obtain ⟨-, st, hst, ha⟩ := stationRecord_some hi
    exact ⟨i, st, hst, ha⟩
  · rintro ⟨i, st, hst, ha⟩
    by_contra h
    have := lowest_eq_none.mp (Option.not_isSome_iff_eq_none.mp h) i (station_lt s hst)
    simp [hst, ha] at this

theorem hasRole_iff (s : State) (a : Nat) (role : Role) : hasRole s a role = true ↔ HasRole s a role := by
  unfold hasRole stationAt HasRole
  cases h : stationRecord a s with
  | none =>
    simp only [Option.bind_none, Bool.false_eq_true, false_iff]
    rintro ⟨i, st, hst, ha, -, hlow⟩
    rw [stationRecord_iff.mpr ⟨st, hst, ha, hlow⟩] at h
    cases h
  | some i =>
    obtain ⟨st, hst, ha, hlow⟩ := stationRecord_iff.mp h
    simp only [Option.bind_some, hst, beq_iff_eq]
    constructor
    · exact fun hr => ⟨i, st, hst, ha, hr, hlow⟩
    · rintro ⟨j, x, hx, hxa, hr, hxlow⟩
      have hj : stationRecord a s = some j := stationRecord_iff.mpr ⟨x, hx, hxa, hxlow⟩
      obtain rfl : i = j := Option.some.inj (h.symm.trans hj)
      obtain rfl : st = x := Option.some.inj (hst.symm.trans hx)
      exact hr

theorem clientOf_isNone_iff (s : State) (a : Nat) :
    (clientOf a s).isNone = true ↔ ∀ c x, (s.client c).entry = some x → x.station ≠ a := by
  unfold clientOf
  rw [Option.isNone_iff_eq_none, lowest_eq_none]
  constructor
  · intro h c x hx
    simpa [hx] using h c (entry_lt s hx)
  · intro h c _
    cases hx : (s.client c).entry with
    | none => rfl
    | some x => simpa using h c x hx

/-! ## Lists -/

/-- A list that is no chain has two neighbours out of order. -/
theorem not_isChain_iff {α : Type} {R : α → α → Prop} {l : List α} :
    ¬l.IsChain R ↔ ∃ i a b, l[i]? = some a ∧ l[i + 1]? = some b ∧ ¬R a b := by
  rw [List.isChain_iff_getElem]
  push Not
  constructor
  · rintro ⟨i, hi, h⟩
    exact ⟨i, _, _, List.getElem?_eq_getElem (by omega), List.getElem?_eq_getElem hi, h⟩
  · rintro ⟨i, a, b, ha, hb, h⟩
    obtain ⟨hi, rfl⟩ := List.getElem?_eq_some_iff.mp hb
    obtain ⟨_, rfl⟩ := List.getElem?_eq_some_iff.mp ha
    exact ⟨i, hi, h⟩

theorem risesInX_iff (l : List Breakpoint) : risesInX l = true ↔ l.IsChain (fun a b => a.x < b.x) := by
  induction l with
  | nil => simp [risesInX]
  | cons a l ih =>
    cases l with
    | nil => simp [risesInX]
    | cons b l => simp [risesInX, ih]

theorem xsFall_iff (l : List Breakpoint) : risesInX l = false ↔ XsFall l := by
  rw [← Bool.not_eq_true, risesInX_iff, not_isChain_iff]
  simp only [XsFall, not_lt]

theorem falls_iff (l : List Nat) :
    falls l = true ↔ ∃ i a b, l[i]? = some a ∧ l[i + 1]? = some b ∧ b < a := by
  have hchain : falls l = false ↔ l.IsChain (fun a b => a ≤ b) := by
    induction l with
    | nil => simp [falls]
    | cons a l ih =>
      cases l with
      | nil => simp [falls]
      | cons b l => simp [falls, ih]
  rw [← Bool.not_eq_false, hchain, not_isChain_iff]
  simp only [not_le]

theorem repeats_iff (l : List Nat) : repeats l = true ↔ ¬l.Nodup := by
  induction l with
  | nil => simp [repeats]
  | cons a l ih =>
    rw [repeats, Bool.or_eq_true, ih, List.nodup_cons, not_and_or, not_not, List.contains_iff_mem]

theorem mappingsRepeat_iff (l : List Mapping) :
    mappingsRepeat l = true ↔ ¬(l.map fun m => (m.output, m.resource)).Nodup := by
  induction l with
  | nil => simp [mappingsRepeat]
  | cons a l ih =>
    rw [mappingsRepeat, Bool.or_eq_true, ih, List.map_cons, List.nodup_cons, not_and_or, not_not]
    refine or_congr_left ?_
    simp [List.mem_map]

theorem meet_iff (a b : List Nat) : meet a b = true ↔ ∃ k, k ∈ a ∧ k ∈ b := by
  simp [meet]

theorem mem_splitChannels (x : Resource) (n : Nat) : n ∈ x.splitChannels ↔ BindsSplit x n := by
  simp only [Resource.splitChannels, List.mem_filterMap, BindsSplit]
  refine exists_congr fun b => and_congr_right fun _ => ?_
  cases b.mode <;> simp

theorem mem_levelChannels (x : Resource) (n : Nat) : n ∈ x.levelChannels ↔ BindsLevel x n := by
  simp only [Resource.levelChannels, List.mem_filterMap, BindsLevel]
  refine exists_congr fun b => and_congr_right fun _ => ?_
  cases b.mode <;> simp

section Constraints

variable (s : State) (n : Nat)

/-! ## The constraints of each table -/

theorem stationFails_iff : stationFails s n = true ↔ StationBreaks s n := by
  unfold stationFails StationBreaks
  cases s.station n with
  | none => simp
  | some st =>
    simp only [anyBelow_iff, Option.some.injEq, exists_eq_left']
    refine exists_congr fun i => and_congr_right fun _ => ?_
    cases s.station i <;> simp

theorem pointFails_iff : pointFails s n = true ↔ PointBreaks s n := by
  unfold pointFails PointBreaks
  simp only [Bool.or_eq_true, or_assoc, decide_eq_true_eq]
  rw [or_congr_right Or.comm]
  refine or_congr_right (or_congr ?_ ?_)
  · rcases (s.point n).source with _ | ⟨a, k⟩
    · simp
    · simp [anyBelow_iff, ← Bool.not_eq_true, hasStation_iff]
  · rcases (s.point n).substitute with _ | _ | ⟨q, fallback⟩ <;> simp

theorem clientFails_iff : clientFails s n = true ↔ ClientBreaks s n := by
  unfold clientFails ClientBreaks
  cases (s.client n).entry with
  | none => simp
  | some e =>
    simp only [Bool.or_eq_true, Bool.not_eq_true', ← Bool.not_eq_true, hasRole_iff, anyBelow_iff, Option.some.injEq,
      exists_eq_left']
    refine or_congr_right (exists_congr fun d => and_congr_right fun _ => ?_)
    cases (s.client d).entry <;> simp

theorem shapeFails_iff (x : Resource) : shapeFails x = true ↔
    XsFall x.curve ∨ (∃ b ∈ x.bindings, ∃ l, b.mode = .level l ∧ (XsFall l ∨ ∃ p ∈ l, ¬(0 ≤ p.x ∧ p.x ≤ 10000))) ∨
      ¬(x.bindings.map (·.channel)).Nodup := by
  unfold shapeFails
  rw [Bool.or_eq_true, Bool.or_eq_true, or_assoc, Bool.not_eq_true', xsFall_iff, repeats_iff, List.any_eq_true]
  refine or_congr_right (or_congr_left (exists_congr fun b => and_congr_right fun _ => ?_))
  cases b.mode with
  | split c => simp
  | level l =>
    simp only [Bool.or_eq_true, Bool.not_eq_true', xsFall_iff, List.all_eq_false, decide_eq_true_eq,
      BindingMode.level.injEq, exists_eq_left']

theorem kindFails_iff (x : Resource) : kindFails s n x = true ↔
    (x.kind = .child ∧ ∀ p, x.parent = some p → (s.resource p).kind ≠ .parent) ∨
      (x.kind = .parent ∧ 3 ≤ ((List.range n).filter fun i => decide ((s.resource i).kind = .parent)).length) ∨
      (x.kind = .parent ∧ ∃ k, BindsSplit x k) := by
  have hsplit : x.splitChannels.isEmpty = false ↔ ∃ k, BindsSplit x k := by
    simp only [List.isEmpty_eq_false_iff_exists_mem, mem_splitChannels]
  have hparents : ∀ i, ((s.resource i).kind == ResKind.parent) = decide ((s.resource i).kind = .parent) := by
    intro i; cases (s.resource i).kind <;> rfl
  unfold kindFails
  cases x.kind with
  | unused => simp
  | plain => simp
  | parent => simp [hsplit, hparents]
  | child => cases x.parent <;> simp

/-- A slot of a resource is loaded for another one, or named by a lower record too (R11). -/
theorem linkFails_iff (x : Resource) : linkFails s n x = true ↔
    (∃ k, BindsSplit x k ∧ ∃ i < n, BindsSplit (s.resource i) k) ∨
      (∃ k, BindsSplit x k ∧ BindsLevel x k ∨ ∃ i < n, BindsSplit x k ∧ BindsLevel (s.resource i) k ∨
        BindsLevel x k ∧ BindsSplit (s.resource i) k) ∨
      ∃ k, x.slot = some k ∧
        ((∀ sl, s.slot k = some sl → sl.resource ≠ n) ∨ ∃ i < n, (s.resource i).slot = some k) := by
  have hslot : (match x.slot with
      | none => false
      | some k => (match s.slot k with
        | some sl => sl.resource != n
        | none => true) || anyBelow n fun i => (s.resource i).slot == some k) = true ↔
      ∃ k, x.slot = some k ∧
        ((∀ sl, s.slot k = some sl → sl.resource ≠ n) ∨ ∃ i < n, (s.resource i).slot = some k) := by
    cases x.slot with
    | none => simp
    | some k =>
      simp only [Bool.or_eq_true, anyBelow_iff, beq_iff_eq, Option.some.injEq, exists_eq_left']
      refine or_congr_left ?_
      cases s.slot k <;> simp
  have hmeet : (meet x.splitChannels x.levelChannels || anyBelow n fun i =>
        meet x.splitChannels (s.resource i).splitChannels || meet x.splitChannels (s.resource i).levelChannels ||
          meet x.levelChannels (s.resource i).splitChannels) = true ↔
      (∃ k, BindsSplit x k ∧ ∃ i < n, BindsSplit (s.resource i) k) ∨
        (∃ k, BindsSplit x k ∧ BindsLevel x k ∨ ∃ i < n, BindsSplit x k ∧ BindsLevel (s.resource i) k ∨
          BindsLevel x k ∧ BindsSplit (s.resource i) k) := by
    simp only [Bool.or_eq_true, anyBelow_iff, meet_iff, mem_splitChannels, mem_levelChannels]
    constructor
    · rintro (⟨k, h1, h2⟩ | ⟨i, hi, (⟨k, h1, h2⟩ | ⟨k, h1, h2⟩) | ⟨k, h1, h2⟩⟩)
      · exact .inr ⟨k, .inl ⟨h1, h2⟩⟩
      · exact .inl ⟨k, h1, i, hi, h2⟩
      · exact .inr ⟨k, .inr ⟨i, hi, .inl ⟨h1, h2⟩⟩⟩
      · exact .inr ⟨k, .inr ⟨i, hi, .inr ⟨h1, h2⟩⟩⟩
    · rintro (⟨k, h1, i, hi, h2⟩ | ⟨k, ⟨h1, h2⟩ | ⟨i, hi, ⟨h1, h2⟩ | ⟨h1, h2⟩⟩⟩)
      · exact .inr ⟨i, hi, .inl (.inl ⟨k, h1, h2⟩)⟩
      · exact .inl ⟨k, h1, h2⟩
      · exact .inr ⟨i, hi, .inl (.inr ⟨k, h1, h2⟩)⟩
      · exact .inr ⟨i, hi, .inr ⟨k, h1, h2⟩⟩
  rw [← or_assoc, ← hmeet, ← hslot, ← Bool.or_eq_true]
  rfl

theorem resourceFails_iff : resourceFails s n = true ↔ ResourceBreaks s n := by
  have hused : resourceFails s n = true ↔ (s.resource n).kind ≠ .unused ∧
      (shapeFails (s.resource n) || kindFails s n (s.resource n) || linkFails s n (s.resource n)) = true := by
    unfold resourceFails
    cases hk : (s.resource n).kind <;> simp [hk]
  rw [hused, Bool.or_eq_true, Bool.or_eq_true, shapeFails_iff, kindFails_iff, linkFails_iff]
  simp only [ResourceBreaks, or_assoc]

theorem channelFails_iff : channelFails s n = true ↔ ChannelBreaks s n := by
  unfold channelFails ChannelBreaks
  cases s.channel n with
  | none => simp
  | some ch =>
    have hfalls : falls (ch.characteristic.getD []) = true ↔
        ∃ l i a b, ch.characteristic = some l ∧ l[i]? = some a ∧ l[i + 1]? = some b ∧ b < a := by
      rw [falls_iff]
      cases ch.characteristic <;> simp
    have hsplit : (ch.kind != .valve && (List.range 12).any fun r => (s.resource r).splitChannels.contains n) = true ↔
        ch.kind ≠ .valve ∧ ∃ r < 12, BindsSplit (s.resource r) n := by
      simp [mem_splitChannels]
    simp only [Option.some.injEq, exists_eq_left']
    rw [Bool.or_eq_true, Bool.or_eq_true, Bool.or_eq_true, hfalls, hsplit, anyBelow_iff, Bool.not_eq_true',
      ← Bool.not_eq_true, hasRole_iff, or_assoc, or_assoc]
    refine or_congr_right (or_congr_left (exists_congr fun i => and_congr_right fun _ => ?_))
    cases s.channel i <;> simp

theorem slotFails_iff : slotFails s n = true ↔ SlotBreaks s n := by
  unfold slotFails SlotBreaks
  cases s.slot n with
  | none => simp
  | some sl =>
    simp only [Option.some.injEq, exists_eq_left']
    rw [Bool.or_eq_true, Bool.or_eq_true, Bool.or_eq_true, repeats_iff, List.any_eq_true, bne_iff_ne, or_assoc, or_assoc]
    refine or_congr ?_ (or_congr_right (or_congr_left (exists_congr fun st => and_congr_right fun _ => ?_)))
    · cases (s.resource sl.resource).kind <;> simp
    · cases s.channel st.channel <;> simp

theorem interceptFails_iff : interceptFails s n = true ↔ InterceptBreaks s n := by
  unfold interceptFails InterceptBreaks
  cases interceptAt s n with
  | none => simp
  | some e =>
    simp only [Option.some.injEq, exists_eq_left']
    rw [Bool.or_eq_true, Bool.or_eq_true, Bool.or_eq_true, Bool.or_eq_true, mappingsRepeat_iff, clientOf_isNone_iff,
      Bool.not_eq_true', ← Bool.not_eq_true, hasRole_iff, anyBelow_iff, List.any_eq_true, or_assoc, or_assoc, or_assoc]
    refine or_congr_right (or_congr_right (or_congr ?_ (or_congr_left ?_)))
    · refine exists_congr fun i => and_congr_right fun _ => ?_
      cases interceptAt s i <;> simp
    · refine exists_congr fun m => and_congr_right fun _ => ?_
      cases (s.resource m.resource).kind <;> simp

/-! ## The scan (R199) -/

/-- The checks of R199 in their order: each table's code, the number of its records and its test. -/
def tableChecks : List (Nat × Nat × (Nat → Bool)) :=
  [(1, 30, stationFails s), (3, 1, fun _ => !hasRole s s.mgu.manager .manager), (4, 48, pointFails s),
    (5, 3, clientFails s), (6, 12, resourceFails s), (7, 16, channelFails s), (8, 4, slotFails s),
    (9, 16, interceptFails s)]

theorem firstCharged_eq : firstCharged s = (tableChecks s).findSome? fun c => charge c.1 c.2.1 c.2.2 := rfl

theorem tableChecks_rising : (tableChecks s).Pairwise fun c d => c.1 < d.1 := by
  simp [tableChecks]

/-- Beyond its records a table breaks no constraint. -/
theorem TableBreaks.lt {c : Nat × Nat × (Nat → Bool)} (hc : c ∈ tableChecks s) {i : Nat} (h : TableBreaks s c.1 i) :
    i < c.2.1 := by
  simp only [tableChecks, List.mem_cons, List.not_mem_nil, or_false] at hc
  rcases hc with rfl | rfl | rfl | rfl | rfl | rfl | rfl | rfl
  · obtain ⟨st, hst, -⟩ := h
    exact station_lt s hst
  · obtain ⟨rfl, -⟩ := h
    exact Nat.one_pos
  · by_contra hi
    have hpoint : s.point i = {} := Table.get_beyond _ _ (Nat.le_of_not_lt hi)
    rcases h with h | ⟨a, k, h, -⟩ | ⟨fallback, h⟩
    · rw [hpoint] at h; simp at h
    · rw [hpoint] at h; cases h
    · rw [hpoint] at h; cases h
  · obtain ⟨e, he, -⟩ := h
    exact entry_lt s he
  · by_contra hi
    exact h.1 (congrArg Resource.kind (Table.get_beyond s.cau.resources i (Nat.le_of_not_lt hi)))
  · obtain ⟨ch, hch, -⟩ := h
    exact channel_lt s hch
  · obtain ⟨sl, hsl, -⟩ := h
    exact slot_lt s hsl
  · obtain ⟨e, he, -⟩ := h
    by_contra hi
    rw [interceptAt, Table.get_beyond _ _ (Nat.le_of_not_lt hi)] at he
    cases he

/-- The test of a table is its constraint. -/
theorem tableCheck_iff {c : Nat × Nat × (Nat → Bool)} (hc : c ∈ tableChecks s) {i : Nat} (hi : i < c.2.1) :
    c.2.2 i = true ↔ TableBreaks s c.1 i := by
  simp only [tableChecks, List.mem_cons, List.not_mem_nil, or_false] at hc
  rcases hc with rfl | rfl | rfl | rfl | rfl | rfl | rfl | rfl
  · exact stationFails_iff s i
  · obtain rfl : i = 0 := Nat.lt_one_iff.mp hi
    show (!hasRole s s.mgu.manager .manager) = true ↔ 0 = 0 ∧ ¬HasRole s s.mgu.manager .manager
    rw [Bool.not_eq_true', ← Bool.not_eq_true, hasRole_iff]
    simp
  · exact pointFails_iff s i
  · exact clientFails_iff s i
  · exact resourceFails_iff s i
  · exact channelFails_iff s i
  · exact slotFails_iff s i
  · exact interceptFails_iff s i

/-- Only the tables that START checks have constraints. -/
theorem TableBreaks.checked {table i : Nat} (h : TableBreaks s table i) : ∃ c ∈ tableChecks s, c.1 = table := by
  match table, h with
  | 1, _ | 3, _ | 4, _ | 5, _ | 6, _ | 7, _ | 8, _ | 9, _ => simp [tableChecks]
  | 0, h | 2, h | _ + 10, h => exact h.elim

/-- In a list of checks of rising tables the first to charge a record answers. -/
theorem findSome_of_first {l : List (Nat × Nat × (Nat → Bool))} (hl : l.Pairwise fun c d => c.1 < d.1)
    {f : Nat × Nat × (Nat → Bool) → Option (Nat × Nat)} {c : Nat × Nat × (Nat → Bool)} (hc : c ∈ l)
    (hbefore : ∀ d ∈ l, d.1 < c.1 → f d = none) {y : Nat × Nat} (hy : f c = some y) : l.findSome? f = some y := by
  induction l with
  | nil => cases hc
  | cons d l ih =>
    obtain ⟨hd, hl⟩ := List.pairwise_cons.mp hl
    rcases List.mem_cons.mp hc with rfl | hc
    · exact List.findSome?_cons_of_isSome (by rw [hy]; rfl) |>.trans hy
    · have hnone := hbefore d (by simp) (hd c hc)
      rw [List.findSome?_cons_of_isNone (by rw [hnone]; rfl)]
      exact ih hl hc fun d hd => hbefore d (by simp [hd])

/-- The first table that breaks a constraint, at its lowest record that does, is what the scan charges. -/
theorem firstCharged_of_breaks {table index : Nat} (h : TableBreaks s table index)
    (hlow : ∀ n < index, ¬TableBreaks s table n) (hfirst : ∀ u < table, ∀ n, ¬TableBreaks s u n) :
    firstCharged s = some (table, index) := by
  obtain ⟨c, hc, rfl⟩ := h.checked s
  rw [firstCharged_eq]
  refine findSome_of_first (tableChecks_rising s) hc (fun d hd hlt => ?_) ?_
  · have hnone : lowest d.2.1 d.2.2 = none := lowest_eq_none.mpr fun i hi =>
      Bool.eq_false_iff.mpr fun hfails => hfirst d.1 hlt i ((tableCheck_iff s hd hi).mp hfails)
    rw [charge, hnone]; rfl
  · have hi : index < c.2.1 := h.lt s hc
    have hsome : lowest c.2.1 c.2.2 = some index := lowest_eq_some.mpr ⟨hi, (tableCheck_iff s hc hi).mpr h,
      fun j hj => Bool.eq_false_iff.mpr fun hfails => hlow j hj ((tableCheck_iff s hc (hj.trans hi)).mp hfails)⟩
    rw [charge, hsome]; rfl

end Constraints

theorem exec_start {m : ManageCtx} {s : State} (h : FromManager m s) :
    exec (.start m) s = .next (conclude m.src m.seq 4 (takeStart (arrive m.src s))) :=
  congrArg Host.Outcome.next (manage_from h 4 takeStart)

/-- Settles O29: the tests of START in their order, the tables' by the scan. -/
theorem startTestsRefuse : Obligations.StartTestsRefuse := by
  intro m s hm s0 faulty
  have hfaulty : 0 < faultyCount s0 ↔ faulty := faultyCount_pos s0
  have hrefused : ∀ st, takeStart s0 = .of st s0 → exec (.start m) s = .next (replied m 4 st s0) := by
    intro st h
    rw [exec_start hm, show takeStart (arrive m.src s) = .of st s0 from h]
    rfl
  refine ⟨fun hrun => hrefused _ ?_, fun hrun hmode hf => hrefused _ ?_,
    fun hconfig hn table index hbreaks hlow hfirst => hrefused _ ?_⟩
  · rw [takeStart, if_pos hrun]
  · rw [takeStart, if_neg hrun, if_pos ⟨hmode, hfaulty.mpr hf⟩]
  · rw [takeStart, if_neg (by rw [hconfig]; simp), if_neg (by rwa [hfaulty]), if_neg (by rw [hconfig]; simp),
      firstCharged_of_breaks s0 hbreaks hlow hfirst]

end Sys2Proof.Machine
end


-- ==== Sys2Proof/Proofs/PassStart.lean ====
section
/-! SUPPORT. What becomes of a pass's latched inputs while the slots act at its start (R94 to R96, R147; log 10). -/

namespace Sys2Proof.Machine

variable {s t : State}

/-! ## Latched records but for their departed marks -/

def Claim.undeparted (x : Claim) : Claim := { x with departed := false }

/-- A latched record with every departed mark clear. -/
def LatchedRecord.undeparted (l : LatchedRecord) : LatchedRecord :=
  { l with
    drive := l.drive.map Claim.undeparted
    pack := l.pack.map Claim.undeparted
    cab := l.cab.map Claim.undeparted }

theorem LatchedRecord.claim_undeparted (l : LatchedRecord) (c : Nat) :
    l.undeparted.claim c = (l.claim c).map Claim.undeparted := by
  match c with
  | 0 | 1 | 2 | _ + 3 => rfl

/-- A departed mark set leaves the rest of the record. -/
theorem LatchedRecord.undeparted_depart (l : LatchedRecord) (c : Nat) :
    (l.setClaim c ((l.claim c).map fun x => { x with departed := true })).undeparted = l.undeparted := by
  have key : ∀ o : Option Claim,
      (o.map fun x => ({ x with departed := true } : Claim)).map Claim.undeparted = o.map Claim.undeparted := by
    intro o; cases o <;> rfl
  match c with
  | 0 | 1 | 2 => simp only [LatchedRecord.setClaim, LatchedRecord.claim, LatchedRecord.undeparted, key]
  | _ + 3 => rfl

theorem LatchedRecord.fields_of_undeparted {l l' : LatchedRecord} (h : l.undeparted = l'.undeparted) :
    l.kind = l'.kind ∧ l.parent = l'.parent ∧ l.draw = l'.draw ∧ l.capacity = l'.capacity :=
  ⟨(congrArg LatchedRecord.kind h :), (congrArg LatchedRecord.parent h :), (congrArg LatchedRecord.draw h :),
    (congrArg LatchedRecord.capacity h :)⟩

/-! ## The latched inputs stay -/

/-- A pass is in progress that has latched `l0`, whatever claims have departed since. -/
def KeepsLatch (l0 : Table 12 LatchedRecord) (s : State) : Prop :=
  ∃ l, s.ale.pass = some l ∧ ∀ r, (l.get r).undeparted = (l0.get r).undeparted

theorem KeepsLatch.of_pass {l0 : Table 12 LatchedRecord} (h : KeepsLatch l0 s) (e : t.ale.pass = s.ale.pass) :
    KeepsLatch l0 t := by
  unfold KeepsLatch; rw [e]; exact h

theorem KeepsLatch.markDeparted {l0 : Table 12 LatchedRecord} (h : KeepsLatch l0 s) (r c : Nat) :
    KeepsLatch l0 (markDeparted r c s) := by
  obtain ⟨l, hl, hsame⟩ := h
  refine ⟨_, by simp only [Machine.markDeparted, hl]; rfl, fun r' => ?_⟩
  rw [Table.get_set]
  split
  · rename_i hr
    rw [LatchedRecord.undeparted_depart, hr.1, hsame]
  · exact hsame r'

theorem KeepsLatch.moveHolder {l0 : Table 12 LatchedRecord} (h : KeepsLatch l0 s) (r c : Nat) (st : HolderState) :
    KeepsLatch l0 (moveHolder r c st s) := by
  have hmoved : KeepsLatch l0 (bumpGeneration r (s.setHolder r c ((s.holder r c).enter st))) := h.of_pass rfl
  simp only [Machine.moveHolder]
  repeat' split
  · exact h
  · exact hmoved.markDeparted r c
  · exact hmoved

theorem KeepsLatch.completePrf {l0 : Table 12 LatchedRecord} (h : KeepsLatch l0 s) (r : Nat) :
    KeepsLatch l0 (completePrf r s) := by
  rcases completePrf_cases s r with e | ⟨e, -, -, heq⟩
  · rw [e]; exact h
  · rw [heq]
    exact (h.moveHolder r e.client (completedState (s.holder r e.client) e.target)).of_pass (by simp)

theorem KeepsLatch.freeRecord {l0 : Table 12 LatchedRecord} (h : KeepsLatch l0 s) (k : Nat) :
    KeepsLatch l0 (freeRecord k s) := by
  unfold Machine.freeRecord
  split
  · exact h
  · rename_i v hv
    have hmoved := h.moveHolder v.resource v.client .none
    have hfree : KeepsLatch l0 ((Machine.moveHolder v.resource v.client .none s).setRecord k none) :=
      hmoved.of_pass (by simp)
    exact hfree.completePrf v.resource

theorem KeepsLatch.rampClear {l0 : Table 12 LatchedRecord} (h : KeepsLatch l0 s) (k : Nat) :
    KeepsLatch l0 (rampClear k s) := by
  simp only [Machine.rampClear]
  split
  · exact h
  · rename_i v hv
    have hset : KeepsLatch l0 (s.setRecord k (some { v with ramp := .clear })) := h.of_pass rfl
    split
    · exact hset
    · exact hset.freeRecord k

theorem KeepsLatch.reportToGtb {l0 : Table 12 LatchedRecord} (h : KeepsLatch l0 s) (n : Nat) :
    KeepsLatch l0 (reportToGtb n s) := by
  unfold Machine.reportToGtb
  refine forEach_induct _ h fun k _ t ht => ?_
  repeat' split
  · exact ht.rampClear k
  · exact ht
  · exact ht

theorem keepsLatch_closed (l0 : Table 12 LatchedRecord) : ReportClosed (KeepsLatch l0) where
  slot _ _ _ h := h.of_pass rfl
  minimum _ _ h := h.of_pass (by simp)
  gtb _ n h := h.reportToGtb n

/-! ## No claim departs while the law of R63 holds -/

/-- Every latched claim is of a holder that has its standing still, and has not departed (R96). -/
def ClaimsStand (s : State) : Prop :=
  ∀ l, s.ale.pass = some l → ∀ r c x, (l.get r).claim c = some x →
    x.departed = false ∧ (s.holder r c).state.leaves = false

theorem ClaimsStand.of_eq (h : ClaimsStand s) (hp : t.ale.pass = s.ale.pass) (hh : t.gtb.holders = s.gtb.holders) :
    ClaimsStand t := by
  intro l hl r c x hx
  have := h l (hp ▸ hl) r c x hx
  simpa only [State.holder, hh] using this

/-- A holder without a latched claim may leave, and every holder may take a standing. -/
theorem ClaimsStand.moveHolder (h : ClaimsStand s) {r c : Nat} {st : HolderState}
    (hst : st.leaves = true → ∀ l, s.ale.pass = some l → (l.get r).claim c = none) :
    ClaimsStand (moveHolder r c st s) := by
  have claims : ∀ l, (Machine.moveHolder r c st s).ale.pass = some l → ∃ l0, s.ale.pass = some l0 ∧
      ∀ r' c', (l.get r').claim c' = (l0.get r').claim c' := by
    intro l hl
    simp only [Machine.moveHolder] at hl
    split at hl
    · exact ⟨l, hl, fun _ _ => rfl⟩
    · split at hl
      · rename_i hleaves
        obtain ⟨l0, h0, hsame⟩ := markDeparted_pass _ hl
        refine ⟨l0, h0, fun r' c' => ?_⟩
        rw [hsame]
        split
        · rename_i e
          rw [← e.1, ← e.2, hst hleaves l0 h0]; rfl
        · rfl
      · exact ⟨l, hl, fun _ _ => rfl⟩
  intro l hl r' c' x hx
  obtain ⟨l0, h0, hsame⟩ := claims l hl
  rw [hsame] at hx
  obtain ⟨hdep, hstand⟩ := h l0 h0 r' c' x hx
  refine ⟨hdep, ?_⟩
  rw [moveHolder_holder]
  split
  · rename_i e
    rw [Holder.enter_state]
    by_contra hleaves
    rw [← e.1, ← e.2.1, hst (by simpa using hleaves) l0 h0] at hx
    cases hx
  · exact hstand

theorem ClaimsStand.completePrf (h : ClaimsStand s) (r : Nat) : ClaimsStand (completePrf r s) := by
  rcases completePrf_cases s r with e | ⟨e, -, -, heq⟩
  · rw [e]; exact h
  · rw [heq]
    refine (h.moveHolder (r := r) (c := e.client) (st := completedState (s.holder r e.client) e.target)
      fun hleaves => ?_).of_eq (by simp) (by simp)
    rcases completedState_standing (s.holder r e.client) e.target with hst | hst <;> rw [hst] at hleaves <;> cases hleaves

/-- A record names a YIELDING holder, which has no claim latched while claims stand. -/
theorem ClaimsStand.freeRecord (h : ClaimsStand s) (hlaw : StandingLaw s) (k : Nat) : ClaimsStand (freeRecord k s) := by
  unfold Machine.freeRecord
  split
  · exact h
  · rename_i v hv
    obtain ⟨-, hrecords, -⟩ := hlaw
    obtain ⟨-, -, hyield⟩ := hrecords k v hv
    have hnone : ∀ l, s.ale.pass = some l → (l.get v.resource).claim v.client = none := by
      intro l hl
      cases hx : (l.get v.resource).claim v.client with
      | none => rfl
      | some x =>
        have hstand := (h l hl _ _ x hx).2
        rw [hyield] at hstand
        cases hstand
    have hmoved : ClaimsStand (Machine.moveHolder v.resource v.client .none s) := h.moveHolder fun _ => hnone
    have hfree : ClaimsStand ((Machine.moveHolder v.resource v.client .none s).setRecord k none) :=
      hmoved.of_eq (by simp) (by simp)
    exact hfree.completePrf v.resource

theorem ClaimsStand.rampClear (h : ClaimsStand s) (hlaw : StandingLaw s) (k : Nat) : ClaimsStand (rampClear k s) := by
  simp only [Machine.rampClear]
  split
  · exact h
  · rename_i v hv
    have hrewritten := hlaw.rewriteRecord (w := { v with ramp := .clear }) hv rfl rfl
    have hstand : ClaimsStand (s.setRecord k (some { v with ramp := .clear })) := h.of_eq rfl rfl
    split
    · exact hstand
    · exact hstand.freeRecord hrewritten k

theorem ClaimsStand.reportToGtb (h : ClaimsStand s) (hlaw : StandingLaw s) (n : Nat) :
    StandingLaw (reportToGtb n s) ∧ ClaimsStand (reportToGtb n s) := by
  unfold Machine.reportToGtb
  refine forEach_induct (P := fun t => StandingLaw t ∧ ClaimsStand t) _ ⟨hlaw, h⟩ fun k _ t ht => ?_
  repeat' split
  · exact ⟨ht.1.rampClear k, ht.2.rampClear ht.1 k⟩
  · exact ht
  · exact ht

theorem claimsStand_closed : ReportClosed fun t => StandingLaw t ∧ ClaimsStand t where
  slot _ _ _ h := ⟨h.1.of_eq rfl rfl rfl, h.2.of_eq rfl rfl⟩
  minimum _ _ h := ⟨h.1.of_eq (by simp) (by simp) (by simp), h.2.of_eq (by simp) (by simp)⟩
  gtb _ n h := h.2.reportToGtb h.1 n

/-! ## The pass start -/

/-- The inputs a pass latches of the state `s` (R94, R95). -/
def latchOf (s : State) : Table 12 LatchedRecord := Table.build 12 (latchRecord s)

/-- The state in which a pass start latches: the timer restarted, every used record evaluated (R12, R91). -/
def evaluated (s : State) : State :=
  { s with ale.passTimer := Timer.start s.now s.ale.passPeriod, cau.reports := evaluateAll s }

/-- The state in which the slots act at a pass start: the inputs latched, and the revocation records have seen it. -/
def latched (s : State) : State := markPassSeen { evaluated s with ale.pass := some (latchOf (evaluated s)) }

theorem startPass_eq (s : State) : startPass s = slotsPassStart (latchOf (evaluated s)) (latched s) := rfl

theorem latched_standing (h : StandingLaw s) : StandingLaw (latched s) := by
  refine h.of_same (fun _ _ => rfl) (fun k => ?_) rfl
  have hrec : (latched s).record k = (s.record k).map fun v => { v with passSeen := true } := Table.get_mapOption _ _ k
  rw [namedBy, hrec, namedBy]
  cases s.record k <;> rfl

theorem claimOf_stands {h : Holder} {x : Claim} (hx : claimOf h = some x) :
    x.departed = false ∧ h.state.leaves = false := by
  unfold claimOf at hx
  cases hs : h.state <;> simp only [hs] at hx <;> cases hx <;> exact ⟨rfl, rfl⟩

theorem latchRecord_claim (s : State) (r c : Nat) (hc : c < 3) : (latchRecord s r).claim c = claimOf (s.holder r c) := by
  match c, hc with
  | 0, _ | 1, _ | 2, _ => rfl

theorem latched_claimsStand (s : State) : ClaimsStand (latched s) := by
  rintro l ⟨⟩ r c x hx
  by_cases hr : r < 12
  · by_cases hc : c < 3
    · rw [latchOf, Table.get_build _ hr, latchRecord_claim _ r c hc] at hx
      exact claimOf_stands hx
    · rw [LatchedRecord.claim_beyond _ (Nat.le_of_not_lt hc)] at hx; cases hx
  · rw [Table.get_beyond _ _ (Nat.le_of_not_lt hr)] at hx
    match c, hx with
    | 0, hx | 1, hx | 2, hx | _ + 3, hx => cases hx

theorem claimOf_values (h : Holder) :
    (claimOf h).map (fun x => (x.level, x.q, x.f, x.cls, x.weight)) =
      match h.state with
      | .shared | .upgrading => some (.shared, h.q, h.f, h.cls, h.weight)
      | .exclusive => some (.exclusive, h.q, h.f, h.cls, h.weight)
      | _ => none := by
  unfold claimOf
  cases h.state <;> rfl

theorem claimValues_undeparted (o : Option Claim) :
    (o.map Claim.undeparted).map (fun x => (x.level, x.q, x.f, x.cls, x.weight)) =
      o.map (fun x => (x.level, x.q, x.f, x.cls, x.weight)) := by
  cases o <;> rfl

/-- The capacity latched is the effective capacity of the record's evaluation (R19, R94). -/
theorem latchRecord_capacity (s : State) {r : Nat} (hr : r < 12) (hused : (s.resource r).kind ≠ .unused) :
    (latchRecord (evaluated s) r).capacity = (evaluate s (s.resource r)).effective := by
  have hreport : (evaluated s).cau.reports.get r = evaluate s (s.resource r) :=
    (Table.get_build _ hr).trans (if_neg hused)
  rw [← hreport]
  exact if_neg hused

/-- What a pass start latches of a record, whatever the slots do after it (R94, R95). -/
theorem startPass_latches (s : State) : ∃ l, (startPass s).ale.pass = some l ∧ ∀ r < 12,
    (l.get r).undeparted = (latchRecord (evaluated s) r).undeparted := by
  obtain ⟨l, hl, hsame⟩ := (keepsLatch_closed (latchOf (evaluated s))).slotsPassStart (latchOf (evaluated s))
    (show KeepsLatch (latchOf (evaluated s)) (latched s) from ⟨_, rfl, fun _ => rfl⟩)
  refine ⟨l, hl, fun r hr => ?_⟩
  rw [hsame, latchOf, Table.get_build _ hr]

/-- Under the law of R63 no claim departs at a pass start. -/
theorem startPass_claimsStand (h : StandingLaw s) : ClaimsStand (startPass s) :=
  (claimsStand_closed.slotsPassStart (latchOf (evaluated s)) ⟨latched_standing h, latched_claimsStand s⟩).2

/-- The report of a record at a pass start (R12, R20). -/
theorem startPass_report (s : State) {r : Nat} (hr : r < 12) : (startPass s).cau.reports.get r =
    if (s.resource r).kind = .unused then s.cau.reports.get r else evaluate s (s.resource r) := by
  have hcau : (startPass s).cau = (latched s).cau := by
    rw [startPass_eq]; simp
  rw [hcau]
  exact Table.get_build _ hr

/-- A pass start in RUN at the expiry of the pass timer (R92). -/
theorem exec_passStart {d : Nat} (hrun : s.mgu.part = .run) (htimer : s.ale.passTimer = .running d) :
    exec .passStart s = .next (testHead (startPass { s with now := max s.now d })) := by
  show execPassStart s = _
  rw [execPassStart, expire_running s htimer]
  exact if_pos hrun

/-- Out of RUN, and with the pass timer not running, no pass starts (log 23). -/
theorem exec_passStart_idle (h : s.mgu.part ≠ .run ∨ ∀ d, s.ale.passTimer ≠ .running d) :
    exec .passStart s = .next s := by
  show execPassStart s = .next s
  unfold execPassStart
  cases he : expire s.ale.passTimer s with
  | none => rfl
  | some s' =>
    obtain ⟨d, hd, -⟩ := expire_some he
    rcases h with h | h
    · exact if_neg h
    · exact absurd hd (h d)

/-- Settles O41: the inputs are latched from the state of before, and the slots' acts keep them, no claim departing while
the law of R63 holds. -/
theorem passStartLatches : Obligations.PassStartLatches := by
  intro d s
  refine ⟨exec_passStart_idle, fun hrun htimer => ?_⟩
  obtain ⟨l, hl, hsame⟩ := startPass_latches { s with now := max s.now d }
  have hkeeps := slotsPassStart_keeps (latched { s with now := max s.now d })
    (latchOf (evaluated { s with now := max s.now d }))
  rw [← startPass_eq] at hkeeps
  obtain ⟨hnow, -, -, hstm, hpst, hcau, -, -, -, -, htime, -, hresults, hstore, halc, -⟩ := hkeeps
  refine ⟨startPass { s with now := max s.now d }, l, exec_passStart hrun htimer, hnow, hl, htime, hresults, hstore,
    congrArg Alc.alerts halc, (congrArg Cau.resources hcau).trans rfl, hpst, hstm, fun r hr => ?_, fun r hr c hc => ?_,
    fun hlaw r _ c _ x hx => ?_⟩
  · obtain ⟨hkind, hparent, hdraw, hcapacity⟩ := LatchedRecord.fields_of_undeparted (hsame r hr)
    have hreport := startPass_report { s with now := max s.now d } hr
    exact ⟨hkind, hparent, hdraw, fun hunused => hreport.trans (if_pos hunused), fun hused =>
      ⟨hreport.trans (if_neg hused), hcapacity.trans (latchRecord_capacity { s with now := max s.now d } hr hused)⟩⟩
  · have hclaim := congrArg (LatchedRecord.claim · c) (hsame r hr)
    simp only [LatchedRecord.claim_undeparted, latchRecord_claim _ r c hc] at hclaim
    rw [← claimValues_undeparted, hclaim, claimValues_undeparted]
    exact claimOf_values (s.holder r c)
  · exact (startPass_claimsStand (s := { s with now := max s.now d }) (hlaw.of_eq rfl rfl rfl) l hl r c x hx).1

end Sys2Proof.Machine
end


-- ==== Sys2Proof/Proofs/Contents.lean ====
section
/-! SUPPORT. The contents of a LOAD of one part: the field items that its bytes are read as, and the frame around its owner's
decision (R160, R162, R200). -/

namespace Sys2Proof.Machine

/-! ## Bytes read as values (R160; log 6) -/

theorem be16_word16 (w : BitVec 16) : be16 (w.extractLsb' 8 8) (w.extractLsb' 0 8) = w.toNat := by
  have := w.isLt
  simp only [be16, BitVec.extractLsb'_toNat]
  omega

/-- What two bytes that carry a value are read as: a value above 32767 comes back less 65536 (log 6). -/
def asRead (v : Int) : Int := if 32767 < v then v - 65536 else v

/-- A value that two bytes carry, with or without sign. -/
def FitsTwoBytes (v : Int) : Prop := -32768 ≤ v ∧ v ≤ 65535

theorem Carries.fits {v : Int} (h : Carries v) : FitsTwoBytes v := by
  obtain ⟨hlo, hhi⟩ := h
  exact ⟨hlo, by omega⟩

theorem Carries.asRead {v : Int} (h : Carries v) : asRead v = v := by
  obtain ⟨hlo, hhi⟩ := h
  simp [Machine.asRead, hhi]

theorem signed16_ofInt {v : Int} (h : FitsTwoBytes v) : signed16 (BitVec.ofInt 16 v).toNat = asRead v := by
  obtain ⟨hlo, hhi⟩ := h
  simp only [signed16, BitVec.toNat_ofInt, asRead]
  split <;> split <;> omega

theorem takeValues_valueBytes {vs : List Int} (h : ∀ v ∈ vs, FitsTwoBytes v) (rest : List Byte) :
    takeValues vs.length (vs.flatMap valueBytes ++ rest) = some (vs.map asRead, rest) := by
  induction vs with
  | nil => rfl
  | cons v vs ih =>
    have hv := h v (by simp)
    have hbytes : valueBytes v = word16 (BitVec.ofInt 16 v) := by
      rw [valueBytes, if_pos (show -32768 ≤ v ∧ v ≤ 65535 from hv)]
    simp only [List.flatMap_cons, hbytes, word16, List.cons_append, List.nil_append, List.length_cons, takeValues,
      ih fun x hx => h x (by simp [hx]), be16_word16, signed16_ofInt hv, List.map_cons]

/-! ## Field items -/

/-- A field item whose field, number of values and values its bytes carry. -/
def FieldItem.Fits (it : FieldItem) : Prop :=
  it.field ≤ 255 ∧ it.values.length ≤ 255 ∧ ∀ v ∈ it.values, FitsTwoBytes v

/-- A field item as its bytes are read. -/
def FieldItem.asRead (it : FieldItem) : FieldItem := ⟨it.field, it.values.map Machine.asRead⟩

theorem toNat_byteOf {n : Nat} (h : n ≤ 255) : (byteOf n).toNat = n := by
  simp only [byteOf, BitVec.toNat_ofNat]
  omega

theorem FieldItem.bytes_append (it : FieldItem) (rest : List Byte) :
    it.bytes ++ rest = byteOf it.field :: byteOf it.values.length :: (it.values.flatMap valueBytes ++ rest) := rfl

theorem takeFields_bytes {items : List FieldItem} (h : ∀ it ∈ items, it.Fits) {fuel : Nat} (hf : items.length ≤ fuel) :
    takeFields fuel (items.flatMap (·.bytes)) = some (items.map (·.asRead)) := by
  induction items generalizing fuel with
  | nil => cases fuel <;> rfl
  | cons it items ih =>
    obtain ⟨hfield, hlength, hvalues⟩ := h it (by simp)
    obtain ⟨fuel, rfl⟩ : ∃ k, fuel = k + 1 := ⟨fuel - 1, by simp at hf; omega⟩
    have hrest := ih (fun x hx => h x (by simp [hx])) (fuel := fuel) (by simpa using hf)
    rw [List.flatMap_cons, FieldItem.bytes_append]
    simp only [takeFields, toNat_byteOf hfield, toNat_byteOf hlength, takeValues_valueBytes hvalues, hrest,
      List.map_cons, FieldItem.asRead]

/-- Contents are read back as the items they were made of (R162). -/
theorem parseContents_bytes {items : List FieldItem} (h : ∀ it ∈ items, it.Fits) :
    parseContents (items.flatMap (·.bytes)) = some (items.map (·.asRead)) := by
  refine takeFields_bytes h ?_
  clear h
  induction items with
  | nil => exact Nat.le_refl 0
  | cons it items ih =>
    rw [List.flatMap_cons, FieldItem.bytes_append]
    simp only [List.length_append, List.length_cons]
    omega

/-! ## The frame of a LOAD (R162, R200) -/

/-- A LOAD of one part is its owner's decision of the items, answered. -/
theorem exec_loadOf {m : ManageCtx} {s : State} (hm : FromManager m s) {table index cls n : Nat} {c : LoadClass}
    {classes : List LoadClass} (hshape : tableShape table = some (n, classes)) (hcls : loadClass cls = some c)
    (hindex : index < n) (hc : c ∈ classes) (hpart : c = .structural → (loadTaken m s).mgu.part = .config)
    {items : List FieldItem} (hfits : ∀ it ∈ items, it.Fits) :
    exec (loadOf m table index cls items) s = .next (conclude m.src m.seq 1
      (answerLoad (loadTaken m s) (ownerLoad table index c (items.map (·.asRead)) (loadTaken m s)))) := by
  show Host.Outcome.next (manage m 1 (takeLoad table index cls ⟨0, true⟩ (items.flatMap (·.bytes))) s) = _
  have htake : takeLoad table index cls ⟨0, true⟩ (items.flatMap (·.bytes)) (arrive m.src s) =
      answerLoad (loadTaken m s) (decideLoad table index cls (items.flatMap (·.bytes)) (loadTaken m s)) := rfl
  have hdecide : decideLoad table index cls (items.flatMap (·.bytes)) (loadTaken m s) =
      ownerLoad table index c (items.map (·.asRead)) (loadTaken m s) := by
    have hnot : ¬(n ≤ index ∨ c ∉ classes) := by simp [hc, hindex]
    have hstate : ¬(c = .structural ∧ (loadTaken m s).mgu.part ≠ .config) := fun h => h.2 (hpart h.1)
    simp only [decideLoad, hshape, hcls, if_neg hnot, if_neg hstate, parseContents_bytes hfits, orBadValue]
  rw [manage_from hm, htake, hdecide]

/-- What the class of a load asks of the part state (R200). -/
def ClassAllowed (c : LoadClass) (s : State) : Prop := c = .structural → s.mgu.part = .config

/-- A table and an index that take a load of a class (R200). -/
def TakesLoad (table index : Nat) (c : LoadClass) : Prop :=
  ∃ n classes, tableShape table = some (n, classes) ∧ index < n ∧ c ∈ classes

/-- The code of a load class (R162). -/
def LoadClass.code : LoadClass → Nat
  | .structural => 1
  | .tunable => 2

/-- A load that its owner takes. -/
theorem loadDone_of_owner {m : ManageCtx} {s t : State} (hm : FromManager m s) {table index : Nat} {c : LoadClass}
    (htable : TakesLoad table index c) (hclass : ClassAllowed c (loadTaken m s)) {items : List FieldItem}
    (hfits : ∀ it ∈ items, it.Fits)
    (howner : ownerLoad table index c (items.map (·.asRead)) (loadTaken m s) = .ok t) :
    LoadDone m (loadOf m table index c.code items) s t := by
  obtain ⟨n, classes, hshape, hindex, hc⟩ := htable
  rw [LoadDone, exec_loadOf hm hshape (c := c) (by cases c <;> rfl) hindex hc hclass hfits, howner]
  rfl

/-- A load that its owner refuses. -/
theorem loadRefused_of_owner {m : ManageCtx} {s : State} (hm : FromManager m s) {table index : Nat} {c : LoadClass}
    (htable : TakesLoad table index c) (hclass : ClassAllowed c (loadTaken m s)) {items : List FieldItem}
    (hfits : ∀ it ∈ items, it.Fits) {e : Status}
    (howner : ownerLoad table index c (items.map (·.asRead)) (loadTaken m s) = .error e) :
    LoadRefused m (loadOf m table index c.code items) s e := by
  obtain ⟨n, classes, hshape, hindex, hc⟩ := htable
  rw [LoadRefused, exec_loadOf hm hshape (c := c) (by cases c <;> rfl) hindex hc hclass hfits, howner]
  rfl

/-! ## Items that carry their values as they are -/

/-- A field item all of whose values two signed bytes carry. -/
def FieldItem.Plain (it : FieldItem) : Prop :=
  it.field ≤ 255 ∧ it.values.length ≤ 255 ∧ ∀ v ∈ it.values, Carries v

theorem map_asRead_of_carries {vs : List Int} (h : ∀ v ∈ vs, Carries v) : vs.map asRead = vs := by
  conv_rhs => rw [← List.map_id vs]
  exact List.map_congr_left fun v hv => (h v hv).asRead

theorem FieldItem.Plain.fits {it : FieldItem} (h : it.Plain) : it.Fits :=
  ⟨h.1, h.2.1, fun v hv => (h.2.2 v hv).fits⟩

theorem map_asRead_of_plain {items : List FieldItem} (h : ∀ it ∈ items, it.Plain) : items.map (·.asRead) = items := by
  conv_rhs => rw [← List.map_id items]
  refine List.map_congr_left fun it hit => ?_
  obtain ⟨-, -, hvalues⟩ := h it hit
  exact congrArg (FieldItem.mk it.field) (map_asRead_of_carries hvalues)

theorem loadDone_of_plain {m : ManageCtx} {s t : State} (hm : FromManager m s) {table index : Nat} {c : LoadClass}
    (htable : TakesLoad table index c) (hclass : ClassAllowed c (loadTaken m s)) {items : List FieldItem}
    (hplain : ∀ it ∈ items, it.Plain) (howner : ownerLoad table index c items (loadTaken m s) = .ok t) :
    LoadDone m (loadOf m table index c.code items) s t :=
  loadDone_of_owner hm htable hclass (fun it hit => (hplain it hit).fits) (by rwa [map_asRead_of_plain hplain])

theorem loadRefused_of_plain {m : ManageCtx} {s : State} (hm : FromManager m s) {table index : Nat} {c : LoadClass}
    (htable : TakesLoad table index c) (hclass : ClassAllowed c (loadTaken m s)) {items : List FieldItem}
    (hplain : ∀ it ∈ items, it.Plain) {e : Status} (howner : ownerLoad table index c items (loadTaken m s) = .error e) :
    LoadRefused m (loadOf m table index c.code items) s e :=
  loadRefused_of_owner hm htable hclass (fun it hit => (hplain it hit).fits) (by rwa [map_asRead_of_plain hplain])

end Sys2Proof.Machine
end


-- ==== Sys2Proof/Proofs/Fields.lean ====
section
/-! SUPPORT. Field items read: the values a load gives for a field, and numbers and lists read back from the values that READ
returns for them (R162; logs 12 to 14). -/

namespace Sys2Proof.Machine

/-! ## The values given for a field -/

/-- The values of a field, absent when there are none (log 14). -/
def present (vs : List Int) : Option (List Int) := if vs = [] then none else some vs

theorem numbered_mem {fields : List (List Int)} {it : FieldItem} :
    it ∈ numbered fields ↔ ∃ i, fields[i]? = some it.values ∧ it.field = i + 1 := by
  simp only [numbered, List.mem_map, List.mem_zipIdx_iff_getElem?, Prod.exists]
  constructor
  · rintro ⟨vs, i, hi, rfl⟩; exact ⟨i, hi, rfl⟩
  · rintro ⟨i, hi, hf⟩
    refine ⟨it.values, i, hi, ?_⟩
    rw [← hf]

theorem find?_unique {α : Type} {p : α → Bool} {l : List α} {a : α} (ha : a ∈ l) (hp : p a = true)
    (h : ∀ x ∈ l, p x = true → x = a) : l.find? p = some a := by
  cases hf : l.find? p with
  | none => exact absurd hp (List.find?_eq_none.mp hf a ha)
  | some b => rw [h b (List.mem_of_find?_eq_some hf) (List.find?_some hf)]

/-- Items numbered by their positions give for a field its values. -/
theorem given_numbered (fields : List (List Int)) (i : Nat) :
    given (numbered fields) (i + 1) = fields[i]?.bind present := by
  unfold given
  cases hi : fields[i]? with
  | none =>
    have hnone : (numbered fields).reverse.find? (fun it => it.field == i + 1) = none := by
      refine List.find?_eq_none.mpr fun it hit hf => ?_
      obtain ⟨j, hj, hfield⟩ := numbered_mem.mp (List.mem_reverse.mp hit)
      obtain rfl : j = i := by have := beq_iff_eq.mp hf; omega
      rw [hi] at hj; cases hj
    rw [hnone]; rfl
  | some vs =>
    have hsome : (numbered fields).reverse.find? (fun it => it.field == i + 1) = some ⟨i + 1, vs⟩ := by
      refine find?_unique (List.mem_reverse.mpr (numbered_mem.mpr ⟨i, hi, rfl⟩)) (by simp) fun it hit hf => ?_
      obtain ⟨j, hj, hfield⟩ := numbered_mem.mp (List.mem_reverse.mp hit)
      obtain rfl : j = i := by have := beq_iff_eq.mp hf; omega
      rw [hi] at hj
      cases it
      simp_all
    rw [hsome]; rfl

theorem map_asRead_numbered (fields : List (List Int)) :
    (numbered fields).map (·.asRead) = numbered (fields.map (·.map asRead)) := by
  simp only [numbered, List.zipIdx_map, List.map_map]
  rfl

/-- What numbered items give once their bytes have been read. -/
theorem given_asRead {fields : List (List Int)} {i : Nat} {vs : List Int} (h : fields[i]? = some vs)
    (hvs : ∀ v ∈ vs, Carries v) : given ((numbered fields).map (·.asRead)) (i + 1) = present vs := by
  rw [map_asRead_numbered, given_numbered, List.getElem?_map, h]
  exact congrArg present (map_asRead_of_carries hvs)

theorem fits_numbered {fields : List (List Int)} (hlen : fields.length ≤ 255)
    (h : ∀ vs ∈ fields, vs.length ≤ 255 ∧ ∀ v ∈ vs, FitsTwoBytes v) : ∀ it ∈ numbered fields, it.Fits := by
  intro it hit
  obtain ⟨i, hi, hfield⟩ := numbered_mem.mp hit
  obtain ⟨hlength, hvalues⟩ := h it.values (List.mem_of_getElem? hi)
  have hbound : i < fields.length := by
    by_contra hn
    rw [List.getElem?_eq_none (Nat.le_of_not_lt hn)] at hi
    cases hi
  exact ⟨by omega, hlength, hvalues⟩

theorem plain_numbered {fields : List (List Int)} (hlen : fields.length ≤ 255)
    (h : ∀ vs ∈ fields, vs.length ≤ 255 ∧ ∀ v ∈ vs, Carries v) : ∀ it ∈ numbered fields, it.Plain := by
  intro it hit
  have hfits := fits_numbered hlen (fun vs hvs => ⟨(h vs hvs).1, fun v hv => ((h vs hvs).2 v hv).fits⟩) it hit
  obtain ⟨hfield, hlength, -⟩ := hfits
  obtain ⟨i, hi, -⟩ := numbered_mem.mp hit
  exact ⟨hfield, hlength, (h it.values (List.mem_of_getElem? hi)).2⟩

/-- Items give only fields of a list when every other field is empty. -/
theorem onlyFields_numbered {fields : List (List Int)} {allowed : List Nat}
    (h : ∀ i vs, fields[i]? = some vs → vs = [] ∨ i + 1 ∈ allowed) : onlyFields (numbered fields) allowed = true := by
  refine List.all_eq_true.mpr fun it hit => ?_
  obtain ⟨i, hi, hfield⟩ := numbered_mem.mp hit
  rcases h i it.values hi with hvs | hmem
  · simp [hvs]
  · simp [hfield, hmem]

/-! ## Numbers -/

theorem carries_natCast {n : Nat} (h : n ≤ 32767) : Carries (n : Int) := ⟨by omega, by omega⟩

theorem natIn_natCast {lo hi v : Nat} (hlo : lo ≤ v) (hhi : v ≤ hi) : natIn lo hi [(v : Int)] = some v := by
  simp [natIn, intIn, hlo, hhi]

theorem natIn_out {lo hi : Nat} {v : Int} (h : v < lo ∨ (hi : Int) < v) : natIn lo hi [v] = none := by
  have hnot : ¬((lo : Int) ≤ v ∧ v ≤ hi) := by omega
  simp [natIn, intIn, hnot]

theorem natIn_int {lo hi : Nat} {v : Int} (hlo : (lo : Int) ≤ v) (hhi : v ≤ hi) : natIn lo hi [v] = some v.toNat := by
  simp [natIn, intIn, hlo, hhi]

/-- A number to 65535 is read back from its two bytes (log 6). -/
theorem wideNatIn_asRead {lo hi v : Nat} (hlo : lo ≤ v) (hhi : v ≤ hi) (hwide : v ≤ 65535) :
    wideNatIn lo hi [asRead v] = some v := by
  have hread : (if asRead v < 0 then asRead v + 65536 else asRead v) = (v : Int) := by
    unfold asRead
    split <;> split <;> omega
  simp only [wideNatIn, List.map_cons, List.map_nil, hread]
  exact natIn_natCast hlo hhi

section Fields

variable {items : List FieldItem} {n : Nat}

theorem required_of_given {α : Type} {read : List Int → Option α} {vs : List Int} (hg : given items n = some vs) :
    required items n read = read vs := by
  simp [required, hg]

theorem fieldOr_of_given {α : Type} {d : α} {read : List Int → Option α} {vs : List Int}
    (hg : given items n = some vs) : fieldOr items n d read = read vs := by
  simp [fieldOr, hg]

theorem fieldOr_absent {α : Type} {d : α} {read : List Int → Option α} (hg : given items n = none) :
    fieldOr items n d read = some d := by
  simp [fieldOr, hg]

theorem fieldOption_absent {α : Type} {read : List Int → Option α} (hg : given items n = none) :
    fieldOption items n read = some none := fieldOr_absent hg

theorem fieldOption_of_given {α : Type} {read : List Int → Option α} {vs : List Int} (hg : given items n = some vs) :
    fieldOption items n read = (read vs).map some := fieldOr_of_given hg

/-- An optional number in its range is read back. -/
theorem fieldOption_optNum {x : Option Nat} {lo hi : Nat} (hg : given items n = present (optNum x))
    (hx : ∀ v, x = some v → lo ≤ v ∧ v ≤ hi) : fieldOption items n (natIn lo hi) = some x := by
  cases x with
  | none => exact fieldOption_absent hg
  | some v =>
    obtain ⟨hlo, hhi⟩ := hx v rfl
    rw [fieldOption_of_given (vs := [(v : Int)]) hg, natIn_natCast hlo hhi]
    rfl

theorem required_num {v lo hi : Nat} (hg : given items n = present (num v)) (hlo : lo ≤ v) (hhi : v ≤ hi) :
    required items n (natIn lo hi) = some v := by
  rw [required_of_given (vs := [(v : Int)]) hg, natIn_natCast hlo hhi]

theorem fieldOr_num {v d lo hi : Nat} (hg : given items n = present (num v)) (hlo : lo ≤ v) (hhi : v ≤ hi) :
    fieldOr items n d (natIn lo hi) = some v := by
  rw [fieldOr_of_given (vs := [(v : Int)]) hg, natIn_natCast hlo hhi]

end Fields

/-! ## Lists -/

/-- A list of numbers as it is loaded. -/
def numberList (l : List Nat) : List Int := listField (l.map fun v : Nat => (v : Int))

/-- The list `l.map fun v => (v : Int)` as Lean reads it where a list of integers is expected: each member is first lifted,
and the lifted list mapped by the identity. -/
theorem lifted_natCast (l : List Nat) : (l.map fun v => (v : Int) : List Int) = List.map (fun v : Nat => (v : Int)) l := by
  induction l with
  | nil => rfl
  | cons a l ih => exact congrArg ((a : Int) :: ·) ih

theorem takeList_listField (l rest : List Int) : takeList (listField l ++ rest) = some (l, rest) := by
  simp [takeList, listField]

theorem wholeList_listField (l : List Int) : wholeList (listField l) = some l := by
  have h := takeList_listField l []
  rw [List.append_nil] at h
  simp [wholeList, h]

theorem map_toNat_natCast (l : List Nat) : (l.map fun v : Nat => (v : Int)).map Int.toNat = l := by
  simp [List.map_map, Function.comp_def]

theorem allIn_natCast {hi : Nat} {l : List Nat} :
    allIn 0 hi (l.map fun v : Nat => (v : Int)) = true ↔ ∀ v ∈ l, v ≤ hi := by
  simp [allIn]

theorem readXs_listField {lo hi : Int} {xs : List Int} (h2 : 2 ≤ xs.length) (h8 : xs.length ≤ 8)
    (hin : ∀ x ∈ xs, lo ≤ x ∧ x ≤ hi) : readXs lo hi (listField xs) = some xs := by
  have hall : allIn lo hi xs = true := by simpa [allIn] using hin
  simp [readXs, wholeList_listField, h2, h8, hall]

/-- The y values of a curve are taken exactly when they are as many as its breakpoints and in range (R10). -/
theorem readYs_numberList (n hi : Nat) (ys : List Nat) :
    readYs n hi (numberList ys) = if ys.length = n ∧ ∀ y ∈ ys, y ≤ hi then some ys else none := by
  simp only [readYs, numberList, wholeList_listField, List.length_map, allIn_natCast, map_toNat_natCast]

/-- A curve is made again of its x and its y values. -/
theorem makeCurve_parts (l : List Breakpoint) : makeCurve (l.map (·.x)) (l.map (·.y)) = l := by
  induction l with
  | nil => rfl
  | cons b l ih => exact congrArg (b :: ·) ih

end Sys2Proof.Machine
end


-- ==== Sys2Proof/Proofs/ResourceRead.lean ====
section
/-! SUPPORT. A resource record read back from the contents that READ returns of it (R10; logs 6, 12, 13). -/

namespace Sys2Proof.Machine

/-! ## Bindings (R6) -/

theorem takeCommandCurve_values {curve : List Breakpoint} (h : CurveInRange 0 10000 1023 curve) (rest : List Int) :
    takeCommandCurve (listField (curve.map (·.x)) ++ (numberList (curve.map (·.y)) ++ rest)) = some (curve, rest) := by
  obtain ⟨h2, h8, hin⟩ := h
  have hxs : allIn 0 10000 (curve.map (·.x)) = true := by
    simp only [allIn, List.all_eq_true, decide_eq_true_eq, List.mem_map, forall_exists_index, and_imp]
    rintro _ b hb rfl
    exact ⟨(hin b hb).1, (hin b hb).2.1⟩
  have hys : allIn 0 1023 ((curve.map (·.y)).map fun v : Nat => (v : Int)) = true := by
    refine allIn_natCast.mpr fun y hy => ?_
    obtain ⟨b, hb, rfl⟩ := List.mem_map.mp hy
    exact (hin b hb).2.2
  have hne : (curve.map (·.y)).map (fun v : Nat => (v : Int)) ≠ [] := by
    rintro h
    have := congrArg List.length h
    simp at this
    simp [this] at h2
  simp only [takeCommandCurve, takeList_listField, numberList, Option.bind_eq_bind, Option.bind_some]
  rw [if_pos ⟨by simpa using h2, by simpa using h8, hxs, .inr (by simp), hys⟩, if_neg hne, map_toNat_natCast,
    makeCurve_parts]

theorem bindingValues_level {b : Binding} {curve : List Breakpoint} (h : b.mode = .level curve) :
    bindingValues b = (b.channel : Int) :: 1 ::
      (listField (curve.map (·.x)) ++ (numberList (curve.map (·.y)) ++ [(b.loss : Int)])) := by
  simp only [bindingValues, h, numberList, List.map_map, Function.comp_def, List.append_assoc]; rfl

theorem bindingValues_split {b : Binding} {c : Nat} (h : b.mode = .split c) :
    bindingValues b = [(b.channel : Int), 2, (c : Int), (b.loss : Int)] := by
  simp only [bindingValues, h]; rfl

theorem takeBinding_values {b : Binding} (h : b.InRange) (rest : List Int) :
    takeBinding (bindingValues b ++ rest) = some (b, rest) := by
  obtain ⟨hchannel, hloss, hlevel, hsplit⟩ := h
  have htake : ∀ (vs : List Int), takeMode (vs ++ ((b.loss : Int) :: rest)) = some (b.mode, (b.loss : Int) :: rest) →
      takeBinding ((b.channel : Int) :: (vs ++ ((b.loss : Int) :: rest))) = some (b, rest) := by
    intro vs hmode
    simp only [takeBinding, natIn_natCast (Nat.zero_le _) hchannel, Option.bind_eq_bind, Option.bind_some, hmode,
      natIn_natCast (Nat.zero_le _) hloss]
    rfl
  cases hm : b.mode with
  | level curve =>
    have := htake (1 :: (listField (curve.map (·.x)) ++ numberList (curve.map (·.y)))) (by
      simp only [List.cons_append, List.append_assoc, takeMode, takeCommandCurve_values (hlevel curve hm),
        Option.map_some, hm])
    rw [bindingValues_level hm]
    simpa only [List.cons_append, List.append_assoc, List.nil_append] using this
  | split c =>
    have := htake [2, (c : Int)] (by
      show (natIn 0 2 [(c : Int)]).map (fun c => (BindingMode.split c, (b.loss : Int) :: rest)) = _
      rw [natIn_natCast (Nat.zero_le c) (hsplit c hm), hm]; rfl)
    rw [bindingValues_split hm]
    exact this

theorem takeBindings_values {l : List Binding} (h : ∀ b ∈ l, b.InRange) :
    takeBindings l.length (l.flatMap bindingValues) = some l := by
  induction l with
  | nil => rfl
  | cons b l ih =>
    simp only [List.flatMap_cons, List.length_cons, takeBindings, takeBinding_values (h b (by simp)),
      ih fun x hx => h x (by simp [hx]), Option.bind_eq_bind, Option.bind_some]
    rfl

theorem readBindings_values {l : List Binding} (h3 : l.length ≤ 3) (h : ∀ b ∈ l, b.InRange) :
    readBindings (counted l bindingValues) = some l := by
  have hcount : (0 : Int) ≤ (l.length : Int) ∧ (l.length : Int) ≤ 3 := by omega
  simp only [counted, readBindings, if_pos hcount, Int.toNat_natCast]
  exact takeBindings_values h

/-! ## What the bytes of the contents carry -/

theorem carries_listField {l : List Int} (hl : l.length ≤ 32767) (h : ∀ v ∈ l, Carries v) : ∀ v ∈ listField l, Carries v := by
  intro v hv
  rcases List.mem_cons.mp hv with rfl | hv
  · exact carries_natCast hl
  · exact h v hv

theorem carries_numberList {l : List Nat} (hl : l.length ≤ 32767) (h : ∀ n ∈ l, n ≤ 32767) :
    ∀ v ∈ numberList l, Carries v := by
  refine carries_listField (by simpa using hl) fun v hv => ?_
  obtain ⟨n, hn, rfl⟩ := List.mem_map.mp hv
  exact carries_natCast (h n hn)

theorem carries_optNum {x : Option Nat} (h : ∀ n, x = some n → n ≤ 32767) : ∀ v ∈ optNum x, Carries v := by
  intro v hv
  cases x with
  | none => cases hv
  | some n =>
    obtain rfl : v = n := List.mem_singleton.mp hv
    exact carries_natCast (h n rfl)

/-- The x and y values of a curve (R4). -/
theorem CurveInRange.carries {lo hi : Int} {top : Nat} {l : List Breakpoint} (h : CurveInRange lo hi top l)
    (hlo : -32768 ≤ lo) (hhi : hi ≤ 32767) (htop : top ≤ 32767) :
    (∀ v ∈ listField (l.map (·.x)), Carries v) ∧ ∀ v ∈ numberList (l.map (·.y)), Carries v := by
  obtain ⟨-, h8, hin⟩ := h
  refine ⟨carries_listField (by simp; omega) fun v hv => ?_, carries_numberList (by simp; omega) fun n hn => ?_⟩
  · obtain ⟨b, hb, rfl⟩ := List.mem_map.mp hv
    obtain ⟨h1, h2, -⟩ := hin b hb
    exact ⟨by omega, by omega⟩
  · obtain ⟨b, hb, rfl⟩ := List.mem_map.mp hn
    obtain ⟨-, -, h3⟩ := hin b hb
    omega

theorem bindingValues_carries {b : Binding} (h : b.InRange) :
    (bindingValues b).length ≤ 21 ∧ ∀ v ∈ bindingValues b, Carries v := by
  obtain ⟨hchannel, hloss, hlevel, hsplit⟩ := h
  have hc : Carries (b.channel : Int) := carries_natCast (by omega)
  have hl : Carries (b.loss : Int) := carries_natCast (by omega)
  cases hm : b.mode with
  | level curve =>
    have hcurve := hlevel curve hm
    obtain ⟨hxs, hys⟩ := hcurve.carries (by omega) (by omega) (by omega)
    obtain ⟨-, h8, -⟩ := hcurve
    rw [bindingValues_level hm]
    constructor
    · simp [listField, numberList]; omega
    · intro v hv
      simp only [List.mem_cons, List.mem_append, List.not_mem_nil, or_false] at hv
      rcases hv with rfl | rfl | hv | hv | rfl
      · exact hc
      · exact ⟨by omega, by omega⟩
      · exact hxs v hv
      · exact hys v hv
      · exact hl
  | split c =>
    have := hsplit c hm
    rw [bindingValues_split hm]
    refine ⟨by simp, fun v hv => ?_⟩
    simp only [List.mem_cons, List.not_mem_nil, or_false] at hv
    rcases hv with rfl | rfl | rfl | rfl
    · exact hc
    · exact ⟨by omega, by omega⟩
    · exact carries_natCast (by omega)
    · exact hl

theorem counted_bindings_carries {l : List Binding} (h3 : l.length ≤ 3) (h : ∀ b ∈ l, b.InRange) :
    (counted l bindingValues).length ≤ 255 ∧ ∀ v ∈ counted l bindingValues, Carries v := by
  have hsum : (l.flatMap bindingValues).length ≤ 21 * l.length := by
    clear h3
    induction l with
    | nil => simp
    | cons b l ih =>
      have h1 := (bindingValues_carries (h b (by simp))).1
      have h2 := ih fun x hx => h x (by simp [hx])
      simp only [List.flatMap_cons, List.length_append, List.length_cons]
      omega
  refine ⟨by simp only [counted, List.length_cons]; omega, fun v hv => ?_⟩
  rcases List.mem_cons.mp hv with rfl | hv
  · exact carries_natCast (by omega)
  · obtain ⟨b, hb, hv⟩ := List.mem_flatMap.mp hv
    exact (bindingValues_carries (h b hb)).2 v hv

/-! ## A whole record (R1, R10) -/

/-- The fields of a record other than UNUSED, in the order of R1. -/
def Resource.fields (x : Resource) : List (List Int) :=
  [[codeIn resKinds x.kind], optNum x.parent, optNum x.draw, listField (x.curve.map (·.x)), numberList (x.curve.map (·.y)),
    optNum x.input, optNum x.blind, optNum x.limitPoint, counted x.bindings bindingValues, optNum x.slot,
    optNum x.yieldTimeout, optNum x.probeCap]

theorem readContents_resource {s : State} {j : Nat} (hk : (s.resource j).kind ≠ .unused) :
    readContents 6 j s = numbered (s.resource j).fields := by
  simp only [readContents, readoutResource, if_neg hk, Resource.fields, numberList, List.map_map, Function.comp_def]

/-- What the items of a load give for the fields of a record, the yield timeout as its bytes are read (log 6). -/
structure GivesResource (items : List FieldItem) (x : Resource) : Prop where
  kind : given items 1 = some [codeIn resKinds x.kind]
  parent : given items 2 = present (optNum x.parent)
  draw : given items 3 = present (optNum x.draw)
  xs : given items 4 = some (listField (x.curve.map (·.x)))
  ys : given items 5 = some (numberList (x.curve.map (·.y)))
  input : given items 6 = present (optNum x.input)
  blind : given items 7 = present (optNum x.blind)
  limitPoint : given items 8 = present (optNum x.limitPoint)
  bindings : given items 9 = some (counted x.bindings bindingValues)
  slot : given items 10 = present (optNum x.slot)
  yieldTimeout : given items 11 = present ((optNum x.yieldTimeout).map asRead)

/-- The ranges of a record other than UNUSED (R1, R4, R6). -/
structure Resource.UsedInRange (x : Resource) : Prop where
  probeCap : x.probeCap = none
  curve : CurveInRange (-32768) 32767 10000 x.curve
  input : ∃ p ≤ 47, x.input = some p
  blind : ∃ b ≤ 10000, x.blind = some b
  limitPoint : ∀ p, x.limitPoint = some p → p ≤ 47
  bindingCount : x.bindings.length ≤ 3
  bindings : ∀ b ∈ x.bindings, b.InRange
  slot : ∀ k, x.slot = some k → k ≤ 3
  yieldTimeout : if x.kind = .parent then x.yieldTimeout = none else ∃ y, x.yieldTimeout = some y ∧ 500 ≤ y ∧ y ≤ 60000
  child : if x.kind = .child then (∃ p ≤ 11, x.parent = some p) ∧ ∃ d, x.draw = some d ∧ 50 ≤ d ∧ d ≤ 200
    else x.parent = none ∧ x.draw = none

theorem Resource.InRange.used {x : Resource} (h : x.InRange) (hk : x.kind ≠ .unused) : x.UsedInRange := by
  obtain ⟨hcap, h⟩ := h
  rw [if_neg hk] at h
  obtain ⟨hcurve, hinput, hblind, hlimit, hcount, hbindings, hslot, hyield, hchild⟩ := h
  exact ⟨hcap, hcurve, hinput, hblind, hlimit, hcount, hbindings, hslot, hyield, hchild⟩

/-- A field that a CHILD alone carries (R10). -/
theorem childField_of_given {items : List FieldItem} {k : ResKind} {n lo hi : Nat} {o : Option Nat}
    (hg : given items n = present (optNum o))
    (ho : if k = .child then ∃ v, o = some v ∧ lo ≤ v ∧ v ≤ hi else o = none) :
    childField items k n lo hi = some o := by
  unfold childField
  split
  · rename_i hk
    rw [if_pos hk] at ho
    obtain ⟨v, rfl, hlo, hhi⟩ := ho
    rw [required_num (v := v) hg hlo hhi]; rfl
  · rename_i hk
    rw [if_neg hk] at ho
    rw [ho]

/-- The yield timeout, which a PARENT does not carry (R1, R10; log 6). -/
theorem readYield_of_given {items : List FieldItem} {k : ResKind} {o : Option Nat}
    (hg : given items 11 = present ((optNum o).map asRead))
    (ho : if k = .parent then o = none else ∃ y, o = some y ∧ 500 ≤ y ∧ y ≤ 60000) :
    readYield items k = some o := by
  unfold readYield
  split
  · rename_i hk
    rw [if_pos hk] at ho
    rw [ho]
  · rename_i hk
    rw [if_neg hk] at ho
    obtain ⟨y, rfl, hlo, hhi⟩ := ho
    rw [fieldOr_of_given (vs := [asRead (y : Int)]) hg, wideNatIn_asRead hlo hhi (by omega)]; rfl

theorem carries_resKind (k : ResKind) : ∀ v ∈ [codeIn resKinds k], Carries v := by
  have hcode : 1 ≤ codeIn resKinds k ∧ codeIn resKinds k ≤ 4 := by cases k <;> decide
  intro v hv
  rw [List.mem_singleton.mp hv]
  exact ⟨by omega, by omega⟩

namespace Resource.UsedInRange

variable {x : Resource} (h : x.UsedInRange)
include h

theorem child_parent : if x.kind = .child then ∃ p, x.parent = some p ∧ 0 ≤ p ∧ p ≤ 11 else x.parent = none := by
  have hchild := h.child
  split <;> rename_i hk
  · rw [if_pos hk] at hchild
    obtain ⟨⟨p, hp, e⟩, -⟩ := hchild
    exact ⟨p, e, Nat.zero_le p, hp⟩
  · rw [if_neg hk] at hchild
    exact hchild.1

theorem child_draw : if x.kind = .child then ∃ d, x.draw = some d ∧ 50 ≤ d ∧ d ≤ 200 else x.draw = none := by
  have hchild := h.child
  split <;> rename_i hk
  · rw [if_pos hk] at hchild
    exact hchild.2
  · rw [if_neg hk] at hchild
    exact hchild.2

theorem parent_le {p : Nat} (hp : x.parent = some p) : p ≤ 11 := by
  have hparent := h.child_parent
  split at hparent
  · obtain ⟨q, e, -, hq⟩ := hparent
    rw [e] at hp; cases hp; exact hq
  · rw [hparent] at hp; cases hp

theorem draw_le {d : Nat} (hd : x.draw = some d) : 50 ≤ d ∧ d ≤ 200 := by
  have hdraw := h.child_draw
  split at hdraw
  · obtain ⟨q, e, hq⟩ := hdraw
    rw [e] at hd; cases hd; exact hq
  · rw [hdraw] at hd; cases hd

theorem yieldTimeout_le {y : Nat} (hy : x.yieldTimeout = some y) : 500 ≤ y ∧ y ≤ 60000 := by
  have := h.yieldTimeout
  split at this
  · rw [this] at hy; cases hy
  · obtain ⟨q, e, hq⟩ := this
    rw [e] at hy; cases hy; exact hq

/-- The bytes of the contents carry every field. -/
theorem fits_fields : ∀ it ∈ numbered x.fields, it.Fits := by
  obtain ⟨hxs, hys⟩ := h.curve.carries (by omega) (by omega) (by omega)
  obtain ⟨hbindings, hbinding⟩ := counted_bindings_carries h.bindingCount h.bindings
  obtain ⟨p, hp, hinput⟩ := h.input
  obtain ⟨b, hb, hblind⟩ := h.blind
  obtain ⟨-, h8, -⟩ := h.curve
  have hopt : ∀ {o : Option Nat}, (∀ n, o = some n → n ≤ 65535) →
      (optNum o).length ≤ 255 ∧ ∀ v ∈ optNum o, FitsTwoBytes v := by
    intro o ho
    cases o with
    | none => exact ⟨Nat.zero_le _, fun v hv => nomatch hv⟩
    | some n =>
      have := ho n rfl
      refine ⟨by simp [optNum, num], fun v hv => ?_⟩
      obtain rfl : v = n := List.mem_singleton.mp hv
      exact ⟨by omega, by omega⟩
  refine fits_numbered (by simp [Resource.fields]) fun vs hvs => ?_
  simp only [Resource.fields, List.mem_cons, List.not_mem_nil, or_false] at hvs
  rcases hvs with rfl | rfl | rfl | rfl | rfl | rfl | rfl | rfl | rfl | rfl | rfl | rfl
  · exact ⟨by simp, fun v hv => (carries_resKind x.kind v hv).fits⟩
  · exact hopt fun n hn => by have := h.parent_le hn; omega
  · exact hopt fun n hn => by have := h.draw_le hn; omega
  · exact ⟨by simp [listField]; omega, fun v hv => (hxs v hv).fits⟩
  · exact ⟨by simp [numberList, listField]; omega, fun v hv => (hys v hv).fits⟩
  · exact hopt fun n hn => by rw [hinput] at hn; cases hn; omega
  · exact hopt fun n hn => by rw [hblind] at hn; cases hn; omega
  · exact hopt fun n hn => by have := h.limitPoint n hn; omega
  · exact ⟨hbindings, fun v hv => (hbinding v hv).fits⟩
  · exact hopt fun n hn => by have := h.slot n hn; omega
  · exact hopt fun n hn => by have := h.yieldTimeout_le hn; omega
  · exact hopt fun n hn => by rw [h.probeCap] at hn; cases hn

/-- What the contents give once their bytes have been read. -/
theorem gives_fields : GivesResource ((numbered x.fields).map (·.asRead)) x := by
  obtain ⟨hxs, hys⟩ := h.curve.carries (by omega) (by omega) (by omega)
  obtain ⟨p, hp, hinput⟩ := h.input
  obtain ⟨b, hb, hblind⟩ := h.blind
  refine
    { kind := given_asRead (fields := x.fields) (i := 0) rfl (carries_resKind x.kind), parent := given_asRead rfl (carries_optNum fun n hn => ?_),
      draw := given_asRead rfl (carries_optNum fun n hn => ?_), xs := given_asRead rfl hxs, ys := given_asRead rfl hys,
      input := given_asRead rfl (carries_optNum fun n hn => ?_),
      blind := given_asRead rfl (carries_optNum fun n hn => ?_),
      limitPoint := given_asRead rfl (carries_optNum fun n hn => ?_),
      bindings := given_asRead rfl (counted_bindings_carries h.bindingCount h.bindings).2,
      slot := given_asRead rfl (carries_optNum fun n hn => ?_), yieldTimeout := ?_ }
  · have := h.parent_le hn; omega
  · have := h.draw_le hn; omega
  · rw [hinput] at hn; cases hn; omega
  · rw [hblind] at hn; cases hn; omega
  · have := h.limitPoint n hn; omega
  · have := h.slot n hn; omega
  · rw [map_asRead_numbered, given_numbered]; rfl

/-- The contents give no field that the kind does not carry. -/
theorem carried_fields (hk : x.kind ≠ .unused) : onlyFields (numbered x.fields) (carried x.kind) = true := by
  have hcap := h.probeCap
  have hchild := h.child
  have hyield := h.yieldTimeout
  cases hkind : x.kind with
  | unused => exact absurd hkind hk
  | plain =>
    obtain ⟨hparent, hdraw⟩ : x.parent = none ∧ x.draw = none := by simpa [hkind] using hchild
    simp [onlyFields, numbered, Resource.fields, carried, hparent, hdraw, hcap, optNum]
  | parent =>
    obtain ⟨hparent, hdraw⟩ : x.parent = none ∧ x.draw = none := by simpa [hkind] using hchild
    have hnone : x.yieldTimeout = none := by simpa [hkind] using hyield
    simp [onlyFields, numbered, Resource.fields, carried, hparent, hdraw, hnone, hcap, optNum]
  | child => simp [onlyFields, numbered, Resource.fields, carried, hcap, optNum]

/-- A record is read of what gives its fields (R10). -/
theorem readUsed_of_gives {items : List FieldItem} (g : GivesResource items x) : readUsed items x.kind = some x := by
  obtain ⟨h2, h8, hin⟩ := h.curve
  have hparent : childField items x.kind 2 0 11 = some x.parent :=
    childField_of_given g.parent h.child_parent
  have hdraw : childField items x.kind 3 50 200 = some x.draw :=
    childField_of_given g.draw h.child_draw
  have hxs : required items 4 (readXs (-32768) 32767) = some (x.curve.map (·.x)) := by
    rw [required_of_given g.xs]
    refine readXs_listField (by simpa using h2) (by simpa using h8) fun v hv => ?_
    obtain ⟨b, hb, rfl⟩ := List.mem_map.mp hv
    exact ⟨(hin b hb).1, (hin b hb).2.1⟩
  have hys : ∀ d, fieldOr items 5 d (readYs (x.curve.map (·.x)).length 10000) = some (x.curve.map (·.y)) := by
    intro d
    rw [fieldOr_of_given g.ys]
    refine (readYs_numberList _ _ _).trans (if_pos ⟨by simp, fun y hy => ?_⟩)
    obtain ⟨b, hb, rfl⟩ := List.mem_map.mp hy
    exact (hin b hb).2.2
  obtain ⟨p, hp, einput⟩ := h.input
  have hinput : required items 6 (natIn 0 47) = some p := by
    refine required_num ?_ (Nat.zero_le p) hp
    rw [g.input, einput]; rfl
  obtain ⟨b, hb, eblind⟩ := h.blind
  have hblind : ∀ d, fieldOr items 7 d (natIn 0 10000) = some b := by
    intro d
    refine fieldOr_num ?_ (Nat.zero_le b) hb
    rw [g.blind, eblind]; rfl
  have hlimit : fieldOption items 8 (natIn 0 47) = some x.limitPoint :=
    fieldOption_optNum g.limitPoint fun v hv => ⟨Nat.zero_le v, h.limitPoint v hv⟩
  have hbindings : ∀ d, fieldOr items 9 d readBindings = some x.bindings := by
    intro d
    rw [fieldOr_of_given g.bindings]
    exact readBindings_values h.bindingCount h.bindings
  have hslot : fieldOption items 10 (natIn 0 3) = some x.slot :=
    fieldOption_optNum g.slot fun v hv => ⟨Nat.zero_le v, h.slot v hv⟩
  have hyield : readYield items x.kind = some x.yieldTimeout := readYield_of_given g.yieldTimeout h.yieldTimeout
  have hx : x = { x with input := some p, blind := some b, probeCap := none } := by
    rw [← einput, ← eblind, ← h.probeCap]
  simp only [readUsed, hparent, hdraw, hxs, hys, hinput, hblind, hlimit, hbindings, hslot, hyield, Option.bind_eq_bind,
    Option.bind_some, makeCurve_parts]
  exact congrArg some hx.symm

end Resource.UsedInRange

/-- The items as their bytes are read give a field exactly when the items do. -/
theorem onlyFields_asRead (items : List FieldItem) (allowed : List Nat) :
    onlyFields (items.map (·.asRead)) allowed = onlyFields items allowed := by
  simp [onlyFields, FieldItem.asRead, List.all_map, Function.comp_def]

/-- READ's contents of a record in its ranges, read as a load (R10). -/
theorem readResource_contents {x : Resource} (h : x.UsedInRange) (hk : x.kind ≠ .unused) :
    readResource ((numbered x.fields).map (·.asRead)) = some x := by
  have g := h.gives_fields
  have hkind : required ((numbered x.fields).map (·.asRead)) 1 (nameAt resKinds) = some x.kind := by
    rw [required_of_given g.kind]
    cases x.kind <;> rfl
  simp only [readResource, hkind, Option.bind_eq_bind, Option.bind_some, onlyFields_asRead, h.carried_fields hk,
    if_true, if_neg hk, h.readUsed_of_gives g]

/-- The contents of a record that is UNUSED: its kind alone. -/
theorem readContents_unused {s : State} {j : Nat} (h : s.resource j = {}) :
    readContents 6 j s = numbered [[1], [], [], [], [], [], [], [], [], [], [], []] := by
  simp only [readContents, readoutResource, h]
  rfl

/-- READ's contents of a record in its ranges are carried by their bytes and read as the record. -/
theorem readContents_resource_loads {s : State} {j : Nat} (h : (s.resource j).InRange) :
    (∀ it ∈ readContents 6 j s, it.Fits) ∧
      readResource ((readContents 6 j s).map (·.asRead)) = some (s.resource j) := by
  by_cases hk : (s.resource j).kind = .unused
  · have hempty : s.resource j = {} := by
      obtain ⟨-, h⟩ := h
      rwa [if_pos hk] at h
    rw [readContents_unused hempty, hempty]
    refine ⟨fits_numbered (by simp) fun vs hvs => ?_, rfl⟩
    have hvs' : vs = [1] ∨ vs = [] := by simpa using hvs
    rcases hvs' with rfl | rfl <;> simp [FitsTwoBytes]
  · have hused := h.used hk
    rw [readContents_resource hk]
    exact ⟨hused.fits_fields, readResource_contents hused hk⟩

end Sys2Proof.Machine
end


-- ==== Sys2Proof/Proofs/ResourceTune.lean ====
section
/-! SUPPORT. A TUNABLE load of a resource record, item by item (R10; logs 13, 38). -/

namespace Sys2Proof.Machine

/-! ## The y values of a curve (R10) -/

/-- A curve with new y values in the place of its own. -/
def redrawn (ys : List Nat) (l : List Breakpoint) : List Breakpoint :=
  List.zipWith (fun p y => { p with y := y }) l ys

theorem makeCurve_xs (l : List Breakpoint) (ys : List Nat) : makeCurve (l.map (·.x)) ys = redrawn ys l := by
  simp only [makeCurve, redrawn, List.zipWith_map_left]

theorem replaceYs_numberList (hi : Nat) (l : List Breakpoint) (ys : List Nat) :
    replaceYs hi l (numberList ys) =
      if ys.length = l.length ∧ ∀ y ∈ ys, y ≤ hi then some (redrawn ys l) else none := by
  rw [replaceYs, readYs_numberList]
  split
  · rw [Option.map_some, makeCurve_xs]
  · rfl

/-! ## The command curves of a record's LEVEL bindings of a channel -/

/-- A binding with its command curve redrawn, when it is a LEVEL binding of the channel. -/
def Binding.redrawn (channel : Int) (ys : List Nat) (b : Binding) : Binding :=
  match b.mode with
  | .level l => if (b.channel : Int) = channel then { b with mode := .level (Machine.redrawn ys l) } else b
  | .split _ => b

/-- The y values fit the binding, which takes any when it is no LEVEL binding of the channel. -/
def Binding.TakesYs (channel : Int) (ys : List Nat) (b : Binding) : Prop :=
  ∀ l, b.mode = .level l → (b.channel : Int) = channel → ys.length = l.length ∧ ∀ y ∈ ys, y ≤ 1023

theorem Binding.replaceYs_of_takes {channel : Int} {ys : List Nat} {b : Binding} (h : b.TakesYs channel ys) :
    b.replaceYs channel (numberList ys) = some (b.redrawn channel ys) := by
  cases hm : b.mode with
  | level l =>
    by_cases hc : (b.channel : Int) = channel
    · have hread : Machine.replaceYs 1023 l (numberList ys) = some (Machine.redrawn ys l) :=
        (replaceYs_numberList 1023 l ys).trans (if_pos (h l hm hc))
      simp only [Binding.replaceYs, Binding.redrawn, hm, if_pos hc, hread, Option.map_some]
    · simp only [Binding.replaceYs, Binding.redrawn, hm, if_neg hc]
  | split c => simp only [Binding.replaceYs, Binding.redrawn, hm]

theorem Binding.replaceYs_of_not_takes {channel : Int} {ys : List Nat} {b : Binding} (h : ¬b.TakesYs channel ys) :
    b.replaceYs channel (numberList ys) = none := by
  unfold Binding.TakesYs at h
  push Not at h
  obtain ⟨l, hm, hc, hbad⟩ := h
  have hnot : ¬(ys.length = l.length ∧ ∀ y ∈ ys, y ≤ 1023) := by
    rintro ⟨hlen, hle⟩
    obtain ⟨y, hy, hlt⟩ := hbad hlen
    exact absurd (hle y hy) (by omega)
  have hread : Machine.replaceYs 1023 l (numberList ys) = none :=
    (replaceYs_numberList 1023 l ys).trans (if_neg hnot)
  simp only [Binding.replaceYs, hm, if_pos hc, hread, Option.map_none]

theorem mapM_some {α β : Type} {f : α → Option β} {g : α → β} {l : List α} (h : ∀ a ∈ l, f a = some (g a)) :
    l.mapM f = some (l.map g) := by
  induction l with
  | nil => rfl
  | cons a l ih => simp [h a (by simp), ih fun x hx => h x (by simp [hx])]

theorem mapM_none {α β : Type} {f : α → Option β} {l : List α} {a : α} (ha : a ∈ l) (h : f a = none) :
    l.mapM f = none := by
  induction l with
  | nil => cases ha
  | cons b l ih =>
    rcases List.mem_cons.mp ha with rfl | ha
    · simp [h]
    · simp [ih ha]

theorem any_isLevelOf (channel : Int) (l : List Binding) : l.any (·.isLevelOf channel) = true ↔
    ∃ b ∈ l, (b.channel : Int) = channel ∧ ∃ c, b.mode = .level c := by
  rw [List.any_eq_true]
  refine exists_congr fun b => and_congr_right fun _ => ?_
  unfold Binding.isLevelOf
  cases b.mode <;> simp

/-! ## One item -/

variable (x : Resource) {v : Int} {ys : List Nat}

theorem tuneResource_blind (hlo : 0 ≤ v) (hhi : v ≤ 10000) :
    tuneResource x ⟨7, [v]⟩ = .ok { x with blind := some v.toNat } := by
  have hread : natIn 0 10000 [v] = some v.toNat := natIn_int hlo hhi
  simp [tuneResource, hread]

theorem tuneResource_blind_out (h : ¬(0 ≤ v ∧ v ≤ 10000)) : tuneResource x ⟨7, [v]⟩ = .error .badValue := by
  have hread : natIn 0 10000 [v] = none := natIn_out (by omega)
  simp [tuneResource, hread]

theorem tuneResource_yield_parent (hk : x.kind = .parent) (vs : List Int) (hvs : vs ≠ []) :
    tuneResource x ⟨11, vs⟩ = .error .badIndex := by
  simp [tuneResource, hk, hvs]

theorem wideNatIn_nonneg {lo hi : Nat} (hv : 0 ≤ v) : wideNatIn lo hi [v] = natIn lo hi [v] := by
  simp [wideNatIn, Int.not_lt.mpr hv]

theorem tuneResource_yield (hk : x.kind ≠ .parent) (hlo : 500 ≤ v) (hhi : v ≤ 60000) :
    tuneResource x ⟨11, [v]⟩ = .ok { x with yieldTimeout := some v.toNat } := by
  have hread : wideNatIn 500 60000 [v] = some v.toNat := by
    rw [wideNatIn_nonneg (by omega), natIn_int hlo hhi]
  simp [tuneResource, hk, hread]

theorem tuneResource_yield_low (hk : x.kind ≠ .parent) (h0 : 0 ≤ v) (hlo : v < 500) :
    tuneResource x ⟨11, [v]⟩ = .error .badValue := by
  have hread : wideNatIn 500 60000 [v] = none := by
    rw [wideNatIn_nonneg h0, natIn_out (.inl hlo)]
  simp [tuneResource, hk, hread]

theorem numberList_ne_nil (ys : List Nat) : numberList ys ≠ [] := List.cons_ne_nil _ _

theorem tuneResource_curve (hlen : ys.length = x.curve.length) (hle : ∀ y ∈ ys, y ≤ 10000) :
    tuneResource x ⟨5, numberList ys⟩ = .ok { x with curve := redrawn ys x.curve } := by
  have hread : replaceYs 10000 x.curve (numberList ys) = some (redrawn ys x.curve) :=
    (replaceYs_numberList 10000 x.curve ys).trans (if_pos ⟨hlen, hle⟩)
  simp [tuneResource, hread, numberList_ne_nil]

theorem tuneResource_curve_bad (h : ys.length ≠ x.curve.length ∨ ∃ y ∈ ys, 10000 < y) :
    tuneResource x ⟨5, numberList ys⟩ = .error .badValue := by
  have hnot : ¬(ys.length = x.curve.length ∧ ∀ y ∈ ys, y ≤ 10000) := by
    rintro ⟨hlen, hle⟩
    rcases h with h | ⟨y, hy, hlt⟩
    · exact h hlen
    · exact absurd (hle y hy) (by omega)
  have hread : replaceYs 10000 x.curve (numberList ys) = none :=
    (replaceYs_numberList 10000 x.curve ys).trans (if_neg hnot)
  simp [tuneResource, hread, numberList_ne_nil]

theorem tuneResource_command_unbound (h : ∀ b ∈ x.bindings, ∀ l, b.mode = .level l → (b.channel : Int) ≠ v)
    (vs : List Int) : tuneResource x ⟨9, v :: vs⟩ = .error .badIndex := by
  have hnone : ¬x.bindings.any (·.isLevelOf v) = true := by
    rw [any_isLevelOf]
    rintro ⟨b, hb, hc, l, hm⟩
    exact h b hb l hm hc
  simp only [tuneResource, reduceCtorEq, if_false, if_neg hnone]

theorem tuneResource_command (hbound : ∃ b ∈ x.bindings, (b.channel : Int) = v ∧ ∃ l, b.mode = .level l)
    (h : ∀ b ∈ x.bindings, b.TakesYs v ys) : tuneResource x ⟨9, v :: numberList ys⟩ =
      .ok { x with bindings := x.bindings.map (·.redrawn v ys) } := by
  have hread : x.bindings.mapM (·.replaceYs v (numberList ys)) = some (x.bindings.map (·.redrawn v ys)) :=
    mapM_some fun b hb => Binding.replaceYs_of_takes (h b hb)
  simp only [tuneResource, reduceCtorEq, if_false, if_pos ((any_isLevelOf v x.bindings).mpr hbound), hread]

theorem tuneResource_command_bad (hbound : ∃ b ∈ x.bindings, (b.channel : Int) = v ∧ ∃ l, b.mode = .level l)
    {b : Binding} (hb : b ∈ x.bindings) (h : ¬b.TakesYs v ys) :
    tuneResource x ⟨9, v :: numberList ys⟩ = .error .badValue := by
  have hread : x.bindings.mapM (·.replaceYs v (numberList ys)) = none :=
    mapM_none hb (Binding.replaceYs_of_not_takes h)
  simp only [tuneResource, reduceCtorEq, if_false, if_pos ((any_isLevelOf v x.bindings).mpr hbound), hread]

/-! ## The load -/

/-- A TUNABLE load of one item of a used record is that item's (R10). -/
theorem loadResource_tunable {s : State} {n : Nat} (hk : (s.resource n).kind ≠ .unused) (it : FieldItem) :
    loadResource .tunable n [it] s = (tuneResource (s.resource n) it).map (s.setResource n) := by
  simp only [loadResource, if_neg hk, List.foldlM_cons, List.foldlM_nil, bind_pure]
  cases tuneResource (s.resource n) it <;> rfl

theorem loadResource_tunable_unused {s : State} {n : Nat} (hk : (s.resource n).kind = .unused) (items : List FieldItem) :
    loadResource .tunable n items s = .error .badIndex := by
  simp only [loadResource, if_pos hk]

end Sys2Proof.Machine
end


-- ==== Sys2Proof/Proofs/ChannelRead.lean ====
section
/-! SUPPORT. Channel records loaded: READ's contents of one read back, and the loads that are refused (R118, R121). -/

namespace Sys2Proof.Machine

/-- The values of a characteristic, none for a kind without one (R118; log 13). -/
def characteristicValues : Option (List Nat) → List Int
  | none => []
  | some l => numberList l

/-- The loaded fields of a channel, in the order of R118. -/
def Channel.fields (ch : Channel) : List (List Int) :=
  [[codeIn channelKinds ch.kind], num ch.station, num ch.output, characteristicValues ch.characteristic, num ch.minRun,
    num ch.slew, num ch.rampInterval, num ch.tolerance, num ch.ackLimit, num ch.refreshPeriod]

theorem readContents_channel {s : State} {j : Nat} {ch : Channel} (h : s.channel j = some ch) :
    readContents 7 j s = numbered ch.fields := by
  simp only [readContents, readoutChannel, h]
  cases hc : ch.characteristic with
  | none => simp only [Channel.fields, hc, characteristicValues]
  | some l => simp only [Channel.fields, hc, characteristicValues, numberList, lifted_natCast]

theorem carries_num {n : Nat} (h : n ≤ 32767) : (num n).length ≤ 255 ∧ ∀ v ∈ num n, Carries v := by
  refine ⟨by simp [num], fun v hv => ?_⟩
  rw [List.mem_singleton.mp hv]
  exact carries_natCast h

theorem readCharacteristic_numberList {l : List Nat} (h9 : l.length = 9) (hle : ∀ v ∈ l, v ≤ 1000) :
    readCharacteristic (numberList l) = some l := by
  have hin : allIn 0 1000 (l.map fun v : Nat => (v : Int)) = true := (allIn_natCast (hi := 1000)).mpr hle
  simp only [readCharacteristic, numberList, wholeList_listField, List.length_map, h9, hin, and_self, if_true,
    map_toNat_natCast]

namespace Channel.InRange

variable {ch : Channel} (h : ch.InRange)
include h

/-- A VALVE has nine values, every other kind none (R118). -/
theorem characteristic_cases : (ch.kind ≠ .valve ∧ ch.characteristic = none) ∨
    (ch.kind = .valve ∧ ∃ l, ch.characteristic = some l ∧ l.length = 9 ∧ ∀ v ∈ l, v ≤ 1000) := by
  obtain ⟨-, -, -, -, -, -, -, -, hshape⟩ := h
  by_cases hk : ch.kind = .valve
  · rw [if_pos hk] at hshape
    exact .inr ⟨hk, hshape⟩
  · rw [if_neg hk] at hshape
    exact .inl ⟨hk, hshape⟩

theorem plain_fields : ∀ it ∈ numbered ch.fields, it.Plain := by
  have hshape := h.characteristic_cases
  obtain ⟨hstation, houtput, hrun, hslew, hramp, htolerance, hack, hrefresh, -⟩ := h
  refine plain_numbered (by simp [Channel.fields]) fun vs hvs => ?_
  simp only [Channel.fields, List.mem_cons, List.not_mem_nil, or_false] at hvs
  rcases hvs with rfl | rfl | rfl | rfl | rfl | rfl | rfl | rfl | rfl | rfl
  · have hcode : 1 ≤ codeIn channelKinds ch.kind ∧ codeIn channelKinds ch.kind ≤ 5 := by cases ch.kind <;> decide
    refine ⟨by simp, fun v hv => ?_⟩
    rw [List.mem_singleton.mp hv]
    exact ⟨by omega, by omega⟩
  · exact carries_num (by omega)
  · exact carries_num (by omega)
  · rcases hshape with ⟨-, e⟩ | ⟨-, l, e, h9, hle⟩
    · rw [e]
      exact ⟨Nat.zero_le _, fun v hv => nomatch hv⟩
    · rw [e]
      exact ⟨by simp [characteristicValues, numberList, listField, h9],
        carries_numberList (by omega) fun n hn => by have := hle n hn; omega⟩
  · exact carries_num (by omega)
  · exact carries_num (by omega)
  · exact carries_num (by omega)
  · exact carries_num (by omega)
  · exact carries_num (by omega)
  · exact carries_num (by omega)

/-- READ's contents of a channel are read as the channel, its kept fields at their values after RESTART (R121, R142). -/
theorem readChannel_fields : readChannel (numbered ch.fields) = some (some ch.afterRestart) := by
  have hshape := h.characteristic_cases
  obtain ⟨⟨hstation1, hstation⟩, houtput, hrun, ⟨hslew1, hslew⟩, ⟨hramp1, hramp, hramp10⟩, htolerance, ⟨hack1, hack⟩,
    hrefresh, -⟩ := h
  have g : ∀ {i : Nat} {vs : List Int}, ch.fields[i]? = some vs → given (numbered ch.fields) (i + 1) = present vs := by
    intro i vs hi
    rw [given_numbered, hi]; rfl
  have hkind : fieldOption (numbered ch.fields) 1 (nameAt channelKinds) = some (some ch.kind) := by
    rw [fieldOption_of_given (vs := [codeIn channelKinds ch.kind]) (g (i := 0) rfl)]
    cases ch.kind <;> rfl
  have ha : fieldOption (numbered ch.fields) 2 (natIn 1 30) = some (some ch.station) := by
    rw [fieldOption_of_given (vs := [(ch.station : Int)]) (g (i := 1) rfl), natIn_natCast hstation1 hstation]; rfl
  have ho : fieldOr (numbered ch.fields) 3 0 (natIn 0 7) = some ch.output :=
    fieldOr_num (g (i := 2) rfl) (Nat.zero_le _) houtput
  have hshape' : fieldOption (numbered ch.fields) 4 readCharacteristic = some ch.characteristic := by
    have hg : given (numbered ch.fields) 4 = present (characteristicValues ch.characteristic) := g (i := 3) rfl
    rcases hshape with ⟨-, e⟩ | ⟨-, l, e, h9, hle⟩
    · rw [e] at hg ⊢
      exact fieldOption_absent hg
    · rw [e] at hg ⊢
      rw [fieldOption_of_given (vs := numberList l) hg, readCharacteristic_numberList h9 hle]; rfl
  have hcurve : characteristicFor ch.kind ch.characteristic = some ch.characteristic := by
    rcases hshape with ⟨hk, e⟩ | ⟨hk, l, e, -⟩
    · rw [e]
      cases hkind : ch.kind <;> first | rfl | exact absurd hkind hk
    · rw [e, hk]; rfl
  have hmin : fieldOr (numbered ch.fields) 5 0 (natIn 0 1023) = some ch.minRun :=
    fieldOr_num (g (i := 4) rfl) (Nat.zero_le _) hrun
  have htuned : ∀ base : Channel, readChannelTunables (numbered ch.fields) base = some
      { base with slew := ch.slew, rampInterval := ch.rampInterval, tolerance := ch.tolerance, ackLimit := ch.ackLimit,
                  refreshPeriod := ch.refreshPeriod } := by
    intro base
    have h6 : fieldOr (numbered ch.fields) 6 base.slew (natIn 1 1023) = some ch.slew :=
      fieldOr_num (g (i := 5) rfl) hslew1 hslew
    have h7 : fieldOr (numbered ch.fields) 7 base.rampInterval readRampInterval = some ch.rampInterval := by
      rw [fieldOr_of_given (vs := [(ch.rampInterval : Int)]) (g (i := 6) rfl), readRampInterval,
        natIn_natCast hramp1 hramp]
      exact if_pos hramp10
    have h8 : fieldOr (numbered ch.fields) 8 base.tolerance (natIn 0 1023) = some ch.tolerance :=
      fieldOr_num (g (i := 7) rfl) (Nat.zero_le _) htolerance
    have h9 : fieldOr (numbered ch.fields) 9 base.ackLimit (natIn 5 255) = some ch.ackLimit :=
      fieldOr_num (g (i := 8) rfl) hack1 hack
    have h10 : fieldOr (numbered ch.fields) 10 base.refreshPeriod (natIn 0 10000) = some ch.refreshPeriod :=
      fieldOr_num (g (i := 9) rfl) (Nat.zero_le _) hrefresh
    simp only [readChannelTunables, h6, h7, h8, h9, h10, Option.bind_eq_bind, Option.bind_some]
    rfl
  simp only [readChannel, hkind, ha, ho, hshape', hcurve, hmin, htuned, Option.bind_eq_bind, Option.bind_some]
  rfl

end Channel.InRange

/-- A channel after a load: HELD, or FAULTED beside a FAULTY station (R121). -/
theorem placeChannel_afterRestart (s : State) (ch : Channel) : placeChannel s ch.afterRestart =
    { ch with
      state := if stationFaulty ch.station s then .faulted else .held
      cause := if stationFaulty ch.station s then some .station else none
      hold := false, current := none, target := 0, split := 0, seqMin := 0, handshake := .clear, cmdSeq := 0,
      lastActual := none, rampTimer := .stopped, ackTimer := .stopped, refreshTimer := .stopped } := by
  rw [placeChannel, show ch.afterRestart.station = ch.station from rfl]
  cases stationFaulty ch.station s <;> rfl

theorem onlyFields_numbered_of_length {fields : List (List Int)} {allowed : List Nat}
    (h : ∀ i < fields.length, i + 1 ∈ allowed) : onlyFields (numbered fields) allowed = true :=
  onlyFields_numbered fun i vs hi => .inr (h i (by
    by_contra hn
    rw [List.getElem?_eq_none (Nat.le_of_not_lt hn)] at hi
    cases hi))

/-- A STRUCTURAL load of READ's contents of a channel (R121). -/
theorem loadChannel_contents {ch : Channel} (h : ch.InRange) (n : Nat) (s : State) :
    loadChannel .structural n (numbered ch.fields) s =
      .ok (reportChanges s (s.setChannel n (some (placeChannel s ch.afterRestart)))) := by
  have honly : onlyFields (numbered ch.fields) [1, 2, 3, 4, 5, 6, 7, 8, 9, 10] = true :=
    onlyFields_numbered_of_length fun i hi => by
      have : i < 10 := hi
      interval_cases i <;> simp
  simp only [loadChannel, withFields, honly, if_true, h.readChannel_fields, orBadValue, Option.map_some]

/-! ## Refused loads (R121) -/

section Refused

variable {items : List FieldItem} (n : Nat) (s : State)

/-- A load whose fields are those of a channel, but which are not read as one, is refused. -/
theorem loadChannel_refused (h : readChannel items = none) : loadChannel .structural n items s = .error .badValue := by
  simp only [loadChannel, withFields, h, orBadValue, ite_self]

/-- A slew outside its range is refused, whatever else the load gives. -/
theorem readChannel_badSlew {vs : List Int} (hg : given items 6 = some vs) (h : natIn 1 1023 vs = none) :
    readChannel items = none := by
  have htuned : ∀ base, readChannelTunables items base = none := by
    intro base
    simp only [readChannelTunables, fieldOr_of_given hg, h, Option.bind_eq_bind, Option.bind_none]
  simp only [readChannel, htuned, Option.bind_eq_bind, Option.bind_none, Option.bind_fun_none]

/-- A characteristic for a kind that has none is refused. -/
theorem readChannel_badShape {kind : ChannelKind} {shape : List Nat}
    (hkind : fieldOption items 1 (nameAt channelKinds) = some (some kind)) (hk : kind ≠ .valve)
    (hshape : fieldOption items 4 readCharacteristic = some (some shape)) : readChannel items = none := by
  have hcurve : characteristicFor kind (some shape) = none := by
    cases kind <;> first | rfl | exact absurd rfl hk
  simp only [readChannel, hkind, hshape, hcurve, Option.bind_eq_bind, Option.bind_some, Option.bind_none,
    Option.bind_fun_none]

end Refused

/-- A load that gives no kind unloads the channel (R121). -/
theorem loadChannel_empty (n : Nat) (s : State) :
    loadChannel .structural n [] s = .ok (reportChanges s (s.setChannel n none)) := rfl

end Sys2Proof.Machine
end


-- ==== Sys2Proof/Proofs/SlotRead.lean ====
section
/-! SUPPORT. Slot records loaded: READ's contents of one read back, the loads that are refused (R143, R145), and that a slot
between its steps is no part of the reports of a channel change (R148, R152). -/

namespace Sys2Proof.Machine

/-! ## A slot that is in no step -/

/-- A slot that is unloaded, or in no step of a start or a stop. -/
def InNoStep (x : Option Slot) : Prop := ∀ sl, x = some sl → sl.currentStep = none

theorem completeOn_inNoStep {s : State} {k : Nat} (h : InNoStep (s.slot k)) (n : Nat) : completeOn s k n = false := by
  unfold completeOn
  cases hs : s.slot k with
  | none => rfl
  | some sl => simp only [h sl hs]

theorem refreshMinimum_slot (n : Nat) (s : State) : (refreshMinimum n s).slot = s.slot := by
  funext k; simp [State.slot]

theorem reportToGtb_slot (n : Nat) (s : State) : (reportToGtb n s).slot = s.slot := by
  funext k; simp [State.slot]

section Other

variable {k : Nat} {x : Option Slot} (hx : InNoStep x)
include hx

/-- A step entered by another slot, and what that moves on, leaves a slot that is in none. -/
theorem enterStep_inNoStep {advance : Nat → State → State}
    (hadvance : ∀ j t, j ≠ k → t.slot k = x → (advance j t).slot k = x) {j : Nat} (hj : j ≠ k) (st : SlotState)
    {s : State} (h : s.slot k = x) : (enterStep advance j st s).slot k = x := by
  have hset : ∀ (t : State) (y : Option Slot), t.slot k = x → (t.setSlot j y).slot k = x := by
    intro t y ht
    rw [slot_setSlot, if_neg (fun e => hj e.1), ht]
  simp only [enterStep]
  repeat' split
  · exact h
  · exact hset _ _ h
  · refine forEach_induct (P := fun t => t.slot k = x) _ ?_ fun i _ t ht => ?_
    · rw [reportToGtb_slot, refreshMinimum_slot]
      exact hset _ _ h
    · by_cases hi : i = k
      · subst hi
        simp only [completeOn_inNoStep (ht.symm ▸ hx), Bool.false_eq_true, if_false]
        exact ht
      · split
        · exact hadvance i t hi ht
        · exact ht
  · refine hadvance j _ hj ?_
    rw [refreshMinimum_slot]
    exact hset _ _ h
  · rw [refreshMinimum_slot]
    exact hset _ _ h

theorem advanceSlot_inNoStep (fuel : Nat) {j : Nat} (hj : j ≠ k) {s : State} (h : s.slot k = x) :
    (advanceSlot fuel j s).slot k = x := by
  induction fuel generalizing j s with
  | zero => exact h
  | succ fuel ih =>
    have hset : ∀ y : Option Slot, (s.setSlot j y).slot k = x := by
      intro y
      rw [slot_setSlot, if_neg (fun e => hj e.1), h]
    simp only [advanceSlot]
    repeat' split
    · exact h
    · exact hset _
    · exact enterStep_inNoStep hx (fun i t hi ht => ih hi ht) hj _ h
    · exact hset _
    · exact enterStep_inNoStep hx (fun i t hi ht => ih hi ht) hj _ h
    · exact h

theorem reportToSsu_inNoStep (n : Nat) {s : State} (h : s.slot k = x) : (reportToSsu n s).slot k = x := by
  unfold reportToSsu
  refine forEach_induct (P := fun t => t.slot k = x) _ h fun i _ t ht => ?_
  by_cases hi : i = k
  · subst hi
    simp only [completeOn_inNoStep (ht.symm ▸ hx), Bool.false_eq_true, if_false]
    exact ht
  · split
    · exact advanceSlot_inNoStep hx _ hi ht
    · exact ht

/-- The reports of a channel change leave a slot that is in no step. -/
theorem reportChanges_inNoStep (before : State) {s : State} (h : s.slot k = x) :
    (reportChanges before s).slot k = x := by
  simp only [reportChanges]
  refine forEach_induct (P := fun t => t.slot k = x) _ ?_ fun i _ t ht => reportToSsu_inNoStep hx i ht
  exact forEach_induct (P := fun t => t.slot k = x) _ h fun i _ t ht => by rw [reportToGtb_slot]; exact ht

end Other

/-- A slot replaced by one that is in no step (R144, R145). -/
theorem replaceSlot_spec {k : Nat} (hk : k < 4) {x : Option Slot} (hx : InNoStep x) (s : State) :
    (replaceSlot k x s).stm = s.stm ∧ (replaceSlot k x s).pst = s.pst ∧ (replaceSlot k x s).cau = s.cau ∧
      (replaceSlot k x s).slot k = x := by
  have hminimums : ∀ l, OnlyReport s (forEach l refreshMinimum (s.setSlot k x)) ∧
      (forEach l refreshMinimum (s.setSlot k x)).slot k = x := by
    intro l
    refine forEach_induct (P := fun t => OnlyReport s t ∧ t.slot k = x) l ⟨by simp, ?_⟩ fun i _ t ht => ?_
    · rw [slot_setSlot, if_pos ⟨rfl, hk⟩]
    · rw [refreshMinimum_slot]
      exact ⟨by simp [ht.1], ht.2⟩
  obtain ⟨l, hl⟩ : ∃ l, replaceSlot k x s = reportChanges s (forEach l refreshMinimum (s.setSlot k x)) := ⟨_, rfl⟩
  obtain ⟨⟨-, -, -, hstm, hpst, hcau, -⟩, hslot⟩ := hminimums l
  obtain ⟨-, -, -, hstm', hpst', hcau', -⟩ := reportChanges_keeps (forEach l refreshMinimum (s.setSlot k x)) s
  rw [hl]
  exact ⟨hstm'.trans hstm, hpst'.trans hpst, hcau'.trans hcau, reportChanges_inNoStep hx s hslot⟩

/-! ## A slot read back (R143, R145) -/

/-- A step as it is loaded, with its limit (R143; log 13). -/
def stepValues (st : Step) : List Int := [(st.channel : Int), (st.run : Int), (st.limit : Int)]

theorem readContents_slot {s : State} {j : Nat} {sl : Slot} (h : s.slot j = some sl) : readContents 8 j s =
    [⟨1, num sl.resource⟩, ⟨2, counted sl.steps stepValues⟩, ⟨6, num sl.stopDelay⟩, ⟨7, num sl.antiCycle⟩] := by
  simp only [readContents, readoutSlot, h]
  rfl

/-- A step in the ranges of R143. -/
def Step.InRange (st : Step) : Prop := st.channel ≤ 15 ∧ (1 ≤ st.run ∧ st.run ≤ 1023) ∧ 1 ≤ st.limit ∧ st.limit ≤ 255

theorem takeSteps_values {l : List Step} (h : ∀ st ∈ l, st.InRange) :
    takeSteps true l.length (l.flatMap stepValues) = some l := by
  induction l with
  | nil => rfl
  | cons st l ih =>
    obtain ⟨hchannel, ⟨hrun1, hrun⟩, hlimit1, hlimit⟩ := h st (by simp)
    simp only [List.flatMap_cons, stepValues, List.cons_append, List.nil_append, List.length_cons, takeSteps,
      natIn_natCast (Nat.zero_le _) hchannel, natIn_natCast hrun1 hrun, natIn_natCast hlimit1 hlimit,
      Option.bind_eq_bind, Option.bind_some]
    rw [ih fun x hx => h x (by simp [hx])]
    rfl

theorem length_flatMap_stepValues (l : List Step) : (l.flatMap stepValues).length = 3 * l.length := by
  induction l with
  | nil => rfl
  | cons st l ih =>
    simp only [List.flatMap_cons, List.length_append, List.length_cons, ih, stepValues, List.length_nil]
    omega

theorem readSteps_values {l : List Step} (h1 : 1 ≤ l.length) (h6 : l.length ≤ 6) (h : ∀ st ∈ l, st.InRange) :
    readSteps (counted l stepValues) = some l := by
  have hcount : (1 : Int) ≤ (l.length : Int) ∧ (l.length : Int) ≤ 6 := by omega
  simp only [counted, readSteps, if_pos hcount, Int.toNat_natCast, length_flatMap_stepValues, decide_true]
  exact takeSteps_values h

namespace Slot.InRange

variable {sl : Slot} (h : sl.InRange)
include h

theorem plain_items : ∀ it ∈ ([⟨1, num sl.resource⟩, ⟨2, counted sl.steps stepValues⟩, ⟨6, num sl.stopDelay⟩,
    ⟨7, num sl.antiCycle⟩] : List FieldItem), it.Plain := by
  obtain ⟨hresource, ⟨-, h6⟩, hsteps, hstop, hrest⟩ := h
  intro it hit
  simp only [List.mem_cons, List.not_mem_nil, or_false] at hit
  rcases hit with rfl | rfl | rfl | rfl
  · exact ⟨by simp, carries_num (by omega)⟩
  · refine ⟨by simp, ?_, fun v hv => ?_⟩
    · simp only [counted, List.length_cons, length_flatMap_stepValues]
      omega
    · rcases List.mem_cons.mp hv with rfl | hv
      · exact carries_natCast (by omega)
      · obtain ⟨st, hst, hv⟩ := List.mem_flatMap.mp hv
        obtain ⟨hchannel, ⟨-, hrun⟩, -, hlimit⟩ := hsteps st hst
        simp only [stepValues, List.mem_cons, List.not_mem_nil, or_false] at hv
        rcases hv with rfl | rfl | rfl
        · exact carries_natCast (by omega)
        · exact carries_natCast (by omega)
        · exact carries_natCast (by omega)
  · exact ⟨by simp, carries_num (by omega)⟩
  · exact ⟨by simp, carries_num (by omega)⟩

/-- A STRUCTURAL load of READ's contents of a slot (R145). -/
theorem loadSlot_contents (k : Nat) (s : State) :
    loadSlot .structural k [⟨1, num sl.resource⟩, ⟨2, counted sl.steps stepValues⟩, ⟨6, num sl.stopDelay⟩,
      ⟨7, num sl.antiCycle⟩] s = .ok (replaceSlot k (some (sl.afterRestart s.now)) s) := by
  obtain ⟨hresource, ⟨h1, h6⟩, hsteps, hstop, hrest⟩ := h
  generalize hitems : ([⟨1, num sl.resource⟩, ⟨2, counted sl.steps stepValues⟩, ⟨6, num sl.stopDelay⟩,
    ⟨7, num sl.antiCycle⟩] : List FieldItem) = items
  have honly : onlyFields items [1, 2, 5, 6, 7] = true := by subst hitems; simp [onlyFields]
  have hbase : readSlotBase items =
      some (some { resource := sl.resource, steps := sl.steps, stopDelay := 10, antiCycle := 120 }) := by
    have hr : fieldOption items 1 (natIn 0 11) = some (some sl.resource) :=
      fieldOption_optNum (x := some sl.resource) (by subst hitems; rfl) fun v hv => by cases hv; omega
    have hs : fieldOption items 2 readSteps = some (some sl.steps) := by
      rw [fieldOption_of_given (vs := counted sl.steps stepValues) (by subst hitems; rfl), readSteps_values h1 h6 hsteps]
      rfl
    simp only [readSlotBase, hr, hs, Option.bind_eq_bind, Option.bind_some]
    rfl
  have htune : ∀ x : Slot, tuneSlot items x =
      .ok { x with stopDelay := sl.stopDelay, antiCycle := sl.antiCycle } := by
    intro x
    have hfold : items.foldlM tuneStep x.steps = .ok x.steps := by subst hitems; rfl
    have h6 : fieldOr items 6 x.stopDelay (natIn 0 60) = some sl.stopDelay :=
      fieldOr_num (by subst hitems; rfl) (Nat.zero_le _) hstop
    have h7 : fieldOr items 7 x.antiCycle (natIn 0 600) = some sl.antiCycle :=
      fieldOr_num (by subst hitems; rfl) (Nat.zero_le _) hrest
    simp only [tuneSlot, hfold, h6, h7]
  simp only [loadSlot, withFields, honly, if_true, hbase, orBadValue, htune]
  rfl

end Slot.InRange

/-! ## Other loads (R145) -/

/-- A load that gives no resource unloads the slot when its other values are in range. -/
theorem loadSlot_empty (k : Nat) (s : State) : loadSlot .structural k [] s = .ok (replaceSlot k none s) := rfl

/-- A stop delay out of its range is refused also in a load that unloads the slot. -/
theorem loadSlot_badStopDelay (k : Nat) (s : State) {v : Int} (h : v < 0 ∨ 60 < v) :
    loadSlot .structural k [⟨6, [v]⟩] s = .error .badValue := by
  have hread : natIn 0 60 [v] = none := natIn_out h
  have hrange : tunablesInRange [⟨6, [v]⟩] = false := by
    have hfield : fieldOr [⟨6, [v]⟩] 6 0 (natIn 0 60) = none := hread
    simp only [tunablesInRange, hfield, Option.isSome_none, Bool.and_false, Bool.false_and]
  show (if tunablesInRange [⟨6, [v]⟩] then .ok (replaceSlot k none s) else .error .badValue : Loaded) = .error .badValue
  rw [hrange]; rfl

/-- So is an anti-cycle time. -/
theorem loadSlot_badAntiCycle (k : Nat) (s : State) {v : Int} (h : v < 0 ∨ 600 < v) :
    loadSlot .structural k [⟨7, [v]⟩] s = .error .badValue := by
  have hread : natIn 0 600 [v] = none := natIn_out h
  have hrange : tunablesInRange [⟨7, [v]⟩] = false := by
    have hfield : fieldOr [⟨7, [v]⟩] 7 0 (natIn 0 600) = none := hread
    simp only [tunablesInRange, hfield, Option.isSome_none, Bool.and_false]
  show (if tunablesInRange [⟨7, [v]⟩] then .ok (replaceSlot k none s) else .error .badValue : Loaded) = .error .badValue
  rw [hrange]; rfl

/-- Steps that are not read refuse the load. -/
theorem loadSlot_badSteps (k : Nat) (s : State) {vs : List Int} (hvs : vs ≠ []) (h : readSteps vs = none) :
    loadSlot .structural k [⟨1, [0]⟩, ⟨2, vs⟩] s = .error .badValue := by
  have hgiven : given [⟨1, [0]⟩, ⟨2, vs⟩] 2 = some vs := by
    show (if vs = [] then none else some vs) = some vs
    exact if_neg hvs
  have hbase : readSlotBase [⟨1, [0]⟩, ⟨2, vs⟩] = none := by
    simp only [readSlotBase, fieldOption_of_given hgiven, h, Option.map_none, Option.bind_eq_bind, Option.bind_none,
      Option.bind_fun_none]
  simp only [loadSlot, withFields, hbase, orBadValue, ite_self]

end Sys2Proof.Machine
end


-- ==== Sys2Proof/Proofs/PlantLoads.lean ====
section
/-! SUPPORT. The loads of resource, channel and slot records, assembled (R10, R121, R145, R200). -/

namespace Sys2Proof.Machine

theorem takesLoad_resource {n : Nat} (h : n < 12) (c : LoadClass) : TakesLoad 6 n c :=
  ⟨12, [.structural, .tunable], rfl, h, by cases c <;> simp⟩

theorem takesLoad_channel {n : Nat} (h : n < 16) (c : LoadClass) : TakesLoad 7 n c :=
  ⟨16, [.structural, .tunable], rfl, h, by cases c <;> simp⟩

theorem takesLoad_slot {n : Nat} (h : n < 4) (c : LoadClass) : TakesLoad 8 n c :=
  ⟨4, [.structural, .tunable], rfl, h, by cases c <;> simp⟩

theorem classAllowed_tunable (s : State) : ClassAllowed .tunable s := fun h => by cases h

theorem classAllowed_config {s : State} (h : s.mgu.part = .config) (c : LoadClass) : ClassAllowed c s := fun _ => h

section

variable {m : ManageCtx} {s t : State} (hm : FromManager m s)
include hm

/-! ## STRUCTURAL loads of READ's contents -/

variable (hconfig : (loadTaken m s).mgu.part = .config) {n j : Nat} {u : State}
include hconfig

theorem resource_contents_load (hn : n < 12) (h : (u.resource j).InRange) :
    LoadDone m (loadOf m 6 n 1 (readContents 6 j u)) s ((loadTaken m s).setResource n (u.resource j)) := by
  obtain ⟨hfits, hread⟩ := readContents_resource_loads h
  refine loadDone_of_owner hm (takesLoad_resource hn .structural) (classAllowed_config hconfig _) hfits ?_
  show loadResource .structural n _ _ = _
  simp only [loadResource, hread, orBadValue]

theorem channel_contents_load (hn : n < 16) {ch : Channel} (hch : u.channel j = some ch) (h : ch.InRange) :
    LoadDone m (loadOf m 7 n 1 (readContents 7 j u)) s (reportChanges (loadTaken m s)
      ((loadTaken m s).setChannel n (some (placeChannel (loadTaken m s) ch.afterRestart)))) := by
  rw [readContents_channel hch]
  exact loadDone_of_plain hm (takesLoad_channel hn .structural) (classAllowed_config hconfig _) h.plain_fields
    (loadChannel_contents h n _)

theorem slot_contents_load (hn : n < 4) {sl : Slot} (hsl : u.slot j = some sl) (h : sl.InRange) :
    LoadDone m (loadOf m 8 n 1 (readContents 8 j u)) s
      (replaceSlot n (some (sl.afterRestart (loadTaken m s).now)) (loadTaken m s)) := by
  rw [readContents_slot hsl]
  exact loadDone_of_plain hm (takesLoad_slot hn .structural) (classAllowed_config hconfig _) h.plain_items
    (h.loadSlot_contents n _)

/-! ## STRUCTURAL loads that unload a record or are refused -/

/-- A kind of UNUSED empties the record and carries no other field; a load without a kind is refused (R10; log 14). -/
theorem resource_kind_loads (hn : n < 12) :
    LoadDone m (loadOf m 6 n 1 [⟨1, [1]⟩]) s ((loadTaken m s).setResource n {}) ∧
      LoadRefused m (loadOf m 6 n 1 [⟨1, [1]⟩, ⟨7, [100]⟩]) s .badValue ∧
      LoadRefused m (loadOf m 6 n 1 []) s .badValue := by
  have htable := takesLoad_resource hn .structural
  have hclass := classAllowed_config hconfig .structural
  exact ⟨loadDone_of_plain hm htable hclass (by simp [FieldItem.Plain, Carries]) rfl,
    loadRefused_of_plain hm htable hclass (by simp [FieldItem.Plain, Carries]) rfl,
    loadRefused_of_plain hm htable hclass (by simp) rfl⟩

/-- A load without a kind unloads the channel; a slew out of its range, and a characteristic for a kind that has none, are
refused (R121). -/
theorem channel_loads (hn : n < 16) {v : Int} (hv : Carries v) :
    LoadDone m (loadOf m 7 n 1 []) s (reportChanges (loadTaken m s) ((loadTaken m s).setChannel n none)) ∧
      (v < 1 ∨ 1023 < v → LoadRefused m (loadOf m 7 n 1 [⟨1, [1]⟩, ⟨2, [5]⟩, ⟨6, [v]⟩]) s .badValue) ∧
      ∀ k ∈ ([1, 2, 4, 5] : List Int), LoadRefused m (loadOf m 7 n 1
        [⟨1, [k]⟩, ⟨2, [5]⟩, ⟨4, [9, 0, 1, 2, 3, 4, 5, 6, 7, 8]⟩]) s .badValue := by
  have htable := takesLoad_channel hn .structural
  have hclass := classAllowed_config hconfig .structural
  refine ⟨loadDone_of_plain hm htable hclass (by simp) (loadChannel_empty n _), fun hout => ?_, fun k hk => ?_⟩
  · refine loadRefused_of_plain hm htable hclass (by simpa [FieldItem.Plain, Carries] using hv) ?_
    exact loadChannel_refused n _ (readChannel_badSlew (vs := [v]) rfl (natIn_out hout))
  · obtain ⟨kind, hkind, hne⟩ : ∃ kind, nameAt channelKinds [k] = some kind ∧ kind ≠ .valve := by
      simp only [List.mem_cons, List.not_mem_nil, or_false] at hk
      rcases hk with rfl | rfl | rfl | rfl
      · exact ⟨.pump, rfl, by decide⟩
      · exact ⟨.fan, rfl, by decide⟩
      · exact ⟨.compressor, rfl, by decide⟩
      · exact ⟨.heater, rfl, by decide⟩
    have hplain : Carries k := by
      simp only [List.mem_cons, List.not_mem_nil, or_false] at hk
      exact ⟨by omega, by omega⟩
    refine loadRefused_of_plain hm htable hclass (by simpa [FieldItem.Plain, Carries] using hplain) ?_
    refine loadChannel_refused n _ (readChannel_badShape (kind := kind) (shape := [0, 1, 2, 3, 4, 5, 6, 7, 8]) ?_ hne rfl)
    rw [fieldOption_of_given (vs := [k]) rfl, hkind]; rfl

/-- A load without a resource unloads the slot; values out of range, and steps without one, are refused (R145). -/
theorem slot_loads (hn : n < 4) {v : Int} (hv : Carries v) :
    (∃ t, LoadDone m (loadOf m 8 n 1 []) s t ∧ t.slot n = none) ∧
      (v < 0 ∨ 60 < v → LoadRefused m (loadOf m 8 n 1 [⟨6, [v]⟩]) s .badValue) ∧
      (v < 0 ∨ 600 < v → LoadRefused m (loadOf m 8 n 1 [⟨7, [v]⟩]) s .badValue) ∧
      (v < 1 ∨ 1023 < v → LoadRefused m (loadOf m 8 n 1 [⟨1, [0]⟩, ⟨2, [1, 3, v]⟩]) s .badValue) ∧
      LoadRefused m (loadOf m 8 n 1 [⟨1, [0]⟩, ⟨2, [0]⟩]) s .badValue := by
  have htable := takesLoad_slot hn .structural
  have hclass := classAllowed_config hconfig .structural
  have hunloaded := replaceSlot_spec hn (x := none) (fun _ h => by cases h) (loadTaken m s)
  refine ⟨⟨_, loadDone_of_plain hm htable hclass (by simp) (loadSlot_empty n _), hunloaded.2.2.2⟩, fun hout => ?_,
    fun hout => ?_, fun hout => ?_, ?_⟩
  · exact loadRefused_of_plain hm htable hclass (by simpa [FieldItem.Plain, Carries] using hv)
      (loadSlot_badStopDelay n _ hout)
  · exact loadRefused_of_plain hm htable hclass (by simpa [FieldItem.Plain, Carries] using hv)
      (loadSlot_badAntiCycle n _ hout)
  · refine loadRefused_of_plain hm htable hclass (by simpa [FieldItem.Plain, Carries] using hv)
      (loadSlot_badSteps n _ (by simp) ?_)
    have hrun : natIn 1 1023 [v] = none := natIn_out hout
    have hsteps : takeSteps false 1 [3, v] = none := by
      simp only [takeSteps, hrun, Option.bind_eq_bind, Option.bind_none, Option.bind_fun_none]
    exact hsteps
  · exact loadRefused_of_plain hm htable hclass (by simp [FieldItem.Plain, Carries]) (loadSlot_badSteps n _ (by simp) rfl)

omit hconfig

/-! ## TUNABLE loads of a resource -/

theorem resource_tune_done (hn : n < 12) (hk : ((loadTaken m s).resource n).kind ≠ .unused) {it : FieldItem}
    (hplain : it.Plain) {x : Resource} (h : tuneResource ((loadTaken m s).resource n) it = .ok x) :
    LoadDone m (loadOf m 6 n 2 [it]) s ((loadTaken m s).setResource n x) := by
  refine loadDone_of_plain hm (takesLoad_resource hn .tunable) (classAllowed_tunable _) (by simpa using hplain) ?_
  exact (loadResource_tunable hk it).trans (by rw [h]; rfl)

theorem resource_tune_refused (hn : n < 12) (hk : ((loadTaken m s).resource n).kind ≠ .unused) {it : FieldItem}
    (hplain : it.Plain) {e : Status} (h : tuneResource ((loadTaken m s).resource n) it = .error e) :
    LoadRefused m (loadOf m 6 n 2 [it]) s e := by
  refine loadRefused_of_plain hm (takesLoad_resource hn .tunable) (classAllowed_tunable _) (by simpa using hplain) ?_
  exact (loadResource_tunable hk it).trans (by rw [h]; rfl)

end

/-- An item of a list of numbers that the bytes carry, and of such a list behind a channel. -/
theorem plain_numberList {ys : List Nat} (hlen : ys.length ≤ 100) (hle : ∀ y ∈ ys, y ≤ 32767) :
    (⟨5, numberList ys⟩ : FieldItem).Plain ∧ ∀ v, Carries v → (⟨9, v :: numberList ys⟩ : FieldItem).Plain := by
  have hlist := carries_numberList (by omega) hle
  have hlength : (numberList ys).length = ys.length + 1 := by simp [numberList, listField]
  refine ⟨⟨by simp, by dsimp only; omega, hlist⟩, fun v hv => ⟨by simp, ?_, fun x hx => ?_⟩⟩
  · simp only [List.length_cons]; omega
  · rcases List.mem_cons.mp hx with rfl | hx
    · exact hv
    · exact hlist x hx

/-- The y values fit every LEVEL binding of a channel that has one (R10). -/
theorem takesYs_iff {x : Resource} {v : Int} {ys : List Nat}
    (hbound : ∃ b ∈ x.bindings, (b.channel : Int) = v ∧ ∃ l, b.mode = .level l) :
    ((∀ y ∈ ys, y ≤ 1023) ∧ ∀ b ∈ x.bindings, ∀ l, b.mode = .level l → (b.channel : Int) = v → l.length = ys.length) ↔
      ∀ b ∈ x.bindings, b.TakesYs v ys := by
  constructor
  · rintro ⟨hle, hlen⟩ b hb l hm hc
    exact ⟨(hlen b hb l hm hc).symm, hle⟩
  · intro h
    obtain ⟨b, hb, hc, l, hm⟩ := hbound
    exact ⟨(h b hb l hm hc).2, fun b hb l hm hc => (h b hb l hm hc).1.symm⟩

/-- Settles O26: each load is its table's, its items read back from their bytes. -/
theorem plantRecordsLoaded : Obligations.PlantRecordsLoaded := by
  intro m n j v u s hm hv s0
  refine ⟨fun hconfig hn h => resource_contents_load hm hconfig hn h, fun hconfig hn ch hch h => ?_,
    fun hconfig hn sl hsl h => ?_, fun hconfig => ⟨fun hn => resource_kind_loads hm hconfig hn,
      fun hn => channel_loads hm hconfig hn hv, fun hn => slot_loads hm hconfig hn hv⟩,
    fun hn => ?_⟩
  · have hload := channel_contents_load hm hconfig hn hch h
    rw [placeChannel_afterRestart] at hload
    exact hload
  · obtain ⟨hstm, hpst, hcau, hslot⟩ :=
      replaceSlot_spec hn (x := some (sl.afterRestart s0.now)) (fun _ h => by cases h; rfl) s0
    exact ⟨_, slot_contents_load hm hconfig hn hsl h, hstm, hpst, hcau,
      hslot.trans (congrArg some (Slot.afterRestart_eq s0.now sl))⟩
  intro x
  refine ⟨fun hunused => ?_, fun hk => ?_⟩
  · exact loadRefused_of_plain hm (takesLoad_resource hn .tunable) (classAllowed_tunable _)
      (by simpa [FieldItem.Plain] using hv) (loadResource_tunable_unused hunused _)
  have hone : ∀ field ≤ 255, (⟨field, [v]⟩ : FieldItem).Plain := fun field hf =>
    ⟨hf, by simp, by simpa using hv⟩
  have hdone : ∀ {it : FieldItem} {y : Resource}, it.Plain → tuneResource x it = .ok y →
      LoadDone m (loadOf m 6 n 2 [it]) s (s0.setResource n y) := fun hp h => resource_tune_done hm hn hk hp h
  have hrefused : ∀ {it : FieldItem} {e : Status}, it.Plain → tuneResource x it = .error e →
      LoadRefused m (loadOf m 6 n 2 [it]) s e := fun hp h => resource_tune_refused hm hn hk hp h
  refine ⟨fun hlo hhi => hdone (hone 7 (by omega)) (tuneResource_blind x hlo hhi),
    fun hout => hrefused (hone 7 (by omega)) (tuneResource_blind_out x hout),
    fun hparent => hrefused (by simp [FieldItem.Plain, Carries]) (tuneResource_yield_parent x hparent [1000] (by simp)),
    fun hchild => ⟨fun hlo => hdone (hone 11 (by omega)) (tuneResource_yield x hchild hlo (by have := hv.2; omega)),
      fun h0 hlo => hrefused (hone 11 (by omega)) (tuneResource_yield_low x hchild h0 hlo)⟩,
    fun ys hlen hle => ?_⟩
  intro list redrawn
  obtain ⟨hcurve, hcommand⟩ := plain_numberList hlen hle
  have hlist : list = numberList ys := by
    show (ys.length : Int) :: _ = _
    rw [lifted_natCast, numberList, listField, List.length_map]
  rw [hlist]
  refine ⟨fun heq hrange => hdone hcurve (tuneResource_curve x heq hrange),
    fun hbad => hrefused hcurve (tuneResource_curve_bad x hbad),
    fun hunbound => hrefused (hcommand v hv) (tuneResource_command_unbound x hunbound _), fun hbound => ?_⟩
  intro fits
  have hfits : fits ↔ ∀ b ∈ x.bindings, b.TakesYs v ys := takesYs_iff hbound
  refine ⟨fun h => hdone (hcommand v hv) (tuneResource_command x hbound (hfits.mp h)), fun h => ?_⟩
  rw [hfits] at h
  push Not at h
  obtain ⟨b, hb, hnot⟩ := h
  exact hrefused (hcommand v hv) (tuneResource_command_bad x hbound hb hnot)

end Sys2Proof.Machine
end


-- ==== Sys2Proof/Proofs/StaleTimer.lean ====
section
/-! SUPPORT. The expiry of a point's stale timer (R33). -/

namespace Sys2Proof.Machine

/-- Every point after the expiry of a stale timer (R33). -/
theorem staleExpired_point (p p' : Nat) (s : State) :
    (staleExpired p s).point p' = if p = p' ∧ p' < 48 then
      { s.point p with candidate := none, staleTimer := .stopped,
                       quality := if (s.point p).substitute.isSome then .substituted else .stale }
      else s.point p' := by
  have hpst : (staleExpired p s).pst = (s.setPoint p
      { s.point p with candidate := none, staleTimer := .stopped,
                       quality := if (s.point p).substitute.isSome then .substituted else .stale }).pst := by
    simp only [staleExpired]
    split <;> simp
  rw [State.point, hpst]
  exact point_setPoint s p p' _

theorem staleExpired_alerts (p : Nat) (s : State) :
    (staleExpired p s).alc.alerts =
      if (s.point p).substitute.isSome then s.alc.alerts else raisedList ⟨3, p⟩ s.alc.alerts := by
  simp only [staleExpired]
  split
  · rfl
  · rw [raiseAlert_alerts]; rfl

/-- Settles O38: the expiry moves the clock, and `staleExpired` writes the one point. -/
theorem staleTimerEndsStanding : Obligations.StaleTimerEndsStanding := by
  intro p d s hp
  have hexec : exec (.staleTimerExpiry p) s = match expire (s.point p).staleTimer s with
    | none => .next s
    | some s => .next (staleExpired p s) := rfl
  refine ⟨fun hidle => by rw [hexec, expire_none s hidle], fun hrun => ?_⟩
  rw [expire_running s hrun] at hexec
  obtain ⟨h1, h2, h3, h4, h5, h6, h7, h8, h9, h10, h11, h12, h13⟩ := staleExpired_keeps { s with now := max s.now d } p
  refine ⟨_, hexec, h1, ?_, fun p' hne => ?_, staleExpired_alerts p _, ?_⟩
  · exact (staleExpired_point p p _).trans (if_pos ⟨rfl, hp⟩)
  · exact (staleExpired_point p p' _).trans (if_neg fun h => hne h.1.symm)
  · exact State.ext_fields (by simp [*])

end Sys2Proof.Machine
end


-- ==== Sys2Proof/Proofs/StationReturn.lean ====
section
/-! SUPPORT. RETURN-STATION and CLEAR-SEQUENCE, by the state of the record they name (R139, R153, R154, R185). -/

namespace Sys2Proof.Machine

/-! ## RETURN-STATION (R139, R185) -/

theorem exec_returnStation {m : ManageCtx} {s : State} (h : FromManager m s) (a : Nat) :
    exec (.returnStation m a) s =
      .next (conclude m.src m.seq 9 (takeReturnStation a (arrive m.src s))) :=
  congrArg Host.Outcome.next (manage_from h 9 (takeReturnStation a))

/-- What RETURN-STATION makes of a loaded record, by the record's state. -/
theorem takeReturnStation_of_record {a i : Nat} {st : Station} {s : State} (hi : stationRecord a s = some i)
    (hst : s.station i = some st) :
    takeReturnStation a s = if st.state = .faulty then .of .done (returnStation i st s) else .of .wrongState s := by
  simp only [takeReturnStation, hi, hst]
  cases st.state <;> simp

/-- A station returned: its record is ONLINE, the points and alerts stay, and its channels that it had faulted leave
FAULTED. -/
theorem returnStation_spec (i : Nat) (st : Station) (s : State) :
    (returnStation i st s).stm = { s.stm with stations := s.stm.stations.set i (some
      { st with state := .online, silenceTimer := .running (s.now + 100 * st.silenceLimit), pollTimer := .stopped,
                heard := false }) } ∧
      (returnStation i st s).pst = s.pst ∧ (returnStation i st s).alc.alerts = s.alc.alerts ∧
      (returnStation i st s).mgu = s.mgu ∧
      ∀ n ch, s.channel n = some ch → ch.station = st.address → ch.state = .faulted → ch.cause = some .station →
        ∃ ch', (returnStation i st s).channel n = some ch' ∧ ch'.cause = none ∧ ch'.current = none ∧
          ch'.state = if s.mgu.part = .run ∧ ch.hold = false then .active else .held := by
  rw [returnStation, stationReturned_eq]
  refine ⟨by simp [Station.goOnline, Timer.start], by simp, by simp, by simp, fun n ch hch ha hf hc => ?_⟩
  obtain ⟨ch', hch', hreturn, -⟩ :=
    chuStationReturn_channel (s.setStation i (some (st.goOnline s.now))) st.address n ch hch
  obtain ⟨hcause, hcurrent, -, -, -, hstate⟩ := hreturn ⟨ha, hf, hc⟩
  exact ⟨ch', hch', hcause, hcurrent, hstate⟩

/-! ## CLEAR-SEQUENCE (R153, R154) -/

theorem exec_clearSequence {m : ManageCtx} {s : State} (h : FromManager m s) (k : Nat) :
    exec (.clearSequence m k) s =
      .next (conclude m.src m.seq 10 (takeClearSequence k (arrive m.src s))) :=
  congrArg Host.Outcome.next (manage_from h 10 (takeClearSequence k))

/-- What CLEAR-SEQUENCE makes of a loaded slot, by the slot's state. -/
theorem takeClearSequence_of_slot {k : Nat} {sl : Slot} {s : State} (hsl : s.slot k = some sl) :
    takeClearSequence k s = if sl.state = .failed then .of .done (s.setSlot k (some
      { sl with state := .stopped, antiCycleTimer :=
          if sl.antiCycle = 0 then .stopped else .running (s.now + 100 * (1000 * sl.antiCycle)) }))
      else .of .wrongState s := by
  simp only [takeClearSequence, hsl, afterRestart_antiCycle]

/-- Settles O33: each operation answers by the state of its record. -/
theorem stationReturnedSequenceCleared : Obligations.StationReturnedSequenceCleared := by
  intro m a k s hm s0
  refine ⟨fun hnone => ?_, fun i st hi hst => ⟨fun hne => ?_, fun hfaulty => ?_⟩, fun hnone => ?_,
    fun sl hsl => ⟨fun hne => ?_, fun hfailed => ?_⟩⟩
  · have htake : takeReturnStation a s0 = .of .badIndex s0 := by simp only [takeReturnStation, hnone]
    rw [exec_returnStation hm, htake, conclude_of]
  · rw [exec_returnStation hm, takeReturnStation_of_record hi hst, if_neg hne, conclude_of]
  · obtain ⟨-, st', hst', haddress⟩ := stationRecord_some hi
    obtain rfl : st = st' := Option.some.inj (hst.symm.trans hst')
    obtain ⟨hstm, hpst, halerts, hmgu, hchannels⟩ := returnStation_spec i st s0
    refine ⟨returnStation i st s0, ?_, hstm, hpst, halerts, hmgu,
      fun n ch hch ha => hchannels n ch hch (ha.trans haddress.symm)⟩
    rw [exec_returnStation hm, takeReturnStation_of_record hi hst, if_pos hfaulty, conclude_of]
  · have htake : takeClearSequence k s0 = .of .badIndex s0 := by simp only [takeClearSequence, hnone]
    rw [exec_clearSequence hm, htake, conclude_of]
  · rw [exec_clearSequence hm, takeClearSequence_of_slot hsl, if_neg hne, conclude_of]
  · rw [exec_clearSequence hm, takeClearSequence_of_slot hsl, if_pos hfailed, conclude_of]

end Sys2Proof.Machine
end


-- ==== Sys2Proof/Proofs/Samples.lean ====
section
/-! SUPPORT. SAMPLE frames: the outcome of one sample, and what the entries of a frame leave as it was (R23, R27 to
R30). -/

namespace Sys2Proof.Machine

theorem exec_sample {fr : RxFrame} (h : fr.src ≠ 0) (s : State) :
    exec (.sample fr) s = .next (passOn 1 fr (takeSamples fr.src fr.payload (arrive fr.src s))) := by
  show Host.Outcome.next (unlessOwn classSample fr (sampleFrame fr) s) = _
  rw [unlessOwn, if_neg h]
  rfl

/-! ## One sample (R28 to R30) -/

theorem Quality.refused_eq (q : Quality) : q.refused = if q = .fresh then .held else q := by
  cases q <;> rfl

theorem Point.acceptsAtOnce_iff (pt : Point) (v : Int) :
    pt.acceptsAtOnce v = true ↔
      pt.quality = .none ∨ pt.step = 0 ∨ ∃ a, pt.accepted = some a ∧ (v - a).natAbs ≤ pt.step := by
  unfold Point.acceptsAtOnce
  cases pt.accepted <;> simp [or_assoc]

theorem Point.confirms_iff (pt : Point) (v : Int) :
    pt.confirms v = true ↔
      ∃ c, pt.candidate = some c ∧ (v - c.value).natAbs ≤ pt.step ∧ pt.confirm ≤ c.count + 1 := by
  unfold Point.confirms
  cases pt.candidate <;> simp

section Sample

variable {pt : Point} {v : Int} (now : Nat)

theorem Point.sample_out (h : ¬(pt.lo ≤ v ∧ v ≤ pt.hi)) :
    pt.sample now v = (.samplesRange, { pt with quality := pt.quality.refused }) := by
  rw [Point.sample, if_pos (by omega)]

theorem Point.sample_accepted (hlo : pt.lo ≤ v) (hhi : v ≤ pt.hi)
    (h : pt.acceptsAtOnce v = true ∨ pt.confirms v = true) : pt.sample now v = (.samplesAccepted, pt.accept now v) := by
  rw [Point.sample, if_neg (by omega), if_pos (by simpa using h)]

theorem Point.sample_glitch (hlo : pt.lo ≤ v) (hhi : v ≤ pt.hi) (hnear : ¬pt.acceptsAtOnce v = true)
    (hconfirms : ¬pt.confirms v = true) : pt.sample now v =
      (.samplesGlitch, { pt with quality := pt.quality.refused, candidate := some (pt.nextCandidate v) }) := by
  rw [Point.sample, if_neg (by omega), if_neg (by simp [hnear, hconfirms])]

end Sample

/-- A sample within the step of the candidate raises its count (R30). -/
theorem Point.nextCandidate_near {pt : Point} {v : Int} {c : Candidate} (hc : pt.candidate = some c)
    (h : (v - c.value).natAbs ≤ pt.step) : pt.nextCandidate v = ⟨c.value, c.count + 1⟩ := by
  simp only [Point.nextCandidate, hc, if_pos h]

/-- A sample away from the candidate, or without one, is the new candidate (R30). -/
theorem Point.nextCandidate_far {pt : Point} {v : Int}
    (h : ∀ c, pt.candidate = some c → pt.step < (v - c.value).natAbs) : pt.nextCandidate v = ⟨v, 1⟩ := by
  cases hc : pt.candidate with
  | none => simp only [Point.nextCandidate, hc]
  | some c => simp only [Point.nextCandidate, hc, if_neg (Nat.not_le_of_lt (h c hc))]

/-- A SAMPLE frame of one entry, mapped and of a station that is not FAULTY. -/
theorem exec_sample_one {fr : RxFrame} {slot hi lo : Byte} {p : Nat} {s : State} (hsrc : fr.src ≠ 0)
    (hpayload : fr.payload = [slot, hi, lo]) (hstation : stationFaulty fr.src (arrive fr.src s) = false)
    (hp : pointOf (arrive fr.src s) fr.src slot.toNat = some p) :
    exec (.sample fr) s = .next (passOn 1 fr (takeSample p (signed16 (be16 hi lo)) (arrive fr.src s))) := by
  have hentry : takeSampleEntry fr.src (arrive fr.src s) ⟨slot.toNat, signed16 (be16 hi lo)⟩ =
      takeSample p (signed16 (be16 hi lo)) (arrive fr.src s) := by
    simp only [takeSampleEntry, hp, hstation, Bool.false_eq_true, if_false]
  rw [exec_sample hsrc, hpayload, ← hentry]
  rfl

/-- Settles O11: the frame is one sample, and `Point.sample` has a branch for each outcome. -/
theorem sampleJudgedByRangeAndGlitch : Obligations.SampleJudgedByRangeAndGlitch := by
  intro fr slot hi lo p s s0 v pt taken refused accepted near hsrc hpayload hstation hp
  have htaken : ∀ {c pt'}, pt.sample s0.now v = (c, pt') → taken c pt' := fun {c pt'} h => by
    show exec (.sample fr) s = _
    rw [exec_sample_one hsrc hpayload hstation hp, takeSample, show (s0.point p).sample s0.now v = (c, pt') from h]
  have hrefused : pt.quality.refused = refused := pt.quality.refused_eq
  have hnear : pt.acceptsAtOnce v = true ↔ near := pt.acceptsAtOnce_iff v
  refine ⟨fun hout => ?_, fun hlo hhi h => ?_,
    fun hlo hhi h => ⟨fun c hc hclose hcount => ?_, fun c hc hclose hcount => ?_,
    fun hfar => ?_⟩⟩
  · exact htaken (by rw [Point.sample_out _ hout, hrefused])
  · exact htaken (Point.sample_accepted _ hlo hhi (.inl (hnear.mpr h)))
  · exact htaken (Point.sample_accepted _ hlo hhi (.inr ((pt.confirms_iff v).mpr ⟨c, hc, hclose, hcount⟩)))
  · have hnot : ¬pt.confirms v = true := fun hconf => by
      obtain ⟨c', hc', -, hcount'⟩ := (pt.confirms_iff v).mp hconf
      obtain rfl : c = c' := Option.some.inj (hc.symm.trans hc')
      omega
    exact htaken (by
      rw [Point.sample_glitch _ hlo hhi (mt hnear.mp h) hnot, hrefused, Point.nextCandidate_near hc hclose])
  · have hnot : ¬pt.confirms v = true := fun hconf => by
      obtain ⟨c, hc, hclose, -⟩ := (pt.confirms_iff v).mp hconf
      exact absurd hclose (Nat.not_le_of_lt (hfar c hc))
    exact htaken (by rw [Point.sample_glitch _ hlo hhi (mt hnear.mp h) hnot, hrefused, Point.nextCandidate_far hfar])

/-! ## What a SAMPLE frame leaves (R23, R27, R164, R165) -/

/-- No outcome of a sample changes the source of its point. -/
theorem Point.sample_source (now : Nat) (v : Int) (pt : Point) : (pt.sample now v).2.source = pt.source := by
  unfold Point.sample
  repeat' split
  all_goals rfl

theorem Point.sample_count (now : Nat) (v : Int) (pt : Point) :
    (pt.sample now v).1 ∈ [Count.samplesAccepted, .samplesRange, .samplesGlitch] := by
  unfold Point.sample
  repeat' split
  all_goals simp

/-- From `s` to `t` only points that station `src` is the source of, and the sample counts, have changed, and no point when
the station is FAULTY. -/
structure SamplesTaken (src : Nat) (s t : State) : Prop where
  only : OnlySample s t
  source : ∀ p, (t.point p).source = (s.point p).source
  other : ∀ p, (∀ slot, (s.point p).source ≠ some (src, slot)) → t.point p = s.point p
  count : ∀ c : Count, c ∉ [.samplesAccepted, .samplesRange, .samplesGlitch] → t.count c = s.count c
  faulty : stationFaulty src s = true → t.pst = s.pst

theorem SamplesTaken.refl (src : Nat) (s : State) : SamplesTaken src s s :=
  ⟨by simp, fun _ => rfl, fun _ _ => rfl, fun _ _ => rfl, fun _ => rfl⟩

theorem samplesTaken_takeSample {src slot p : Nat} {s : State} (hp : (s.point p).source = some (src, slot))
    (hstation : stationFaulty src s = false) (v : Int) : SamplesTaken src s (takeSample p v s) := by
  have hpoint : ∀ p', (takeSample p v s).point p' =
      if p = p' ∧ p' < 48 then ((s.point p).sample s.now v).2 else s.point p' := fun p' => by
    rw [← point_setPoint]; rfl
  refine ⟨takeSample_keeps s p v, fun p' => ?_, fun p' hnot => ?_, fun c hc => ?_, fun h => ?_⟩
  · rw [hpoint]
    split
    · next h => rw [Point.sample_source, h.1]
    · rfl
  · rw [hpoint, if_neg]
    rintro ⟨rfl, -⟩
    exact hnot slot hp
  · have hne : ((s.point p).sample s.now v).1 ≠ c := fun h => hc (h ▸ Point.sample_count s.now v (s.point p))
    rw [takeSample, count_countEvent_ne _ hne]
    rfl
  · rw [hstation] at h; cases h

theorem samplesTaken_entry (src : Nat) (s : State) (e : SampleEntry) : SamplesTaken src s (takeSampleEntry src s e) := by
  cases hp : pointOf s src e.slot with
  | none => simpa only [takeSampleEntry, hp] using SamplesTaken.refl src s
  | some p =>
    cases hstation : stationFaulty src s with
    | true => simpa only [takeSampleEntry, hp, hstation, if_true] using SamplesTaken.refl src s
    | false =>
      simpa only [takeSampleEntry, hp, hstation, Bool.false_eq_true, if_false] using
        samplesTaken_takeSample (pointOf_some hp).2 hstation e.value

theorem SamplesTaken.trans {src : Nat} {s t u : State} (h : SamplesTaken src s t) (h' : SamplesTaken src t u) :
    SamplesTaken src s u := by
  refine ⟨?_, fun p => (h'.source p).trans (h.source p), fun p hp => ?_, fun c hc => (h'.count c hc).trans (h.count c hc),
    fun hf => ?_⟩
  · have h1 := h.only
    have h2 := h'.only
    simp_all
  · exact (h'.other p fun slot => by rw [h.source]; exact hp slot).trans (h.other p hp)
  · obtain ⟨-, -, -, hstm, -⟩ := h.only
    exact (h'.faulty ((stationFaulty_congr (by rw [hstm]) src).trans hf)).trans (h.faulty hf)

theorem samplesTaken_takeSamples (src : Nat) (payload : List Byte) (s : State) :
    SamplesTaken src s (takeSamples src payload s) := by
  unfold takeSamples
  generalize sampleEntries payload = es
  induction es generalizing s with
  | nil => exact SamplesTaken.refl src s
  | cons e es ih => exact (samplesTaken_entry src s e).trans (ih _)

/-- A frame passed on: it is consumed at address 0; elsewhere it is sent, and counted in FRAMES_FORWARDED alone. -/
theorem passOn_spec (cls : Nat) (fr : RxFrame) (s : State) :
    OnlyPoll s (passOn cls fr s) ∧
      (passOn cls fr s).sent = s.sent ++ (if fr.dest = 0 then []
        else [⟨forwardRing s.lpu.loop fr.input, fr.dest, .relay fr.src cls fr.seq fr.payload⟩]) ∧
      ∀ c : Count, c ≠ .framesForwarded → (passOn cls fr s).count c = s.count c := by
  unfold passOn
  split
  · simp
  · refine ⟨by simp [forwardFrame], by simp [forwardFrame, sendOn], fun c hc => ?_⟩
    rw [forwardFrame, count_countEvent_ne _ hc.symm]
    rfl

/-- A state that differs from another in points, counts and frames sent alone. -/
theorem eq_of_onlySample_onlyPoll {s u t : State} (h : OnlySample s u) (h' : OnlyPoll u t) :
    { t with pst := s.pst, alc.counts := s.alc.counts, sent := s.sent } = s := by
  obtain ⟨h1, h2, h3, h4, h5, h6, h7, h8, h9, h10, halerts, hoverflow, h13, -, h15⟩ := h
  obtain ⟨g1, g2, g3, g4, -, g5, g6, g7, g8, g9, g10, galerts, goverflow, g13, g15⟩ := h'
  have halc : { t.alc with counts := s.alc.counts } = s.alc := by
    simp only [galerts, goverflow, halerts, hoverflow]
  exact State.ext_fields ⟨g1.trans h1, g2.trans h2, g3.trans h3, g4.trans h4, rfl, g5.trans h5, g6.trans h6, g7.trans h7,
    g8.trans h8, g9.trans h9, g10.trans h10, halc, g13.trans h13, rfl, g15.trans h15⟩

/-- Settles O10: what the entries change is `SamplesTaken`, and the frame then passes on. -/
theorem sampleFrameTouchesOnlyItsPoints : Obligations.SampleFrameTouchesOnlyItsPoints := by
  intro fr s hsrc s0
  have htaken := samplesTaken_takeSamples fr.src fr.payload s0
  obtain ⟨hpass, hsent, hcount⟩ := passOn_spec 1 fr (takeSamples fr.src fr.payload s0)
  have honly := htaken.only
  refine ⟨_, exec_sample hsrc s, eq_of_onlySample_onlyPoll honly hpass, ?_, ?_⟩
  · obtain ⟨-, hlpu, -, -, -, -, -, -, -, -, -, -, -, hsent0, -⟩ := honly
    rw [hsent, hlpu, hsent0]
  obtain ⟨-, -, -, -, hpst, -⟩ := hpass
  refine ⟨fun p hp => ?_, fun c hc => ?_, fun hf => hpst.trans (htaken.faulty hf)⟩
  · rw [State.point, hpst]
    exact htaken.other p hp
  · simp only [List.mem_cons, not_or] at hc
    obtain ⟨hforward, haccepted, hrange, hglitch, -⟩ := hc
    rw [hcount c hforward]
    exact htaken.count c (by simp [haccepted, hrange, hglitch])

end Sys2Proof.Machine
end


-- ==== Sys2Proof/Proofs/TunableLoads.lean ====
section
/-! SUPPORT. TUNABLE loads of the pass period, the loop settings, points, clients, channels and slots: each owner's decision
of the values given, as one condition (R25, R40, R91, R121, R145, R174, R200). -/

namespace Sys2Proof.Machine

/-! ## Reads that take a value or refuse it -/

theorem natIn_one (lo hi : Nat) (v : Int) :
    natIn lo hi [v] = if (lo : Int) ≤ v ∧ v ≤ hi then some v.toNat else none := by
  simp only [natIn, intIn]
  split <;> rfl

/-- A read of one value that refuses it, in front of further reads. -/
theorem ite_some_bind {α β : Type} {P : Prop} [Decidable P] (a : α) (f : α → Option β) :
    (if P then some a else none).bind f = if P then f a else none := by
  split <;> rfl

theorem ite_some_map {α β : Type} {P : Prop} [Decidable P] (a : α) (f : α → β) :
    (if P then some a else none).map f = if P then some (f a) else none := by
  split <;> rfl

theorem orBadValue_ite {α : Type} {P : Prop} [Decidable P] (a : α) (k : α → Loaded) :
    orBadValue (if P then some a else none) k = if P then k a else .error .badValue := by
  split <;> rfl

theorem withFields_of_only {items : List FieldItem} {allowed : List Nat} (h : onlyFields items allowed = true)
    (k : Loaded) : withFields items allowed k = k := by
  rw [withFields, if_pos h]

/-! ## Loads that their owner takes under a condition -/

theorem takesLoad_of_shape {table n k : Nat} {classes : List LoadClass} {c : LoadClass}
    (hshape : tableShape table = some (k, classes)) (hn : n < k) (hc : c ∈ classes) : TakesLoad table n c :=
  ⟨k, classes, hshape, hn, hc⟩

section

variable {m : ManageCtx} {s : State} (hm : FromManager m s)
include hm

/-- A load whose owner takes it exactly under a condition, which the statement may write otherwise. -/
theorem load_decided {table index : Nat} {c : LoadClass} (htable : TakesLoad table index c)
    (hclass : ClassAllowed c (loadTaken m s)) {items : List FieldItem} (hplain : ∀ it ∈ items, it.Plain)
    {P fits : Prop} [Decidable P] {t : State} {e : Status}
    (howner : ownerLoad table index c items (loadTaken m s) = if P then .ok t else .error e) (hfits : fits ↔ P) :
    (fits → LoadDone m (loadOf m table index c.code items) s t) ∧
      (¬fits → LoadRefused m (loadOf m table index c.code items) s e) :=
  ⟨fun h => loadDone_of_plain hm htable hclass hplain (by rw [howner, if_pos (hfits.mp h)]),
    fun h => loadRefused_of_plain hm htable hclass hplain (by rw [howner, if_neg (mt hfits.mpr h)])⟩

/-- An index beyond the table's is BAD-INDEX, whatever the load gives (R162, R200). -/
theorem loadRefused_beyond {table index cls n : Nat} {classes : List LoadClass} {c : LoadClass}
    (hshape : tableShape table = some (n, classes)) (hcls : loadClass cls = some c) (hindex : n ≤ index)
    (items : List FieldItem) : LoadRefused m (loadOf m table index cls items) s .badIndex := by
  show Host.Outcome.next (manage m 1 (takeLoad table index cls ⟨0, true⟩ (items.flatMap (·.bytes))) s) = _
  have hdecide : decideLoad table index cls (items.flatMap (·.bytes)) (loadTaken m s) = .error .badIndex := by
    simp only [decideLoad, hshape, hcls, if_pos (show n ≤ index ∨ c ∉ classes from .inl hindex)]
  have htake : takeLoad table index cls ⟨0, true⟩ (items.flatMap (·.bytes)) (arrive m.src s) =
      answerLoad (loadTaken m s) (decideLoad table index cls (items.flatMap (·.bytes)) (loadTaken m s)) := rfl
  rw [manage_from hm, htake, hdecide]
  rfl

end

/-! ## The owners' decisions (R25, R40, R91, R121, R145, R174) -/

section

variable (s : State) (n : Nat) (v w x y z : Int)

theorem loadPassPeriod_one : loadPassPeriod [⟨1, [v]⟩] s =
    if (100 ≤ v ∧ v ≤ 2000) ∧ v.toNat % 50 = 0 then .ok { s with ale.passPeriod := v.toNat } else .error .badValue := by
  have hread : readPassPeriod [v] = if (100 ≤ v ∧ v ≤ 2000) ∧ v.toNat % 50 = 0 then some v.toNat else none := by
    simp only [readPassPeriod, natIn_one, Nat.cast_ofNat]
    by_cases h : 100 ≤ v ∧ v ≤ 2000 <;> simp [h]
  rw [loadPassPeriod, withFields_of_only rfl, required_of_given (vs := [v]) rfl, hread, orBadValue_ite]

theorem loadLoopSettings_two : loadLoopSettings [⟨1, [v]⟩, ⟨2, [w]⟩] s =
    if (20 ≤ v ∧ v ≤ 500) ∧ (2 ≤ w ∧ w ≤ 100) ∧ w.toNat < v.toNat then
      .ok { s with lpu.markerPeriod := v.toNat, lpu.returnLimit := w.toNat }
    else .error .badValue := by
  rw [loadLoopSettings, withFields_of_only rfl, required_of_given (vs := [v]) rfl, required_of_given (vs := [w]) rfl]
  simp only [natIn_one, Nat.cast_ofNat, Option.bind_eq_bind, ite_some_bind, ← ite_and, orBadValue_ite]

theorem loadPoint_tunables : loadPoint .tunable n [⟨4, [v]⟩, ⟨5, [w]⟩, ⟨6, [x]⟩] s =
    if (0 ≤ v ∧ v ≤ 32767) ∧ (2 ≤ w ∧ w ≤ 4) ∧ 100 ≤ x ∧ x ≤ 10000 then
      .ok (s.setPoint n { s.point n with step := v.toNat, confirm := w.toNat, staleLimit := x.toNat })
    else .error .badValue := by
  rw [loadPoint, withFields_of_only rfl, readPointTunables, fieldOr_of_given (vs := [v]) rfl,
    fieldOr_of_given (vs := [w]) rfl, fieldOr_of_given (vs := [x]) rfl]
  simp only [natIn_one, Nat.cast_ofNat, Nat.cast_zero, Option.bind_eq_bind, Option.pure_def, ite_some_bind, ← ite_and,
    orBadValue_ite]

theorem loadClient_lease {e : ClientEntry} (he : (s.client n).entry = some e) : loadClient .tunable n [⟨5, [v]⟩] s =
    if 200 ≤ v ∧ v ≤ 10000 then
      .ok (s.setClient n { s.client n with entry := some { e with leasePeriod := v.toNat } })
    else .error .badValue := by
  simp only [loadClient, he]
  rw [withFields_of_only rfl, fieldOr_of_given (vs := [v]) rfl]
  simp only [natIn_one, Nat.cast_ofNat, orBadValue_ite]

theorem loadChannel_tunables {ch : Channel} (hch : s.channel n = some ch) :
    loadChannel .tunable n [⟨6, [v]⟩, ⟨7, [w]⟩, ⟨8, [x]⟩, ⟨9, [y]⟩, ⟨10, [z]⟩] s =
    if (1 ≤ v ∧ v ≤ 1023) ∧ ((10 ≤ w ∧ w ≤ 2550) ∧ w.toNat % 10 = 0) ∧ (0 ≤ x ∧ x ≤ 1023) ∧ (5 ≤ y ∧ y ≤ 255) ∧
        0 ≤ z ∧ z ≤ 10000 then
      .ok (reportChanges s (s.setChannel n (some
        { ch with slew := v.toNat, rampInterval := w.toNat, tolerance := x.toNat, ackLimit := y.toNat,
                  refreshPeriod := z.toNat })))
    else .error .badValue := by
  have hramp : readRampInterval [w] = if (10 ≤ w ∧ w ≤ 2550) ∧ w.toNat % 10 = 0 then some w.toNat else none := by
    simp only [readRampInterval, natIn_one, Nat.cast_ofNat]
    by_cases h : 10 ≤ w ∧ w ≤ 2550 <;> simp [h]
  simp only [loadChannel, hch]
  rw [withFields_of_only rfl, readChannelTunables, fieldOr_of_given (vs := [v]) rfl, fieldOr_of_given (vs := [w]) rfl,
    fieldOr_of_given (vs := [x]) rfl, fieldOr_of_given (vs := [y]) rfl, fieldOr_of_given (vs := [z]) rfl, hramp]
  simp only [natIn_one, Nat.cast_ofNat, Nat.cast_zero, Nat.cast_one, Option.bind_eq_bind, Option.pure_def, ite_some_bind,
    ← ite_and, orBadValue_ite]

/-- The step limit of a slot's load is judged before its other fields (log 38). -/
theorem loadSlot_tunables {sl : Slot} (hsl : s.slot n = some sl) :
    loadSlot .tunable n [⟨5, [v, w]⟩, ⟨6, [x]⟩, ⟨7, [y]⟩] s =
    if 1 ≤ v ∧ v.toNat ≤ sl.steps.length then
      if (1 ≤ w ∧ w ≤ 255) ∧ (0 ≤ x ∧ x ≤ 60) ∧ 0 ≤ y ∧ y ≤ 600 then
        .ok (s.setSlot n (some
          { sl with steps := sl.steps.modify (v.toNat - 1) (fun st => { st with limit := w.toNat }),
                    stopDelay := x.toNat, antiCycle := y.toNat }))
      else .error .badValue
    else .error .badIndex := by
  have hfold : List.foldlM tuneStep sl.steps [⟨5, [v, w]⟩, ⟨6, [x]⟩, ⟨7, [y]⟩] =
      tuneStep sl.steps ⟨5, [v, w]⟩ := by
    show (tuneStep sl.steps ⟨5, [v, w]⟩).bind _ = _
    cases tuneStep sl.steps ⟨5, [v, w]⟩ <;> rfl
  have hstep : tuneStep sl.steps ⟨5, [v, w]⟩ = if 1 ≤ v ∧ v.toNat ≤ sl.steps.length then
      if 1 ≤ w ∧ w ≤ 255 then .ok (sl.steps.modify (v.toNat - 1) fun st => { st with limit := w.toNat })
      else .error .badValue
      else .error .badIndex := by
    simp only [tuneStep, if_true, natIn_one, Nat.cast_ofNat, Nat.cast_one]
    by_cases h : 1 ≤ w ∧ w ≤ 255 <;> simp [h]
  simp only [loadSlot, hsl]
  rw [withFields_of_only rfl, tuneSlot, hfold, hstep, fieldOr_of_given (vs := [x]) rfl, fieldOr_of_given (vs := [y]) rfl,
    natIn_one, natIn_one]
  simp only [Nat.cast_ofNat, Nat.cast_zero]
  by_cases hi : 1 ≤ v ∧ v.toNat ≤ sl.steps.length
  · by_cases hw : 1 ≤ w ∧ w ≤ 255
    · by_cases hx : 0 ≤ x ∧ x ≤ 60
      · by_cases hy : 0 ≤ y ∧ y ≤ 600
        · simp [hi, hw, hx, hy]
        · simp [hi, hw, hx, hy]
      · simp [hi, hw, hx]
    · simp [hi, hw]
  · rw [if_neg hi, if_neg hi]

/-! An empty client entry, an unloaded channel and an unloaded slot are BAD-INDEX, whatever the load gives (log 38). -/

variable (items : List FieldItem)

theorem loadClient_tunable_empty (h : (s.client n).entry = none) :
    loadClient .tunable n items s = .error .badIndex := by
  simp only [loadClient, h]

theorem loadChannel_tunable_empty (h : s.channel n = none) : loadChannel .tunable n items s = .error .badIndex := by
  simp only [loadChannel, h]

theorem loadSlot_tunable_empty (h : s.slot n = none) : loadSlot .tunable n items s = .error .badIndex := by
  simp only [loadSlot, h]

end

/-! ## O24 -/

/-- Settles O24: each table's load is its owner's decision of the values given. -/
theorem tunableSettingsLoaded : Obligations.TunableSettingsLoaded := by
  intro m n v w x y z s hm hv hw hx hy hz s0
  have hclass : ClassAllowed .tunable (loadTaken m s) := classAllowed_tunable _
  have hplain : ∀ {f : Nat} {u : Int}, f ≤ 255 → Carries u → (⟨f, [u]⟩ : FieldItem).Plain :=
    fun hf hu => ⟨hf, by simp, by simpa using hu⟩
  refine ⟨?_, ?_, fun hn => loadRefused_beyond hm (c := .tunable) rfl rfl hn _, fun hn => ?_,
    fun hn => ⟨fun hnone => ?_, fun e he => ?_⟩, fun hn => ⟨fun hnone => ?_, fun ch hch => ?_⟩,
    fun hn => ⟨fun hnone => ?_, fun sl hsl => ⟨fun hout => ?_, fun hlo hhi => ?_⟩⟩⟩
  · exact load_decided hm (takesLoad_of_shape rfl (by simp) (by simp)) hclass (by simp [hplain, hv])
      (loadPassPeriod_one s0 v) (by omega)
  · exact load_decided hm (takesLoad_of_shape rfl (by simp) (by simp)) hclass (by simp [hplain, hv, hw])
      (loadLoopSettings_two s0 v w) (by omega)
  · exact load_decided hm (takesLoad_of_shape rfl hn (by simp)) hclass (by simp [hplain, hv, hw, hx])
      (loadPoint_tunables s0 n v w x) (by obtain ⟨-, hmax⟩ := hv; omega)
  · exact loadRefused_of_plain hm (takesLoad_of_shape rfl hn (by simp)) hclass (by simp [hplain, hv])
      (loadClient_tunable_empty s0 n _ hnone)
  · exact load_decided hm (takesLoad_of_shape rfl hn (by simp)) hclass (by simp [hplain, hv])
      (loadClient_lease s0 n v he) Iff.rfl
  · exact loadRefused_of_plain hm (takesLoad_channel hn .tunable) hclass (by simp [hplain, hv, hw, hx, hy, hz])
      (loadChannel_tunable_empty s0 n _ hnone)
  · exact load_decided hm (takesLoad_channel hn .tunable) hclass (by simp [hplain, hv, hw, hx, hy, hz])
      (loadChannel_tunables s0 n v w x y z hch) (by omega)
  all_goals
    have hitems : ∀ it ∈ ([⟨5, [v, w]⟩, ⟨6, [x]⟩, ⟨7, [y]⟩] : List FieldItem), it.Plain := by
      simp [FieldItem.Plain, hv, hw, hx, hy]
  · exact loadRefused_of_plain hm (takesLoad_slot hn .tunable) hclass hitems (loadSlot_tunable_empty s0 n _ hnone)
  · exact loadRefused_of_plain hm (takesLoad_slot hn .tunable) hclass hitems
      ((loadSlot_tunables s0 n v w x y hsl).trans (if_neg (by omega)))
  · exact load_decided hm (takesLoad_slot hn .tunable) hclass hitems
      ((loadSlot_tunables s0 n v w x y hsl).trans (if_pos (by omega))) Iff.rfl

end Sys2Proof.Machine
end


-- ==== Sys2Proof/Proofs/StationLoads.lean ====
section
/-! SUPPORT. Station records loaded: the table after a load, record by record, and the faults that a load ends
(R139, R178). -/

namespace Sys2Proof.Machine

/-! ## Codes of names read -/

/-- A code read as a name: a position of the list. -/
theorem nameAt_one {α : Type} (names : List α) (d : α) (v : Int) :
    nameAt names [v] = if 1 ≤ v ∧ v ≤ names.length then some (names.getD (v.toNat - 1) d) else none := by
  simp only [nameAt]
  by_cases h1 : 1 ≤ v
  · by_cases h2 : v ≤ names.length
    · rw [if_pos h1, if_pos ⟨h1, h2⟩, List.getD_eq_getElem?_getD, List.getElem?_eq_getElem (by omega)]
      rfl
    · rw [if_pos h1, if_neg fun h => h2 h.2, List.getElem?_eq_none (by omega)]
  · rw [if_neg h1, if_neg fun h => h1 h.1]

/-! ## The station table after a load (R178) -/

/-- A record as a load writes it, before its station is settled. -/
def Station.loaded (f : Nat × Role × Nat) : Station :=
  { address := f.1, role := f.2.1, silenceLimit := f.2.2, state := .absent, silenceTimer := .stopped,
    pollTimer := .stopped, retryCount := 0, heard := false }

/-- The table with one record loaded or emptied. -/
def stationPlaced (r : Nat) (x : Option (Nat × Role × Nat)) (s : State) : State :=
  s.setStation r (x.map Station.loaded)

/-- The table after a load, every record settled. -/
def stationsSettled (r : Nat) (x : Option (Nat × Role × Nat)) (s : State) : State :=
  { stationPlaced r x s with
    stm.stations := Table.build 30 fun i =>
      ((stationPlaced r x s).station i).map fun st => settleStation s (stationPlaced r x s) r i st }

theorem loadStation_of_read {items : List FieldItem} {x : Option (Nat × Role × Nat)} (r : Nat) (s : State)
    (hfields : onlyFields items [1, 2, 3] = true) (hread : readStation items = some x) :
    loadStation r items s = .ok (endFaults s (stationsSettled r x s)) := by
  rw [loadStation, withFields_of_only hfields, hread]
  rfl

section Settled

variable {s : State} {r : Nat} {x : Option (Nat × Role × Nat)}

theorem stationPlaced_same (hr : r < 30) : (stationPlaced r x s).station r = x.map Station.loaded :=
  (station_setStation s r r _).trans (if_pos ⟨rfl, hr⟩)

theorem stationPlaced_other {i : Nat} (h : i ≠ r) : (stationPlaced r x s).station i = s.station i :=
  (station_setStation s r i _).trans (if_neg fun e => h e.1.symm)

theorem stationsSettled_station (i : Nat) : (stationsSettled r x s).station i =
    ((stationPlaced r x s).station i).map (settleStation s (stationPlaced r x s) r i) := by
  by_cases hi : i < 30
  · exact Table.get_build _ hi
  · have hnone : ∀ t : State, t.station i = none := fun t => Table.get_beyond _ i (Nat.le_of_not_lt hi)
    rw [hnone, hnone]
    rfl

/-- Settling moves no record to another address. -/
theorem settleStation_address (before t : State) (i : Nat) (st : Station) :
    (settleStation before t r i st).address = st.address := by
  simp only [settleStation]
  repeat' split
  all_goals rfl

/-- The loaded record is its station's, unless a lower-numbered record has its address. -/
theorem stationRecord_placed (hr : r < 30) (f : Nat × Role × Nat) :
    stationRecord f.1 (stationPlaced r (some f) s) = some r ↔ ¬∃ j < r, (s.station j).map (·.address) = some f.1 := by
  rw [stationRecord_iff]
  constructor
  · rintro ⟨-, -, -, hlow⟩ ⟨j, hj, hmap⟩
    obtain ⟨st, hst, ha⟩ := Option.map_eq_some_iff.mp hmap
    exact hlow j hj st ((stationPlaced_other (Nat.ne_of_lt hj)).trans hst) ha
  · intro h
    refine ⟨Station.loaded f, stationPlaced_same hr, rfl, fun j hj st hst ha => h ⟨j, hj, ?_⟩⟩
    rw [stationPlaced_other (Nat.ne_of_lt hj)] at hst
    rw [hst, Option.map_some, ha]

/-- The loaded record after its load. -/
theorem stationsSettled_loaded (hr : r < 30) (f : Nat × Role × Nat) :
    (stationsSettled r (some f) s).station r = some { Station.loaded f with
      silenceTimer := if ∃ j < r, (s.station j).map (·.address) = some f.1 then .stopped
        else .running (s.now + 100 * f.2.2) } := by
  rw [stationsSettled_station, stationPlaced_same hr, Option.map_some, Option.map_some]
  have hrec := stationRecord_placed (s := s) hr f
  simp only [settleStation, if_true, show (Station.loaded f).address = f.1 from rfl, beq_iff_eq, hrec]
  by_cases h : ∃ j < r, (s.station j).map (·.address) = some f.1
  · rw [if_neg (not_not.mpr h), if_pos h]; rfl
  · rw [if_pos h, if_neg h]; rfl

/-- A record of an address that the load neither gives nor takes away stays. -/
theorem stationsSettled_other {f : Nat × Role × Nat} {j : Nat} {st : Station} (hj : j ≠ r) (hst : s.station j = some st)
    (hnew : st.address ≠ f.1) (hold : ∀ old, s.station r = some old → old.address ≠ st.address) :
    (stationsSettled r (some f) s).station j = some st := by
  have hsame : stationRecord st.address (stationPlaced r (some f) s) = stationRecord st.address s := by
    unfold stationRecord
    congr 1
    funext i
    by_cases hi : i = r
    · subst hi
      cases hs : s.station i with
      | none =>
        by_cases h30 : i < 30
        · rw [stationPlaced_same h30, Option.map_some]
          simpa using fun h => hnew h.symm
        · rw [State.station, Table.get_beyond _ i (Nat.le_of_not_lt h30)]
          rfl
      | some old =>
        have := hold old hs
        rw [stationPlaced_same (station_lt s hs), Option.map_some]
        simpa [this] using fun h => hnew h.symm
    · rw [stationPlaced_other hi]
  rw [stationsSettled_station, stationPlaced_other hj, hst, Option.map_some]
  congr 1
  simp only [settleStation, if_neg hj, hsame]
  cases stationRecord st.address s == some j <;> rfl

theorem stationsSettled_empty (hr : r < 30) : (stationsSettled r none s).station r = none := by
  rw [stationsSettled_station, stationPlaced_same hr]
  rfl

/-- An address that no other record holds is not FAULTY after the load. -/
theorem stationsSettled_not_faulty (hr : r < 30) (f : Nat × Role × Nat) {a : Nat}
    (hall : ∀ j, j ≠ r → (s.station j).map (·.address) ≠ some a) :
    stationFaulty a (stationsSettled r (some f) s) = false := by
  unfold stationFaulty stationAt
  cases h : stationRecord a (stationsSettled r (some f) s) with
  | none => rfl
  | some i =>
    obtain ⟨-, st, hst, ha⟩ := stationRecord_some h
    by_cases hi : i = r
    · subst hi
      rw [Option.bind_some, stationsSettled_loaded hr]
      rfl
    · rw [stationsSettled_station, stationPlaced_other hi] at hst
      obtain ⟨st0, hst0, rfl⟩ := Option.map_eq_some_iff.mp hst
      rw [settleStation_address] at ha
      exact absurd (by rw [hst0, Option.map_some, ha]) (hall i hi)

/-- A FAULTY record whose address no other record holds makes its station FAULTY. -/
theorem stationFaulty_of_only {old : Station} (hold : s.station r = some old) (hfaulty : old.state = .faulty)
    (hall : ∀ j, j ≠ r → (s.station j).map (·.address) ≠ some old.address) : stationFaulty old.address s = true := by
  have hrec : stationRecord old.address s = some r := stationRecord_iff.mpr ⟨old, hold, rfl, fun j hj st hst ha =>
    hall j (Nat.ne_of_lt hj) (by rw [hst, Option.map_some, ha])⟩
  simp [stationFaulty, stationAt, hrec, hold, hfaulty]

end Settled

/-! ## The faults that a load ends (R139, R178) -/

theorem endFaults_keeps (before s : State) : OnlyReturned s (endFaults before s) :=
  forEach_induct (P := OnlyReturned s) _ (by simp) fun a _ t h => by simp [h]

/-- A channel that a station had faulted, through the ends of faults: the end of another station's fault leaves it, and the
end of its own returns it. -/
theorem endFaults_channel {before s : State} {a n : Nat} {ch : Channel} (ha : a ≤ 30)
    (hbefore : stationFaulty a before = true) (hafter : stationFaulty a s = false) (hch : s.channel n = some ch)
    (hstation : ch.station = a) (hfaulted : ch.state = .faulted) (hcause : ch.cause = some .station) :
    ∃ ch', (endFaults before s).channel n = some ch' ∧ ch'.cause = none ∧ ch'.current = none ∧
      ch'.state = if s.mgu.part = .run ∧ ch.hold = false then .active else .held := by
  have hmem : a ∈ (List.range 31).filter fun a => stationFaulty a before && !stationFaulty a s := by
    simp only [List.mem_filter, List.mem_range, hbefore, hafter, Bool.not_false, Bool.and_self, and_true]
    omega
  obtain ⟨t, ⟨hmgu, -⟩, htn, hend⟩ := forEach_at (fun t _ => t.channel n)
    (fun t => t.mgu = s.mgu ∧ ∃ c, t.channel n = some c ∧ c.station = a) (f := stationReturned)
    (List.nodup_range.filter _) hmem (s := s) ⟨rfl, ch, hch, hstation⟩
    (by
      rintro b - t ⟨hmgu, c, hc, hca⟩
      rw [stationReturned_eq]
      obtain ⟨c', hc', hreturn, hstay⟩ := chuStationReturn_channel t b n c hc
      refine ⟨by simp [hmgu], c', hc', ?_⟩
      by_cases hb : c.station = b ∧ c.state = .faulted ∧ c.cause = some .station
      · obtain ⟨-, -, -, -, hkeep, -⟩ := hreturn hb
        exact hkeep.trans hca
      · rw [hstay hb, hca])
    (by
      rintro b - hne t ⟨-, c, hc, hca⟩
      rw [stationReturned_eq]
      obtain ⟨c', hc', -, hstay⟩ := chuStationReturn_channel t b n c hc
      rw [hc', hc, hstay fun h => hne (h.1.symm.trans hca)])
  rw [stationReturned_eq] at hend
  obtain ⟨ch', hch', hreturn, -⟩ := chuStationReturn_channel t a n ch (htn.trans hch)
  obtain ⟨hc, hcurrent, -, -, -, hstate⟩ := hreturn ⟨hstation, hfaulted, hcause⟩
  exact ⟨ch', hend.trans hch', hc, hcurrent, by rw [hstate, hmgu]⟩

/-! ## Station records read -/

theorem readStation_three (u v w : Int) : readStation [⟨1, [u]⟩, ⟨2, [v]⟩, ⟨3, [w]⟩] =
    if (1 ≤ u ∧ u ≤ 30) ∧ (1 ≤ v ∧ v ≤ 5) ∧ 100 ≤ w ∧ w ≤ 5000 then
      some (some (u.toNat, roles.getD (v.toNat - 1) .other, w.toNat))
    else none := by
  rw [readStation, fieldOption_of_given (vs := [u]) rfl, fieldOr_of_given (vs := [v]) rfl,
    fieldOr_of_given (vs := [w]) rfl, nameAt_one roles .other, show (roles.length : Int) = 5 from rfl]
  simp only [natIn_one, Nat.cast_ofNat, Nat.cast_one, ite_some_map, Option.bind_eq_bind, Option.pure_def, ite_some_bind,
    ← ite_and, Option.map_some]

/-- A station record loaded with all its values: the record, the other records, the channels of the station it takes away,
and the blocks that stay (R178). -/
theorem loadStation_record {s : State} {r : Nat} (hr : r < 30) (hpart : s.mgu.part = .config) (f : Nat × Role × Nat) :
    let t := endFaults s (stationsSettled r (some f) s)
    t.station r = some { Station.loaded f with
        silenceTimer := if ∃ j < r, (s.station j).map (·.address) = some f.1 then .stopped
          else .running (s.now + 100 * f.2.2) } ∧
      (∀ j st, j ≠ r → s.station j = some st → st.address ≠ f.1 →
        (∀ old, s.station r = some old → old.address ≠ st.address) → t.station j = some st) ∧
      (∀ old, s.station r = some old → old.state = .faulty → old.address ≤ 30 →
        (∀ j, j ≠ r → (s.station j).map (·.address) ≠ some old.address) →
        ∀ k ch, s.channel k = some ch → ch.station = old.address → ch.state = .faulted → ch.cause = some .station →
          ∃ ch', t.channel k = some ch' ∧ ch'.state = .held ∧ ch'.cause = none ∧ ch'.current = none) := by
  intro t
  obtain ⟨-, -, -, hstm, -⟩ : OnlyReturned (stationsSettled r (some f) s) t := endFaults_keeps _ _
  have hstation : ∀ j, t.station j = (stationsSettled r (some f) s).station j := fun j => by
    rw [State.station, hstm]; rfl
  refine ⟨(hstation r).trans (stationsSettled_loaded hr f), fun j st hj hst hnew hold =>
    (hstation j).trans (stationsSettled_other hj hst hnew hold),
    fun old hold hfaulty ha hall k ch hch hs hstate hcause => ?_⟩
  obtain ⟨ch', hch', hnone, hcurrent, hstate'⟩ := endFaults_channel (before := s) (s := stationsSettled r (some f) s) ha
    (stationFaulty_of_only hold hfaulty hall) (stationsSettled_not_faulty hr f hall) hch hs hstate hcause
  refine ⟨ch', hch', hstate'.trans (if_neg fun h => ?_), hnone, hcurrent⟩
  have hconfig : (stationsSettled r (some f) s).mgu.part = .config := hpart
  rw [hconfig] at h
  cases h.1

end Sys2Proof.Machine
end


-- ==== Sys2Proof/Proofs/StructuralLoads.lean ====
section
/-! SUPPORT. STRUCTURAL loads of station, settings, point, client and intercept records: each owner's decision of
the values given, as one condition (R25, R40, R168, R178, R179, R201). -/

namespace Sys2Proof.Machine

/-! ## Settings, management station, points and clients -/

section

variable (s : State) (n : Nat) (u v w x y z : Int)

theorem loadSettings_three : loadSettings [⟨1, [u]⟩, ⟨2, [v]⟩, ⟨3, [w]⟩] s =
    if (10 ≤ u ∧ u ≤ 100) ∧ (0 ≤ v ∧ v ≤ 32) ∧ 1 ≤ w ∧ w ≤ 3 then
      .ok { s with stm := { s.stm with
        pollTimeout := u.toNat, retryLimit := v.toNat, returnMode := returnModes.getD (w.toNat - 1) .halt } }
    else .error .badValue := by
  rw [loadSettings, withFields_of_only rfl, required_of_given (vs := [u]) rfl, required_of_given (vs := [v]) rfl,
    required_of_given (vs := [w]) rfl, nameAt_one returnModes .halt, show (returnModes.length : Int) = 3 from rfl]
  simp only [natIn_one, Nat.cast_ofNat, Nat.cast_zero, Option.bind_eq_bind, Option.pure_def, ite_some_bind, ← ite_and,
    orBadValue_ite]

/-- A code of a return mode that is in its range. -/
theorem returnModes_getD {w : Int} (h : 1 ≤ w ∧ w ≤ 3) :
    returnModes.getD (w.toNat - 1) .halt = if w = 1 then .auto else if w = 2 then .manual else .halt := by
  obtain rfl | rfl | rfl : w = 1 ∨ w = 2 ∨ w = 3 := by omega
  all_goals rfl

theorem loadManager_one : loadManager [⟨1, [u]⟩] s =
    if 1 ≤ u ∧ u ≤ 30 then .ok { s with mgu.manager := u.toNat } else .error .badValue := by
  rw [loadManager, withFields_of_only rfl, required_of_given (vs := [u]) rfl]
  simp only [natIn_one, Nat.cast_ofNat, Nat.cast_one, orBadValue_ite]

theorem readSource_pair : readSource [2, u, v] =
    if (1 ≤ u ∧ u ≤ 30) ∧ 0 ≤ v ∧ v ≤ 255 then some (some (u.toNat, v.toNat)) else none := by
  show ((natIn 1 30 [u]).bind fun station => (natIn 0 255 [v]).bind fun slot => some (some (station, slot))) = _
  simp only [natIn_one, Nat.cast_ofNat, Nat.cast_one, Nat.cast_zero, ite_some_bind, ← ite_and]

theorem readSubstitute_point : readSubstitute [3, y, z] =
    if 0 ≤ y ∧ y ≤ 47 then some (some (.point y.toNat z)) else none := by
  show (natIn 0 47 [y]).map (fun p => some (Substitute.point p z)) = _
  simp only [natIn_one, Nat.cast_ofNat, Nat.cast_zero, ite_some_map]

theorem loadPoint_mapped : loadPoint .structural n
      [⟨1, [2, u, v]⟩, ⟨2, [w, x]⟩, ⟨3, [3, y, z]⟩, ⟨4, [16]⟩, ⟨5, [4]⟩, ⟨6, [100]⟩] s =
    if ((1 ≤ u ∧ u ≤ 30) ∧ 0 ≤ v ∧ v ≤ 255) ∧ 0 ≤ y ∧ y ≤ 47 then
      .ok (s.setPoint n
        { source := some (u.toNat, v.toNat), lo := w, hi := x, substitute := some (.point y.toNat z), step := 16,
          confirm := 4, staleLimit := 100, quality := .none, accepted := none, candidate := none,
          staleTimer := .stopped })
    else .error .badValue := by
  generalize hitems : ([⟨1, [2, u, v]⟩, ⟨2, [w, x]⟩, ⟨3, [3, y, z]⟩, ⟨4, [16]⟩, ⟨5, [4]⟩, ⟨6, [100]⟩] :
    List FieldItem) = items
  have hrange : fieldOr items 2 (-32768, 32767) readRange = some (w, x) := by
    subst hitems; exact fieldOr_of_given (vs := [w, x]) rfl
  have htuned : ∀ pt, readPointTunables items pt = some { pt with step := 16, confirm := 4, staleLimit := 100 } := by
    subst hitems; intro pt; rfl
  have honly : onlyFields items [1, 2, 3, 4, 5, 6] = true := by subst hitems; rfl
  have hsource : fieldOr items 1 none readSource = readSource [2, u, v] := by
    subst hitems; exact fieldOr_of_given rfl
  have hsubstitute : fieldOr items 3 none readSubstitute = readSubstitute [3, y, z] := by
    subst hitems; exact fieldOr_of_given rfl
  rw [loadPoint, withFields_of_only honly, readPoint, hsource, hrange, hsubstitute, readSource_pair, readSubstitute_point]
  simp only [Option.bind_eq_bind, Option.bind_some, ite_some_bind, ← ite_and, htuned, orBadValue_ite]

/-- A code of a lapse policy that is in its range. -/
theorem lapsePolicies_getD {v : Int} (h : 1 ≤ v ∧ v ≤ 2) :
    lapsePolicies.getD (v.toNat - 1) .fallback = if v = 1 then .release else .fallback := by
  obtain rfl | rfl : v = 1 ∨ v = 2 := by omega
  all_goals rfl

theorem loadClient_entry :
    loadClient .structural n [⟨1, [u]⟩, ⟨2, [v]⟩, ⟨3, [w]⟩, ⟨4, [x]⟩, ⟨5, [y]⟩] s =
    if (1 ≤ u ∧ u ≤ 30) ∧ (1 ≤ v ∧ v ≤ 2) ∧ (0 ≤ w ∧ w ≤ 3) ∧ (1 ≤ x ∧ x ≤ 15) ∧ 200 ≤ y ∧ y ≤ 10000 then
      .ok (s.setClient n { s.client n with
        entry := some
          { station := u.toNat, policy := lapsePolicies.getD (v.toNat - 1) .fallback, defaultClass := w.toNat,
            defaultWeight := x.toNat, leasePeriod := y.toNat } })
    else .error .badValue := by
  rw [loadClient, withFields_of_only rfl, readClient, fieldOption_of_given (vs := [u]) rfl,
    fieldOr_of_given (vs := [v]) rfl, fieldOr_of_given (vs := [w]) rfl, fieldOr_of_given (vs := [x]) rfl,
    fieldOr_of_given (vs := [y]) rfl, nameAt_one lapsePolicies .fallback, show (lapsePolicies.length : Int) = 2 from rfl]
  simp only [natIn_one, Nat.cast_ofNat, Nat.cast_one, Nat.cast_zero, ite_some_map, Option.bind_eq_bind, Option.pure_def,
    ite_some_bind, ← ite_and, Option.map_some, orBadValue_ite]

theorem loadClient_station : loadClient .structural n [⟨1, [u]⟩] s =
    if 1 ≤ u ∧ u ≤ 30 then
      .ok (s.setClient n { s.client n with
        entry := some
          { station := u.toNat, policy := .release, defaultClass := 2, defaultWeight := 8, leasePeriod := 1000 } })
    else .error .badValue := by
  rw [loadClient, withFields_of_only rfl, readClient, fieldOption_of_given (vs := [u]) rfl, fieldOr_absent rfl,
    fieldOr_absent rfl, fieldOr_absent rfl, fieldOr_absent rfl]
  simp only [natIn_one, Nat.cast_ofNat, Nat.cast_one, ite_some_map, Option.bind_eq_bind, Option.pure_def, ite_some_bind,
    Option.bind_some, Option.map_some, orBadValue_ite]

end

/-! ## Intercept entries (R168) -/

/-- A mapping as it is loaded (log 13). -/
def mappingValues (m : Mapping) : List Int := [(m.output : Int), (m.resource : Int), (m.scale : Int)]

/-- A mapping in the ranges of R168. -/
abbrev Mapping.InRange (m : Mapping) : Prop := m.output ≤ 7 ∧ m.resource ≤ 11 ∧ 1 ≤ m.scale ∧ m.scale ≤ 10000

theorem takeMappings_values (ms : List Mapping) :
    takeMappings ms.length (ms.flatMap mappingValues) = if ∀ y ∈ ms, y.InRange then some ms else none := by
  induction ms with
  | nil => simp [takeMappings]
  | cons m ms ih =>
    have hone : takeMappings (ms.length + 1) ((m :: ms).flatMap mappingValues) =
        (natIn 0 7 [(m.output : Int)]).bind fun output => (natIn 0 11 [(m.resource : Int)]).bind fun resource =>
          (natIn 1 10000 [(m.scale : Int)]).bind fun scale => (takeMappings ms.length (ms.flatMap mappingValues)).map
            fun more => { output := output, resource := resource, scale := scale } :: more := rfl
    rw [List.length_cons, hone, ih]
    simp only [natIn_one, ite_some_map, ite_some_bind, ← ite_and, Int.toNat_natCast]
    refine if_congr ?_ rfl rfl
    rw [List.forall_mem_cons, Mapping.InRange]
    constructor
    · rintro ⟨ho, hr, hx, hrest⟩
      exact ⟨by omega, hrest⟩
    · rintro ⟨hm, hrest⟩
      exact ⟨by omega, by omega, by omega, hrest⟩

theorem readMappings_values (ms : List Mapping) :
    readMappings ((ms.length : Int) :: ms.flatMap mappingValues) =
      if (1 ≤ ms.length ∧ ms.length ≤ 4) ∧ ∀ y ∈ ms, y.InRange then some ms else none := by
  have hcount : (1 : Int) ≤ (ms.length : Int) ∧ (ms.length : Int) ≤ 4 ↔ 1 ≤ ms.length ∧ ms.length ≤ 4 := by omega
  simp only [readMappings, Int.toNat_natCast, takeMappings_values, hcount, ite_and]

theorem loadIntercept_entry (n : Nat) (u v : Int) (ms : List Mapping) (s : State) :
    loadIntercept n [⟨1, [u]⟩, ⟨2, [v]⟩, ⟨3, (ms.length : Int) :: ms.flatMap mappingValues⟩] s =
      if (1 ≤ u ∧ u ≤ 30) ∧ (1 ≤ v ∧ v ≤ 30) ∧ (1 ≤ ms.length ∧ ms.length ≤ 4) ∧ ∀ y ∈ ms, y.InRange then
        .ok { s with fsu.entries := s.fsu.entries.set n (some
          { source := u.toNat, destination := v.toNat, mappings := ms }) }
      else .error .badValue := by
  rw [loadIntercept, withFields_of_only rfl, readIntercept, fieldOption_of_given (vs := [u]) rfl,
    fieldOption_of_given (vs := [v]) rfl,
    fieldOption_of_given (vs := (ms.length : Int) :: ms.flatMap mappingValues) rfl, readMappings_values]
  simp only [natIn_one, Nat.cast_ofNat, Nat.cast_one, ite_some_map, Option.bind_eq_bind, Option.pure_def, ite_some_bind,
    Option.bind_some]
  by_cases hu : 1 ≤ u ∧ u ≤ 30
  · by_cases hv : 1 ≤ v ∧ v ≤ 30
    · by_cases hms : (1 ≤ ms.length ∧ ms.length ≤ 4) ∧ ∀ y ∈ ms, y.InRange
      · rw [if_pos hu, if_pos hv, if_pos hms, if_pos ⟨hu, hv, hms⟩]; rfl
      · rw [if_pos hu, if_pos hv, if_neg hms, if_neg fun h => hms h.2.2]; rfl
    · rw [if_pos hu, if_neg hv, if_neg fun h => hv h.2.1]; rfl
  · rw [if_neg hu, if_neg fun h => hu h.1]; rfl

theorem carries_mappings {ms : List Mapping}
    (h : ∀ y ∈ ms, y.output ≤ 32767 ∧ y.resource ≤ 32767 ∧ y.scale ≤ 32767) :
    ∀ v ∈ ms.flatMap mappingValues, Carries v := by
  intro v hv
  obtain ⟨y, hy, hv⟩ := List.mem_flatMap.mp hv
  obtain ⟨ho, hr, hx⟩ := h y hy
  simp only [mappingValues, List.mem_cons, List.not_mem_nil, or_false] at hv
  rcases hv with rfl | rfl | rfl
  · exact carries_natCast ho
  · exact carries_natCast hr
  · exact carries_natCast hx

theorem length_flatMap_mappingValues (ms : List Mapping) : (ms.flatMap mappingValues).length = 3 * ms.length := by
  induction ms with
  | nil => rfl
  | cons m ms ih =>
    rw [List.flatMap_cons, List.length_append, List.length_cons, ih]
    show 3 + _ = _
    omega

/-! ## The statement -/

section

variable {m : ManageCtx} {s : State} (hm : FromManager m s) (hconfig : (loadTaken m s).mgu.part = .config)
include hm hconfig

/-- The loads of a station record (R178). -/
theorem station_loads {n : Nat} (hn : n < 30) {u v w : Int} (hu : Carries u) (hv : Carries v) (hw : Carries w) :
    let s0 := loadTaken m s
    let fits : Prop := (1 ≤ u ∧ u ≤ 30) ∧ (1 ≤ v ∧ v ≤ 5) ∧ 100 ≤ w ∧ w ≤ 5000
    (fits → LoadDone m (loadOf m 1 n 1 [⟨1, [u]⟩, ⟨2, [v]⟩, ⟨3, [w]⟩]) s (endFaults s0
      (stationsSettled n (some (u.toNat, roles.getD (v.toNat - 1) .other, w.toNat)) s0))) ∧
    (¬fits → LoadRefused m (loadOf m 1 n 1 [⟨1, [u]⟩, ⟨2, [v]⟩, ⟨3, [w]⟩]) s .badValue) ∧
    LoadDone m (loadOf m 1 n 1 []) s (endFaults s0 (stationsSettled n none s0)) := by
  intro s0 fits
  have htable : TakesLoad 1 n .structural := takesLoad_of_shape rfl hn (by simp)
  have hclass : ClassAllowed .structural (loadTaken m s) := classAllowed_config hconfig _
  obtain ⟨hdone, hrefused⟩ := load_decided hm htable hclass (items := [⟨1, [u]⟩, ⟨2, [v]⟩, ⟨3, [w]⟩])
    (by simp [FieldItem.Plain, hu, hv, hw]) (P := fits) (fits := fits)
    (t := endFaults s0 (stationsSettled n (some (u.toNat, roles.getD (v.toNat - 1) .other, w.toNat)) s0))
    (by
      show loadStation n _ s0 = _
      by_cases hfits : fits
      · rw [loadStation_of_read n s0 rfl ((readStation_three u v w).trans (if_pos hfits)), if_pos hfits]
      · rw [loadStation, withFields_of_only rfl, (readStation_three u v w).trans (if_neg hfits), if_neg hfits]
        rfl) Iff.rfl
  exact ⟨hdone, hrefused, loadDone_of_plain hm htable hclass (by simp) (loadStation_of_read n s0 rfl rfl)⟩

end

/-- Settles O25: each table's load is its owner's decision of the values given. -/
theorem structuralRecordsLoaded : Obligations.StructuralRecordsLoaded := by
  intro m n u v w x y z s hm hu hv hw hx hy hz s0 hconfig
  have hclass : ClassAllowed .structural (loadTaken m s) := classAllowed_config hconfig _
  have hbyte : ∀ k : Int, 0 ≤ k → k ≤ 255 → Carries k := fun k h0 h255 => ⟨by omega, by omega⟩
  refine ⟨fun hn => ?_, ?_, ?_, fun hn => ?_, fun hn => ?_, fun ms hn hlen hms => ?_⟩
  · obtain ⟨hdone, hrefused, hempty⟩ := station_loads hm hconfig hn hu hv hw
    refine ⟨hrefused, fun hfits => ?_, _, hempty, ?_, ?_, ?_⟩
    · obtain ⟨hloaded, hothers, hchannels⟩ :=
        loadStation_record hn hconfig (u.toNat, roles.getD (v.toNat - 1) .other, w.toNat)
      obtain ⟨-, hlpu, hfsu, hstm, hpst, hcau, -, -, -, -, -, -, -, -, -, -, hmgu, -⟩ :=
        endFaults_keeps s0 (stationsSettled n (some (u.toNat, roles.getD (v.toNat - 1) .other, w.toNat)) s0)
      exact ⟨_, hdone hfits, hloaded, hothers, hchannels, hpst, hfsu, hcau, hlpu, hmgu, by rw [hstm]; rfl⟩
    all_goals
      obtain ⟨-, -, -, hstm, hpst, hcau, -⟩ := endFaults_keeps s0 (stationsSettled n none s0)
    · rw [State.station, hstm]
      exact stationsSettled_empty hn
    · exact hpst
    · exact hcau
  · obtain ⟨hdone, hrefused⟩ := load_decided hm (takesLoad_of_shape (table := 2) (n := 0) rfl (by simp) (by simp)) hclass
      (by simp [FieldItem.Plain, hu, hv, hw]) (loadSettings_three s0 u v w) Iff.rfl
    refine ⟨fun hfits => ?_, hrefused⟩
    have := hdone hfits
    rwa [returnModes_getD hfits.2.2] at this
  · obtain ⟨hdone, hrefused⟩ := load_decided hm (takesLoad_of_shape (table := 3) (n := 0) rfl (by simp) (by simp)) hclass
      (by simp [FieldItem.Plain, hu]) (loadManager_one s0 u) Iff.rfl
    exact ⟨fun h1 h30 => hdone ⟨h1, h30⟩, hrefused⟩
  · have htable : TakesLoad 4 n .structural := takesLoad_of_shape rfl hn (by simp)
    obtain ⟨hdone, hrefused⟩ := load_decided hm htable hclass
      (by simp [FieldItem.Plain, hu, hv, hw, hx, hy, hz, hbyte]) (loadPoint_mapped s0 n u v w x y z) and_assoc.symm
    exact ⟨hdone, hrefused, loadDone_of_plain hm htable hclass (by simp [FieldItem.Plain, hy, hbyte]) rfl⟩
  · have htable : TakesLoad 5 n .structural := takesLoad_of_shape rfl hn (by simp)
    obtain ⟨hdone, hrefused⟩ := load_decided hm htable hclass
      (by simp [FieldItem.Plain, hu, hv, hw, hx, hy]) (loadClient_entry s0 n u v w x y) Iff.rfl
    obtain ⟨hstation, -⟩ :=
      load_decided hm htable hclass (by simp [FieldItem.Plain, hu]) (loadClient_station s0 n u) Iff.rfl
    refine ⟨fun hfits => ?_, hrefused, fun h1 h30 => hstation ⟨h1, h30⟩,
      loadDone_of_plain hm htable hclass (by simp) rfl⟩
    have := hdone hfits
    rwa [lapsePolicies_getD hfits.2.1] at this
  · have htable : TakesLoad 9 n .structural := takesLoad_of_shape rfl hn (by simp)
    have hvalues := carries_mappings hms
    have hlength := length_flatMap_mappingValues ms
    obtain ⟨hdone, hrefused⟩ := load_decided hm htable hclass
      (items := [⟨1, [u]⟩, ⟨2, [v]⟩, ⟨3, (ms.length : Int) :: ms.flatMap mappingValues⟩])
      (by
        simp only [List.forall_mem_cons, FieldItem.Plain, List.length_cons, hlength]
        refine ⟨by simp [hu], by simp [hv], ⟨by omega, by omega, carries_natCast (by omega), hvalues⟩, by simp⟩)
      (loadIntercept_entry n u v ms s0) Iff.rfl
    exact ⟨hdone, hrefused, loadDone_of_plain hm htable hclass (by simp) rfl⟩

end Sys2Proof.Machine
end


-- ==== Sys2Proof/Proofs/RecordsFreed.lean ====
section
/-! SUPPORT. What the freeing of revocation records and the clearing of their marks leave of records, holders and the
PRF (R57, R78 to R80). -/

namespace Sys2Proof.Machine

variable {s t u : State}

/-! ## Records after the clearing of their marks -/

theorem freeRecord_record (k j : Nat) (s : State) :
    (freeRecord k s).record j = if k = j then none else s.record j := by
  unfold freeRecord
  split
  · next h =>
    split
    · next e => rw [← e, h]
    · rfl
  · next v h =>
    have hrecords : ∀ x : State, (completePrf v.resource x).record j = x.record j := fun x => by simp [State.record]
    rw [hrecords, record_setRecord, moveHolder_record]
    by_cases hj : k = j
    · subst hj
      simp [record_lt s h]
    · simp [hj]

theorem rampClear_record (k j : Nat) (s : State) : (rampClear k s).record j =
    if k = j then (s.record k).bind fun v => if v.notice then some { v with ramp := .clear } else none
    else s.record j := by
  unfold rampClear
  cases h : s.record k with
  | none =>
    by_cases hj : k = j
    · subst hj; simp [h]
    · simp [hj]
  | some v =>
    have hk := record_lt s h
    by_cases hj : k = j
    · subst hj
      by_cases hn : v.notice = true <;> simp [hn, freeRecord_record, record_setRecord, hk]
    · by_cases hn : v.notice = true <;> simp [hn, freeRecord_record, record_setRecord, hj]

theorem noticeClear_record (k j : Nat) (s : State) : (noticeClear k s).record j =
    if k = j then (s.record k).bind fun v =>
      if v.notice then (if v.ramp = .clear then none else some { v with notice := false, timer := .stopped })
      else some v
    else s.record j := by
  unfold noticeClear
  cases h : s.record k with
  | none =>
    by_cases hj : k = j
    · subst hj; simp [h]
    · simp [hj]
  | some v =>
    have hk := record_lt s h
    by_cases hj : k = j
    · subst hj
      by_cases hn : v.notice = true
      · by_cases hr : v.ramp = .clear <;> simp [hn, hr, freeRecord_record, record_setRecord, hk]
      · simp [hn, h]
    · by_cases hn : v.notice = true
      · by_cases hr : v.ramp = .clear <;> simp [hn, hr, freeRecord_record, record_setRecord, hj]
      · simp [hn, hj]

/-! ## Holders after the freeing of records (R57, R80) -/

/-- What the freeing of revocation records can make of a holder: a YIELDING one becomes NONE, and one with a PRF entry
takes a standing. -/
inductive HolderFreed (h : Holder) : Holder → Prop where
  | same : HolderFreed h h
  | freed : h.state = .yielding → HolderFreed h {}
  | completed (st : HolderState) : h.state.pends = true → st = .shared ∨ st = .exclusive →
      HolderFreed h { h with state := st, target := none }

theorem HolderFreed.trans {h h' h'' : Holder} (a : HolderFreed h h') (b : HolderFreed h' h'') : HolderFreed h h'' := by
  cases a with
  | same => exact b
  | freed hy =>
    cases b with
    | same => exact .freed hy
    | freed hy' => cases hy'
    | completed _ hp _ => cases hp
  | completed st hp hst =>
    cases b with
    | same => exact .completed st hp hst
    | freed hy' =>
      dsimp only at hy'
      rcases hst with rfl | rfl <;> cases hy'
    | completed _ hp' _ =>
      dsimp only at hp'
      rcases hst with rfl | rfl <;> cases hp'

/-- A holder that is neither YIELDING nor in the PRF stays. -/
theorem HolderFreed.eq_of {h h' : Holder} (a : HolderFreed h h') (hy : h.state ≠ .yielding)
    (hp : h.state.pends = false) : h' = h := by
  cases a with
  | same => rfl
  | freed hy' => exact absurd hy' hy
  | completed _ hp' _ => rw [hp] at hp'; cases hp'

/-- A completion moves the holder of a PRF entry of the resource, and no other. -/
theorem completePrf_holder (r r' c' : Nat) (s : State) : (completePrf r s).holder r' c' = s.holder r' c' ∨
    ∃ e ∈ s.din.prf, e.resource = r' ∧ e.client = c' ∧ r' = r ∧ ∃ st, (st = .shared ∨ st = .exclusive) ∧
      (completePrf r s).holder r' c' = (moveHolder r' c' st s).holder r' c' := by
  rcases completePrf_cases s r with heq | ⟨e, -, hfind, heq⟩
  · exact .inl (by rw [heq])
  · have hr : e.resource = r := by simpa using List.find?_some hfind
    have hholder : (completePrf r s).holder r' c' =
        (moveHolder r e.client (completedState (s.holder r e.client) e.target) s).holder r' c' := by
      rw [heq]; simp [State.holder]
    by_cases he : (r', c') = (r, e.client)
    · obtain ⟨rfl, rfl⟩ := Prod.mk.inj he
      exact .inr ⟨e, List.mem_of_find?_eq_some hfind, hr, rfl, rfl, _, completedState_standing _ _, hholder⟩
    · exact .inl (hholder.trans (moveHolder_other s _ he))

theorem completePrf_freed (hprf : ∀ e ∈ s.din.prf, (s.holder e.resource e.client).state.pends = true) (r r' c' : Nat) :
    HolderFreed (s.holder r' c') ((completePrf r s).holder r' c') := by
  rcases completePrf_holder r r' c' s with heq | ⟨e, he, rfl, rfl, -, st, hst, heq⟩
  · rw [heq]; exact .same
  · have hp := hprf e he
    have henter : (s.holder e.resource e.client).enter st =
        { s.holder e.resource e.client with state := st, target := none } := by
      rcases hst with rfl | rfl <;> rfl
    rw [heq, moveHolder_holder, henter]
    split
    · exact .completed st hp hst
    · exact .same

/-- The freeing of a record leaves the holders of the other resources. -/
theorem freeRecord_holder_other {k r : Nat} {v : Revocation} (h : s.record k = some v) (hr : v.resource ≠ r) (c : Nat) :
    (freeRecord k s).holder r c = s.holder r c := by
  have hmove : ((moveHolder v.resource v.client .none s).setRecord k none).holder r c = s.holder r c :=
    moveHolder_other s _ fun e => hr (Prod.mk.inj e).1.symm
  simp only [freeRecord, h]
  rcases completePrf_holder v.resource r c ((moveHolder v.resource v.client .none s).setRecord k none) with
    heq | ⟨-, -, -, -, hres, -⟩
  · exact heq.trans hmove
  · exact absurd hres.symm hr

theorem freeRecord_freed (hlaw : StandingLaw s) (k r c : Nat) :
    HolderFreed (s.holder r c) ((freeRecord k s).holder r c) := by
  unfold freeRecord
  split
  · exact .same
  · next v hv =>
    obtain ⟨-, hrecords, -, hentries, -⟩ := hlaw
    obtain ⟨-, -, hyielding⟩ := hrecords k v hv
    have hmove : ∀ r' c', ((moveHolder v.resource v.client .none s).setRecord k none).holder r' c' =
        (moveHolder v.resource v.client .none s).holder r' c' := fun _ _ => rfl
    have hfirst : HolderFreed (s.holder r c) ((moveHolder v.resource v.client .none s).holder r c) := by
      rw [moveHolder_holder]
      split
      · next h =>
        obtain ⟨rfl, rfl, -⟩ := h
        exact .freed hyielding
      · exact .same
    refine hfirst.trans ?_
    rw [← hmove]
    refine completePrf_freed (fun e he => ?_) _ _ _
    obtain ⟨-, -, hpends⟩ := hentries e (by simpa using he)
    rw [hmove, moveHolder_other]
    · exact hpends
    · intro h
      obtain ⟨hr, hc⟩ := Prod.mk.inj h
      rw [hr, hc, hyielding] at hpends
      cases hpends

theorem freeRecord_prf (k : Nat) (s : State) : ∀ e ∈ (freeRecord k s).din.prf, e ∈ s.din.prf := by
  unfold freeRecord
  split
  · exact fun _ he => he
  · next v hv =>
    generalize hx : (moveHolder v.resource v.client .none s).setRecord k none = x
    have hdin : x.din = s.din := by rw [← hx]; simp
    rcases completePrf_cases x v.resource with heq | ⟨e, -, -, heq⟩
    · rw [heq, hdin]; exact fun _ he => he
    · intro y hy
      rw [heq, removePrf_din] at hy
      have := List.mem_of_mem_filter hy
      simpa [hdin] using this

/-! ## A run of such operations -/

/-- From `s` to `t` revocation records have freed, and PRF entries completed. -/
structure RecordsFreed (s t : State) : Prop where
  law : StandingLaw t
  holder : ∀ r c, HolderFreed (s.holder r c) (t.holder r c)
  prf : ∀ e ∈ t.din.prf, e ∈ s.din.prf

theorem RecordsFreed.refl (h : StandingLaw s) : RecordsFreed s s := ⟨h, fun _ _ => .same, fun _ he => he⟩

theorem RecordsFreed.freeRecord (h : RecordsFreed s t) (k : Nat) : RecordsFreed s (freeRecord k t) :=
  ⟨h.law.freeRecord k, fun r c => (h.holder r c).trans (freeRecord_freed h.law k r c),
    fun e he => h.prf e (freeRecord_prf k t e he)⟩

theorem RecordsFreed.rewriteRecord (h : RecordsFreed s t) {k : Nat} {v w : Revocation} (hv : t.record k = some v)
    (hr : w.resource = v.resource) (hc : w.client = v.client) : RecordsFreed s (t.setRecord k (some w)) :=
  ⟨h.law.rewriteRecord hv hr hc, h.holder, h.prf⟩

theorem RecordsFreed.rampClear (h : RecordsFreed s t) (k : Nat) : RecordsFreed s (rampClear k t) := by
  unfold Machine.rampClear
  split
  · exact h
  · next v hv =>
    have hrewrite := h.rewriteRecord (w := { v with ramp := .clear }) hv rfl rfl
    dsimp only
    split
    · exact hrewrite
    · exact hrewrite.freeRecord k

theorem RecordsFreed.noticeClear (h : RecordsFreed s t) (k : Nat) : RecordsFreed s (noticeClear k t) := by
  unfold Machine.noticeClear
  split
  · exact h
  · next v hv =>
    have hrewrite := h.rewriteRecord (w := { v with notice := false, timer := .stopped }) hv rfl rfl
    dsimp only
    repeat' split
    · exact hrewrite.freeRecord k
    · exact hrewrite
    · exact h

/-! ## Reports to the GTB (R78, R135) -/

/-- A report clears the ramp marks of records in SETTLE, and does nothing else. -/
theorem reportToGtb_induct {P : State → Prop} (hs : P s)
    (h : ∀ k v t, P t → t.record k = some v → v.ramp = .settle → P (rampClear k t)) (n : Nat) :
    P (reportToGtb n s) := by
  unfold reportToGtb
  refine forEach_induct _ hs fun k _ t ht => ?_
  split
  · next v hv =>
    split
    · next hc => exact h k v t ht hv hc.1
    · exact ht
  · exact ht

theorem RecordsFreed.reportToGtb (h : RecordsFreed s t) (n : Nat) : RecordsFreed s (reportToGtb n t) :=
  reportToGtb_induct h (fun k _ _ hx _ _ => hx.rampClear k) n

/-- From `s` to `t` the holders of a resource have stayed, and none of its records can free by the end of a ramp: each
is out of SETTLE or waits for its notice (R78, R80). -/
def RampsHold (r : Nat) (s t : State) : Prop :=
  (∀ k v, t.record k = some v → v.resource = r → v.ramp ≠ .settle ∨ v.notice = true) ∧
    ∀ c, t.holder r c = s.holder r c

theorem RampsHold.rampClear {r k : Nat} {v : Revocation} (h : RampsHold r s t) (hv : t.record k = some v)
    (hramp : v.ramp = .settle) : RampsHold r s (rampClear k t) := by
  obtain ⟨hrecords, hholders⟩ := h
  constructor
  · intro j w hw hr
    rw [rampClear_record, hv, Option.bind_some] at hw
    split at hw
    · split at hw
      · cases hw
        exact .inl (by simp)
      · cases hw
    · exact hrecords j w hw hr
  · intro c
    rw [← hholders c]
    simp only [Machine.rampClear, hv]
    split
    · rfl
    · next hnotice =>
      have hne : v.resource ≠ r := fun hr => (hrecords k v hv hr).elim (fun hn => hn hramp) hnotice
      exact freeRecord_holder_other (v := { v with ramp := .clear })
        (by rw [record_setRecord, if_pos ⟨rfl, record_lt t hv⟩]) hne c

theorem RampsHold.reportToGtb {r : Nat} (h : RampsHold r s t) (n : Nat) : RampsHold r s (reportToGtb n t) :=
  reportToGtb_induct h (fun _ _ _ hx hv hramp => hx.rampClear hv hramp) n

/-- A record whose notice mark is set, as reports leave it: in its place, its ramp mark changed only out of SETTLE. -/
def RampReported (k : Nat) (v : Revocation) (t : State) : Prop :=
  ∃ ramp, t.record k = some { v with ramp := ramp } ∧ (v.ramp ≠ .settle → ramp = v.ramp)

theorem RampReported.reportToGtb {k : Nat} {v : Revocation} (hnotice : v.notice = true) (h : RampReported k v t)
    (n : Nat) : RampReported k v (reportToGtb n t) := by
  refine reportToGtb_induct h (fun j w x hx hw hramp => ?_) n
  obtain ⟨ramp, hrec, hkeep⟩ := hx
  by_cases hj : j = k
  · subst hj
    obtain rfl := Option.some.inj (hrec.symm.trans hw)
    refine ⟨.clear, ?_, fun hne => absurd ((hkeep hne).symm.trans hramp) hne⟩
    rw [rampClear_record, if_pos rfl, hrec, Option.bind_some, if_pos hnotice]
  · exact ⟨ramp, by rw [rampClear_record, if_neg hj, hrec], hkeep⟩

end Sys2Proof.Machine
end


-- ==== Sys2Proof/Proofs/Lapses.lean ====
section
/-! SUPPORT. The lapses of a client's leases, and what they leave when its station is declared FAULTY (R49 to R53). -/

namespace Sys2Proof.Machine

variable {s t : State}

/-! ## One lapse (R50, R51) -/

/-- A holder whose lease lapses when its client's station is declared FAULTY: one with a lease, not lapsed yet (R49,
R53). -/
def Holder.lapses (h : Holder) : Bool :=
  !h.lapsed && decide (h.state ∈ [HolderState.waiting, .shared, .upgrading, .exclusive])

/-- Everything a lapse can do. -/
theorem lapse_cases (r c : Nat) (s : State) :
    ((s.holder r c).lapses = false ∧ lapse r c s = s) ∨
      ((s.holder r c).lapses = true ∧ ((s.holder r c).state = .waiting ∨ policyOf s c = .release) ∧
        lapse r c s = lapseToNone r c s) ∨
      ((s.holder r c).lapses = true ∧ (s.holder r c).state ≠ .waiting ∧ policyOf s c = .fallback ∧
        lapse r c s = lapseToFallback r c s) := by
  simp only [lapse, Holder.lapses]
  cases (s.holder r c).lapsed with
  | true => simp
  | false =>
    cases (s.holder r c).state with
    | none => simp
    | yielding => simp
    | waiting => simp
    | shared => cases policyOf s c <;> simp
    | upgrading => cases policyOf s c <;> simp
    | exclusive => cases policyOf s c <;> simp

/-- The mark that brings a lapse alert is clear after a lapse (R51). -/
theorem lapseAlert_client (c c' : Nat) (s : State) : (lapseAlert c s).client c' =
    if c = c' ∧ c' < 3 then { s.client c with lapseAlert := false } else s.client c' := by
  have hdin : ∀ (x : AlertCategory) (t : State), (raiseAlert x c t).client c' = t.client c' := fun x t => by
    simp [State.client]
  unfold lapseAlert
  split
  · rw [hdin, client_setClient]
  · next h =>
    split
    · next hc =>
      obtain ⟨rfl, -⟩ := hc
      cases hx : s.client c
      simp_all
    · rfl

theorem noteLapse_client (r c c' : Nat) (kept : Bool) (s : State) : (noteLapse r c kept s).client c' =
    if c = c' ∧ c' < 3 then { s.client c with lapseAlert := false } else s.client c' := by
  have hdin : ∀ x, (notify c [⟨r, .lapsed kept⟩] (countEvent .leaseLapses s)).client x = s.client x := fun x => by
    simp [State.client]
  rw [noteLapse, lapseAlert_client, hdin, hdin]

theorem noteLapse_count (r c : Nat) (kept : Bool) (s : State) :
    (noteLapse r c kept s).count .leaseLapses = raised (s.count .leaseLapses) := by
  have hcounts : (noteLapse r c kept s).alc.counts =
      (notify c [⟨r, .lapsed kept⟩] (countEvent .leaseLapses s)).alc.counts := by
    simp [noteLapse]
  rw [State.count, hcounts, ← State.count, notify_count, count_countEvent_same]

theorem noteLapse_holder (r c r' c' : Nat) (kept : Bool) (s : State) :
    (noteLapse r c kept s).holder r' c' = s.holder r' c' := by simp [State.holder]

/-- A holder that lapses to NONE, and the PRF without its entry. -/
theorem lapseToNone_spec {r c : Nat} (hr : r < 12) (hc : c < 3) (s : State) : (lapseToNone r c s).holder r c =
      (if (s.holder r c).state = .none then s.holder r c else {}) ∧
    ∀ y ∈ (lapseToNone r c s).din.prf, ¬(y.resource = r ∧ y.client = c) := by
  constructor
  · rw [lapseToNone, noteLapse_holder, moveHolder_self _ _ hr hc]
    rfl
  · have hprf : (lapseToNone r c s).din.prf = (removePrf r c s).din.prf := by simp [lapseToNone]
    rw [hprf]
    exact removePrf_gone r c

/-- A holder kept at its fallback quantity, and its client's mark (R50, R51). -/
theorem lapseToFallback_spec {r c : Nat} (hr : r < 12) (hc : c < 3) (s : State) : (lapseToFallback r c s).holder r c =
      { s.holder r c with q := (s.holder r c).fallback.getD 0, f := 0, lapsed := true, lease := .stopped } ∧
    ((lapseToFallback r c s).client c).lapseAlert = false := by
  constructor
  · rw [lapseToFallback, noteLapse_holder, holder_setHolder_same _ _ hr hc]
  · rw [lapseToFallback, noteLapse_client, if_pos ⟨rfl, hc⟩]

/-! ## What a lapse leaves -/

theorem lapse_holder_other {r c r' c' : Nat} (h : (r', c') ≠ (r, c)) (s : State) :
    (lapse r c s).holder r' c' = s.holder r' c' := by
  rcases lapse_cases r c s with ⟨-, e⟩ | ⟨-, -, e⟩ | ⟨-, -, -, e⟩
  · rw [e]
  · rw [e, lapseToNone, noteLapse_holder, moveHolder_other _ _ h]
    rfl
  · rw [e, lapseToFallback, noteLapse_holder, holder_setHolder_ne _ _ h]

/-- A lapse can clear the client's lapse-alert mark, and changes nothing else of a client. -/
theorem lapse_client (r c c' : Nat) (s : State) : (lapse r c s).client c' = s.client c' ∨
    (lapse r c s).client c' = { s.client c' with lapseAlert := false } := by
  have hnote : ∀ (kept : Bool) (t : State), t.din.clients = s.din.clients →
      (noteLapse r c kept t).client c' = s.client c' ∨
        (noteLapse r c kept t).client c' = { s.client c' with lapseAlert := false } := by
    intro kept t ht
    have hclient : ∀ x, t.client x = s.client x := fun x => by rw [State.client, ht]; rfl
    rw [noteLapse_client]
    split
    · next h => exact .inr (by rw [hclient, h.1])
    · exact .inl (hclient c')
  rcases lapse_cases r c s with ⟨-, e⟩ | ⟨-, -, e⟩ | ⟨-, -, -, e⟩
  · exact .inl (by rw [e])
  · rw [e]
    exact hnote _ _ (by simp)
  · rw [e]
    exact hnote _ _ (by simp)

theorem lapse_entry (r c c' : Nat) (s : State) : ((lapse r c s).client c').entry = (s.client c').entry := by
  rcases lapse_client r c c' s with e | e <;> rw [e]

theorem lapse_reservation (r c c' : Nat) (s : State) :
    ((lapse r c s).client c').reservation = (s.client c').reservation := by
  rcases lapse_client r c c' s with e | e <;> rw [e]

theorem lapse_lapseAlert (r c c' : Nat) {s : State} (h : (s.client c').lapseAlert = false) :
    ((lapse r c s).client c').lapseAlert = false := by
  rcases lapse_client r c c' s with e | e <;> rw [e]
  exact h

theorem lapse_prf (r c : Nat) (s : State) : ∀ y ∈ (lapse r c s).din.prf, y ∈ s.din.prf := by
  rcases lapse_cases r c s with ⟨-, e⟩ | ⟨-, -, e⟩ | ⟨-, -, -, e⟩
  · rw [e]; exact fun _ hy => hy
  · have hprf : (lapseToNone r c s).din.prf = (removePrf r c s).din.prf := by simp [lapseToNone]
    rw [e, hprf, removePrf_din]
    exact fun y hy => List.mem_of_mem_filter hy
  · have hprf : (lapseToFallback r c s).din.prf = s.din.prf := by simp [lapseToFallback]
    rw [e, hprf]
    exact fun _ hy => hy

theorem lapse_count (r c : Nat) (s : State) : (lapse r c s).count .leaseLapses =
    if (s.holder r c).lapses then raised (s.count .leaseLapses) else s.count .leaseLapses := by
  have hmove : (moveHolder r c .none (removePrf r c s)).count .leaseLapses = s.count .leaseLapses := by
    simp [State.count]
  rcases lapse_cases r c s with ⟨h, e⟩ | ⟨h, -, e⟩ | ⟨h, -, -, e⟩ <;> rw [e, h]
  · rfl
  · rw [lapseToNone, noteLapse_count, hmove]; rfl
  · rw [lapseToFallback, noteLapse_count]; rfl

/-! ## The leases of a client (R53) -/

/-- Every lease of a client lapses, and its reservation goes. -/
def lapseClient (c : Nat) (s : State) : State :=
  let s := forEach (List.range 12) (fun r s => lapse r c s) s
  s.setClient c { s.client c with reservation := none }

theorem dinStationFault_eq (a : Nat) (s : State) : dinStationFault a s = forEach (clientsAt s a) lapseClient s := rfl

theorem mem_clientsAt {s : State} {a c : Nat} :
    c ∈ clientsAt s a ↔ ∃ e, (s.client c).entry = some e ∧ e.station = a := by
  unfold clientsAt
  rw [List.mem_filter]
  constructor
  · rintro ⟨-, h⟩
    cases he : (s.client c).entry with
    | none => simp [he] at h
    | some e => exact ⟨e, rfl, by simpa [he] using h⟩
  · rintro ⟨e, he, ha⟩
    have hc := entry_lt s he
    refine ⟨by simp only [List.mem_cons, List.not_mem_nil, or_false]; omega, ?_⟩
    simp [he, ha]

/-- What one number of a list brings about, when the others before it leave what that needs and none after it
undoes it. -/
theorem forEach_establish {P Q : State → Prop} {f : Nat → State → State} {l : List Nat} {n : Nat} (hn : n ∈ l)
    {s : State} (hs : P s) (hP : ∀ i ∈ l, i ≠ n → ∀ t, P t → P (f i t)) (hPQ : ∀ t, P t → Q (f n t))
    (hQ : ∀ i ∈ l, ∀ t, Q t → Q (f i t)) : Q (forEach l f s) := by
  induction l generalizing s with
  | nil => cases hn
  | cons i l ih =>
    rw [forEach_cons]
    by_cases hi : i = n
    · subst hi
      exact forEach_induct l (hPQ s hs) fun j hj => hQ j (by simp [hj])
    · exact ih (by simpa [Ne.symm hi] using hn) (hP i (by simp) hi s hs) (fun j hj => hP j (by simp [hj]))
        fun j hj => hQ j (by simp [hj])

/-- What every lapse and the end of every reservation keep. -/
theorem lapseClient_induct {P : State → Prop} (c : Nat) (hs : P s) (hlapse : ∀ r t, P t → P (lapse r c t))
    (hclient : ∀ t, P t → P (t.setClient c { t.client c with reservation := none })) : P (lapseClient c s) :=
  hclient _ (forEach_induct _ hs fun r _ t ht => hlapse r t ht)

theorem dinStationFault_induct {P : State → Prop} (a : Nat) (hs : P s)
    (hlapse : ∀ r, ∀ c ∈ clientsAt s a, ∀ t, P t → P (lapse r c t))
    (hclient : ∀ c t, P t → P (t.setClient c { t.client c with reservation := none })) : P (dinStationFault a s) :=
  forEach_induct _ hs fun c hc _ ht => lapseClient_induct c ht (fun r t => hlapse r c hc t) (hclient c)

/-- What the lapse of one holder brings about at the fault of its client's station, when the other lapses leave what
that needs and none undoes it. -/
theorem dinStationFault_establish {P Q : State → Prop} {a r c : Nat} (hr : r < 12) (hc : c ∈ clientsAt s a) (hs : P s)
    (hP : ∀ r' c' t, (r, c) ≠ (r', c') → P t → P (lapse r' c' t)) (hPQ : ∀ t, P t → Q (lapse r c t))
    (hQ : ∀ r' c' t, Q t → Q (lapse r' c' t))
    (hPclient : ∀ c' t, P t → P (t.setClient c' { t.client c' with reservation := none }))
    (hQclient : ∀ c' t, Q t → Q (t.setClient c' { t.client c' with reservation := none })) :
    Q (dinStationFault a s) := by
  refine forEach_establish (P := P) hc hs (fun c' _ hne t ht => ?_) (fun t ht => ?_)
    fun c' _ t ht => lapseClient_induct c' ht (fun r' => hQ r' c') (hQclient c')
  · exact lapseClient_induct c' ht (fun r' u => hP r' c' u fun e => hne (Prod.mk.inj e).2.symm) (hPclient c')
  · refine hQclient c _ (forEach_establish (P := P) (List.mem_range.mpr hr) ht (fun r' _ hne u => ?_) hPQ
      fun r' _ => hQ r' c)
    exact hP r' c u fun e => hne (Prod.mk.inj e).1.symm

/-! ## The holders and clients after the fault of a client's station (R50, R51, R53) -/

theorem entry_clearReservation (c c' : Nat) (t : State) :
    ((t.setClient c { t.client c with reservation := none }).client c').entry = (t.client c').entry := by
  rw [client_setClient]
  split
  · next h => rw [h.1]
  · rfl

/-- A holder whose lease lapses to NONE is NONE, and out of the PRF. -/
theorem dinStationFault_gone {a r c : Nat} {e : ClientEntry} (hr : r < 12) (he : (s.client c).entry = some e)
    (ha : e.station = a) (hlapses : (s.holder r c).lapses = true)
    (hgoes : (s.holder r c).state = .waiting ∨ e.policy = .release) :
    (dinStationFault a s).holder r c = {} ∧ ∀ y ∈ (dinStationFault a s).din.prf, ¬(y.resource = r ∧ y.client = c) := by
  have hc3 := entry_lt s he
  have hstate : (s.holder r c).state ≠ .none := fun h => by simp [Holder.lapses, h] at hlapses
  refine dinStationFault_establish
    (P := fun t => t.holder r c = s.holder r c ∧ (t.client c).entry = some e)
    (Q := fun t => t.holder r c = {} ∧ ∀ y ∈ t.din.prf, ¬(y.resource = r ∧ y.client = c))
    hr (mem_clientsAt.mpr ⟨e, he, ha⟩) ⟨rfl, he⟩ ?_ ?_ ?_ ?_ fun _ _ h => h
  · exact fun r' c' t hne h => ⟨(lapse_holder_other hne t).trans h.1, (lapse_entry r' c' c t).trans h.2⟩
  · rintro t ⟨hholder, hentry⟩
    obtain ⟨hnone, hprf⟩ := lapseToNone_spec hr hc3 t
    rw [hholder, if_neg hstate] at hnone
    rcases lapse_cases r c t with ⟨hno, -⟩ | ⟨-, -, heq⟩ | ⟨-, hwait, hpolicy, -⟩
    · rw [hholder, hlapses] at hno; cases hno
    · rw [heq]
      exact ⟨hnone, hprf⟩
    · rw [policyOf, hentry, Option.map_some, Option.getD_some] at hpolicy
      rcases hgoes with h | h
      · exact absurd (hholder ▸ h) hwait
      · rw [h] at hpolicy; cases hpolicy
  · rintro r' c' t ⟨hholder, hprf⟩
    refine ⟨?_, fun y hy => hprf y (lapse_prf r' c' t y hy)⟩
    by_cases hsame : (r, c) = (r', c')
    · obtain ⟨rfl, rfl⟩ := Prod.mk.inj hsame
      rcases lapse_cases r c t with ⟨-, heq⟩ | ⟨hyes, -⟩ | ⟨hyes, -⟩
      · rw [heq, hholder]
      all_goals rw [hholder] at hyes; cases hyes
    · rw [lapse_holder_other hsame, hholder]
  · exact fun c' t h => ⟨h.1, (entry_clearReservation c' c t).trans h.2⟩

/-- A holder with a standing whose client keeps its fallback quantity is kept at it. -/
theorem dinStationFault_fallback {a r c : Nat} {e : ClientEntry} (hr : r < 12) (he : (s.client c).entry = some e)
    (ha : e.station = a) (hlapses : (s.holder r c).lapses = true) (hstate : (s.holder r c).state ≠ .waiting)
    (hpolicy : e.policy = .fallback) :
    (dinStationFault a s).holder r c = { s.holder r c with
        q := (s.holder r c).fallback.getD 0, f := 0, lapsed := true, lease := .stopped } ∧
      ((dinStationFault a s).client c).lapseAlert = false := by
  have hc3 := entry_lt s he
  refine dinStationFault_establish
    (P := fun t => t.holder r c = s.holder r c ∧ (t.client c).entry = some e)
    (Q := fun t => t.holder r c = { s.holder r c with
        q := (s.holder r c).fallback.getD 0, f := 0, lapsed := true, lease := .stopped } ∧
      (t.client c).lapseAlert = false)
    hr (mem_clientsAt.mpr ⟨e, he, ha⟩) ⟨rfl, he⟩ ?_ ?_ ?_ ?_ ?_
  · exact fun r' c' t hne h => ⟨(lapse_holder_other hne t).trans h.1, (lapse_entry r' c' c t).trans h.2⟩
  · rintro t ⟨hholder, hentry⟩
    have hpolicyOf : policyOf t c = .fallback := by rw [policyOf, hentry]; exact hpolicy
    rcases lapse_cases r c t with ⟨hno, -⟩ | ⟨-, hgoes, -⟩ | ⟨-, -, -, heq⟩
    · rw [hholder, hlapses] at hno; cases hno
    · rcases hgoes with h | h
      · exact absurd (hholder ▸ h) hstate
      · rw [hpolicyOf] at h; cases h
    · rw [heq, ← hholder]
      exact lapseToFallback_spec hr hc3 t
  · rintro r' c' t ⟨hholder, hmark⟩
    refine ⟨?_, lapse_lapseAlert r' c' c hmark⟩
    by_cases hsame : (r, c) = (r', c')
    · obtain ⟨rfl, rfl⟩ := Prod.mk.inj hsame
      rcases lapse_cases r c t with ⟨-, heq⟩ | ⟨hyes, -⟩ | ⟨hyes, -⟩
      · rw [heq, hholder]
      all_goals rw [hholder] at hyes; cases hyes
    · rw [lapse_holder_other hsame, hholder]
  · exact fun c' t h => ⟨h.1, (entry_clearReservation c' c t).trans h.2⟩
  · rintro c' t ⟨hholder, hmark⟩
    refine ⟨hholder, ?_⟩
    rw [client_setClient]
    split
    · next h => rw [h.1]; exact hmark
    · exact hmark

/-- The reservations of the station's clients go (R53). -/
theorem dinStationFault_reservation {a c : Nat} {e : ClientEntry} (he : (s.client c).entry = some e)
    (ha : e.station = a) : ((dinStationFault a s).client c).reservation = none := by
  have hc3 := entry_lt s he
  have hkeep : ∀ c' (t : State), (t.client c).reservation = none →
      ((t.setClient c' { t.client c' with reservation := none }).client c).reservation = none := by
    intro c' t ht
    rw [client_setClient]
    split
    · rfl
    · exact ht
  refine forEach_establish (P := fun _ => True) (Q := fun t => (t.client c).reservation = none)
    (mem_clientsAt.mpr ⟨e, he, ha⟩) trivial (fun _ _ _ _ _ => trivial) (fun t _ => ?_) fun c' _ t ht => ?_
  · simp only [client_setClient, hc3, and_self, if_true]
  · exact lapseClient_induct c' ht (fun r t h => (lapse_reservation r c' c t).trans h) (hkeep c')

/-- The holders of the other clients stay. -/
theorem dinStationFault_holder_other {a c : Nat} (hc : c ∉ clientsAt s a) (r : Nat) :
    (dinStationFault a s).holder r c = s.holder r c :=
  dinStationFault_induct (P := fun t => t.holder r c = s.holder r c) a rfl
    (fun r' c' hc' t h => (lapse_holder_other (fun e : (r, c) = (r', c') => hc ((Prod.mk.inj e).2 ▸ hc')) t).trans h)
    fun _ _ h => h

theorem StandingLaw.dinStationFault (h : StandingLaw s) (a : Nat) : StandingLaw (dinStationFault a s) :=
  dinStationFault_induct (P := StandingLaw) a h (fun r c _ _ ht => ht.lapse r c) fun c _ ht => ht.setClient c _

/-! ## LEASE_LAPSES (R50) -/

/-- The leases of a client that lapse. -/
def lapsesOf (s : State) (c : Nat) : Nat := ((List.range 12).filter fun r => (s.holder r c).lapses).length

theorem forEach_lapse_count (c : Nat) {l : List Nat} (hl : l.Nodup) {s : State} (h : s.count .leaseLapses ≤ 65535) :
    (forEach l (fun r s => lapse r c s) s).count .leaseLapses =
      min 65535 (s.count .leaseLapses + (l.filter fun r => (s.holder r c).lapses).length) := by
  induction l generalizing s with
  | nil => simp [h]
  | cons r l ih =>
    obtain ⟨hr, hl⟩ := List.nodup_cons.mp hl
    have hrest : (l.filter fun r' => ((lapse r c s).holder r' c).lapses) = l.filter fun r' => (s.holder r' c).lapses :=
      List.filter_congr fun r' hr' => by
        have hne : (r', c) ≠ (r, c) := fun e => hr ((Prod.mk.inj e).1 ▸ hr')
        rw [lapse_holder_other hne]
    have hcount := lapse_count r c s
    have hle : (lapse r c s).count .leaseLapses ≤ 65535 := by
      rw [hcount]
      split
      · exact raised_le _
      · exact h
    rw [forEach_cons, ih hl hle, hrest, hcount]
    cases hlapses : (s.holder r c).lapses
    · simp [hlapses]
    · simp only [List.filter_cons, hlapses, if_true, List.length_cons, raised]
      omega

theorem lapseClient_count (c : Nat) (h : s.count .leaseLapses ≤ 65535) :
    (lapseClient c s).count .leaseLapses = min 65535 (s.count .leaseLapses + lapsesOf s c) :=
  forEach_lapse_count c List.nodup_range h

theorem lapseClient_holder_other {c c' : Nat} (h : c' ≠ c) (r : Nat) : (lapseClient c s).holder r c' = s.holder r c' :=
  lapseClient_induct (P := fun t => t.holder r c' = s.holder r c') c rfl
    (fun _ t ht => (lapse_holder_other (fun e => h (Prod.mk.inj e).2) t).trans ht) fun _ h => h

/-- Every lapse of the station's clients is counted. -/
theorem dinStationFault_count (a : Nat) (h : s.count .leaseLapses ≤ 65535) :
    (dinStationFault a s).count .leaseLapses =
      min 65535 (s.count .leaseLapses + ((clientsAt s a).map (lapsesOf s)).sum) := by
  suffices ∀ (l : List Nat) (t : State), l.Nodup → t.count .leaseLapses ≤ 65535 →
      (forEach l lapseClient t).count .leaseLapses = min 65535 (t.count .leaseLapses + (l.map (lapsesOf t)).sum) from
    this _ s (List.Nodup.filter _ (by simp)) h
  intro l
  induction l with
  | nil => intro t _ ht; simp [ht]
  | cons c l ih =>
    intro t hl ht
    obtain ⟨hc, hl⟩ := List.nodup_cons.mp hl
    have hcount := lapseClient_count c ht
    have hrest : l.map (lapsesOf (lapseClient c t)) = l.map (lapsesOf t) := List.map_congr_left fun c' hc' => by
      have hne : c' ≠ c := fun e => hc (e ▸ hc')
      simp only [lapsesOf, lapseClient_holder_other hne]
    rw [forEach_cons, ih _ hl (by omega), hrest, hcount, List.map_cons, List.sum_cons]
    omega

end Sys2Proof.Machine
end


-- ==== Sys2Proof/Proofs/StationFault.lean ====
section
/-! SUPPORT. The parts of a FAULTY declaration, block by block: points, channels, notice marks, and the entry into HALTED
(R35, R139, R155, R198). -/

namespace Sys2Proof.Machine

variable {s t : State}

/-! ## The points of the station (R35) -/

theorem pstStationFault_mapped {a p slot : Nat} (hsource : (s.point p).source = some (a, slot)) :
    (pstStationFault a s).point p = (s.point p).stationFault := by
  have hp : p < 48 := by
    by_contra h
    rw [State.point, Table.get_beyond _ p (Nat.le_of_not_lt h)] at hsource
    cases hsource
  have hraise : ∀ (t : State) (i j : Nat), (raiseAlert .point i t).point j = t.point j := fun t i j => by
    simp [State.point]
  have hset : ∀ (t : State) (i : Nat), i ≠ p → ∀ x, (t.setPoint i x).point p = t.point p := fun t i hi x => by
    rw [point_setPoint, if_neg fun e => hi e.1]
  unfold pstStationFault
  obtain ⟨t, -, htp, hend⟩ := forEach_at State.point (fun _ => True) (l := List.range 48)
    (f := fun p s =>
      let pt := s.point p
      match pt.source with
      | some (station, _) =>
        if station = a then
          let pt' := pt.stationFault
          let s := s.setPoint p pt'
          if pt'.quality = .stale ∧ pt.quality ≠ .stale then raiseAlert .point p s else s
        else s
      | none => s) List.nodup_range (List.mem_range.mpr hp) (s := s) trivial (fun _ _ _ _ => trivial)
    (by
      intro i _ hi t _
      dsimp only
      repeat' split
      · rw [hraise, hset t i hi]
      · rw [hset t i hi]
      · rfl
      · rfl)
  refine hend.trans ?_
  simp only [htp, hsource, if_true]
  split
  · rw [hraise, point_setPoint, if_pos ⟨rfl, hp⟩]
  · rw [point_setPoint, if_pos ⟨rfl, hp⟩]

/-- No point of a FAULTY station is FRESH, HELD or NONE, and its stale timer is stopped (R35). -/
theorem stationFault_quality (pt : Point) :
    pt.stationFault.quality ∈ [Quality.stale, .substituted] ∧ pt.stationFault.staleTimer = .stopped := by
  unfold Point.stationFault
  split
  · cases pt.substitute <;> simp
  · cases pt.substitute <;> simp
  · cases pt.substitute <;> simp
  · next h => simp [h]
  · next h => simp [h]

/-! ## The channels of the station (R135, R139) -/

/-- A station's fault makes no channel Settled: its reports go to the GTB alone. -/
theorem chuDeclaration_eq (a : Nat) (s : State) :
    ∃ l, chuDeclaration a s = forEach l reportToGtb (chuStationFault a s) := by
  have hsettled : ((List.range 16).filter fun n => !settled s n && settled (chuStationFault a s) n) = [] := by
    refine List.filter_eq_nil_iff.mpr fun n _ h => ?_
    simp only [settled, chuStationFault_channel] at h
    cases hch : s.channel n with
    | none => simp [hch] at h
    | some ch =>
      simp only [hch, Option.map_some] at h
      split at h
      · simp [Channel.settled, Channel.enterFaulted] at h
      · simp at h
  simp only [chuDeclaration, reportChanges, hsettled, forEach_nil]
  exact ⟨_, rfl⟩

theorem chuDeclaration_keeps_blocks (a : Nat) (s : State) : (chuDeclaration a s).now = s.now ∧
    (chuDeclaration a s).stm = s.stm ∧ (chuDeclaration a s).pst = s.pst ∧ (chuDeclaration a s).cau = s.cau ∧
    (chuDeclaration a s).din.clients = s.din.clients ∧ (chuDeclaration a s).chu = (chuStationFault a s).chu ∧
    (chuDeclaration a s).ssu = s.ssu ∧ (chuDeclaration a s).alc = s.alc ∧ (chuDeclaration a s).mgu = s.mgu := by
  obtain ⟨l, hl⟩ := chuDeclaration_eq a s
  have hkeeps : OnlyFree (chuStationFault a s) (forEach l reportToGtb (chuStationFault a s)) :=
    forEach_induct (P := OnlyFree (chuStationFault a s)) _ (by simp) fun n _ t h => by simp [h]
  rw [hl]
  simp [hkeeps]

theorem chuDeclaration_induct {P : State → Prop} (a : Nat) (hs : P (chuStationFault a s))
    (h : ∀ n t, P t → P (reportToGtb n t)) : P (chuDeclaration a s) := by
  obtain ⟨l, hl⟩ := chuDeclaration_eq a s
  rw [hl]
  exact forEach_induct _ hs fun n _ t => h n t

theorem chuStationFault_gtb (a : Nat) (s : State) :
    (chuStationFault a s).gtb = s.gtb ∧ (chuStationFault a s).din = s.din := by simp

theorem chuDeclaration_freed (hlaw : StandingLaw s) (a : Nat) : RecordsFreed s (chuDeclaration a s) := by
  obtain ⟨hgtb, hdin⟩ := chuStationFault_gtb a s
  refine chuDeclaration_induct a ⟨hlaw.of_eq (by rw [hgtb]) (by rw [hgtb]) (by rw [hdin]), fun r c => ?_, ?_⟩
    fun n t h => h.reportToGtb n
  · have hsame : (chuStationFault a s).holder r c = s.holder r c := by rw [State.holder, hgtb]; rfl
    rw [hsame]
    exact .same
  · rw [hdin]
    exact fun _ he => he

/-- The holders of a resource none of whose records can free by the end of a ramp stay. -/
theorem chuDeclaration_rampsHold {r : Nat}
    (h : ∀ k v, s.record k = some v → v.resource = r → v.ramp ≠ .settle ∨ v.notice = true) (a c : Nat) :
    (chuDeclaration a s).holder r c = s.holder r c := by
  obtain ⟨hgtb, -⟩ := chuStationFault_gtb a s
  have hhold : RampsHold r s (chuDeclaration a s) :=
    chuDeclaration_induct a ⟨fun k v hv => h k v (by rwa [State.record, hgtb] at hv), fun c => by
      rw [State.holder, hgtb]; rfl⟩ fun n t ht => ht.reportToGtb n
  exact hhold.2 c

theorem chuDeclaration_rampReported {k : Nat} {v : Revocation} (hv : s.record k = some v) (hnotice : v.notice = true)
    (a : Nat) : RampReported k v (chuDeclaration a s) := by
  obtain ⟨hgtb, -⟩ := chuStationFault_gtb a s
  exact chuDeclaration_induct a ⟨v.ramp, by rw [State.record, hgtb]; exact hv, fun _ => rfl⟩
    fun n t ht => ht.reportToGtb hnotice n

/-! ## The records of the station's clients (R79, R80) -/

theorem gtbStationFault_freed (hlaw : StandingLaw s) (a : Nat) : RecordsFreed s (gtbStationFault a s) := by
  unfold gtbStationFault
  refine forEach_induct _ (.refl hlaw) fun k _ t ht => ?_
  repeat' split
  · exact ht.noticeClear k
  · exact ht
  · exact ht

theorem gtbStationFault_record {a k : Nat} {v : Revocation} (hv : s.record k = some v)
    (hclient : v.client ∈ clientsAt s a) (hnotice : v.notice = true) : (gtbStationFault a s).record k =
      if v.ramp = .clear then none else some { v with notice := false, timer := .stopped } := by
  unfold gtbStationFault
  obtain ⟨t, -, htk, hend⟩ := forEach_at State.record (fun _ => True) (l := List.range 8)
    (f := fun k t => match t.record k with
      | some v => if (clientsAt s a).contains v.client then noticeClear k t else t
      | none => t) List.nodup_range (List.mem_range.mpr (record_lt s hv)) (s := s) trivial (fun _ _ _ _ => trivial)
    (by
      intro i _ hi t _
      repeat' split
      · rw [noticeClear_record, if_neg hi]
      · rfl
      · rfl)
  rw [hv] at htk
  refine hend.trans ?_
  simp only [htk, List.contains_iff_mem.mpr hclient, if_true, noticeClear_record, Option.bind_some, hnotice]

/-! ## The entry into HALTED (R49, R155, R198) -/

theorem chuHalt_channel (n : Nat) (s : State) : (chuHalt s).channel n =
    (s.channel n).map fun ch => if ch.state = .active then ch.enterHeld else ch := by
  by_cases hn : n < 16
  · unfold chuHalt
    obtain ⟨t, -, htn, hend⟩ := forEach_at State.channel (fun _ => True)
      (f := fun n s => s.modifyChannel n fun ch => if ch.state = .active then ch.enterHeld else ch)
      List.nodup_range (List.mem_range.mpr hn) (s := s) trivial (fun _ _ _ _ => trivial)
      (by intro i _ hi t _; rw [modifyChannel_channel, if_neg hi])
    rw [hend, modifyChannel_channel, if_pos rfl, htn]
  · have hnone : ∀ t : State, t.channel n = none := fun t => Table.get_beyond _ n (Nat.le_of_not_lt hn)
    rw [hnone, hnone]; rfl

theorem mapHolders_holder (f : Holder → Holder) {r c : Nat} (hr : r < 12) (hc : c < 3) (s : State) :
    (mapHolders f s).holder r c = f (s.holder r c) := by
  have hmap : ∀ hs : Holders, (hs.map f).get c = f (hs.get c) := fun hs => by
    obtain rfl | rfl | rfl : c = 0 ∨ c = 1 ∨ c = 2 := by omega
    all_goals rfl
  show ((s.gtb.holders.map (·.map f)).get r).get c = _
  rw [Table.get_map_of_lt _ _ hr, hmap]
  rfl

theorem enterHalted_holder {r c : Nat} (hr : r < 12) (hc : c < 3) (s : State) :
    (enterHalted s).holder r c = { s.holder r c with lease := (s.holder r c).lease.suspend s.now } := by
  have hgtb : ∀ u : State, (ssuHalt u).holder r c = u.holder r c := fun u => by simp [State.holder]
  simp only [enterHalted, hgtb, suspendLeases, mapHolders_holder _ hr hc]
  simp [State.holder]

/-- What the entry into HALTED does to the pass, the alerts, the channels and the slots. -/
theorem enterHalted_spec (s : State) : (enterHalted s).mgu.part = .halted ∧
    (enterHalted s).alc.alerts = raisedList ⟨8, 0⟩ s.alc.alerts ∧
    (enterHalted s).ale.pass = none ∧ (enterHalted s).ale.passTimer = .stopped ∧
    (∀ n, (enterHalted s).channel n =
      (s.channel n).map fun ch => if ch.state = .active then ch.enterHeld else ch) ∧
    ∀ k, (enterHalted s).slot k = (s.slot k).map fun sl =>
      { sl with watch := sl.watch.suspend s.now, stopDelayTimer := sl.stopDelayTimer.suspend s.now } := by
  refine ⟨by simp [enterHalted], ?_, by simp [enterHalted, leaveRun], by simp [enterHalted, leaveRun],
    fun n => ?_, fun k => ?_⟩
  · simp only [enterHalted, ssuHalt_keeps, suspendLeases_keeps, chuHalt_keeps, leaveRun_keeps, raiseAlert_alerts]
    rfl
  · have hchannel : (enterHalted s).channel n =
        (chuHalt (leaveRun (raiseAlert .halt 0 { s with mgu.part := .halted }))).channel n := by
      simp [enterHalted, State.channel]
    rw [hchannel, chuHalt_channel]
    simp [State.channel]
  · have hslot : ∀ u : State, (ssuHalt u).slot k = (u.slot k).map fun sl =>
        { sl with watch := sl.watch.suspend u.now, stopDelayTimer := sl.stopDelayTimer.suspend u.now } :=
      fun u => Table.get_mapOption _ _ k
    rw [enterHalted, hslot]
    simp [State.slot]

theorem mguStationFault_halt (hmode : s.stm.returnMode = .halt) (hrun : s.mgu.part = .run) :
    mguStationFault s = enterHalted s := if_pos ⟨hmode, hrun⟩

/-- A holder whose lease is stopped stays. -/
theorem mguStationFault_holder {r c : Nat} (hr : r < 12) (hc : c < 3) (h : (s.holder r c).lease = .stopped) :
    (mguStationFault s).holder r c = s.holder r c := by
  unfold mguStationFault
  split
  · rw [enterHalted_holder hr hc, h]
    cases hx : s.holder r c
    simp_all [Timer.suspend]
  · rfl

/-- A FAULTED channel stays FAULTED. -/
theorem mguStationFault_faulted {n : Nat} {ch : Channel} (h : s.channel n = some ch) (hf : ch.state = .faulted) :
    (mguStationFault s).channel n = some ch := by
  unfold mguStationFault
  split
  · obtain ⟨-, -, -, -, hchannel, -⟩ := enterHalted_spec s
    rw [hchannel, h, Option.map_some, if_neg (by simp [hf])]
  · exact h

end Sys2Proof.Machine
end


-- ==== Sys2Proof/Proofs/StationDeclared.lean ====
section
/-! SUPPORT. The declaration as a whole, its parts composed in the order of the model (R183, log 9). -/

namespace Sys2Proof.Machine

variable {s t : State}

/-! ## Alerts stay (R190) -/

theorem lapse_alerts (r c : Nat) {a : AlertNo} (h : a ∈ s.alc.alerts) : a ∈ (lapse r c s).alc.alerts := by
  have hnote : ∀ (kept : Bool) (u : State), u.alc.alerts = s.alc.alerts → a ∈ (noteLapse r c kept u).alc.alerts := by
    intro kept u hu
    have hu' : a ∈ (notify c [⟨r, .lapsed kept⟩] (countEvent .leaseLapses u)).alc.alerts := by simpa [hu] using h
    unfold noteLapse lapseAlert
    split
    · rw [raiseAlert_alerts]
      exact mem_raisedList hu'
    · exact hu'
  rcases lapse_cases r c s with ⟨-, e⟩ | ⟨-, -, e⟩ | ⟨-, -, -, e⟩ <;> rw [e]
  · exact h
  · exact hnote _ _ (by simp)
  · exact hnote _ _ (by simp)

theorem pstStationFault_alerts (a : Nat) {x : AlertNo} (h : x ∈ s.alc.alerts) :
    x ∈ (pstStationFault a s).alc.alerts := by
  unfold pstStationFault
  refine forEach_induct (P := fun t => x ∈ t.alc.alerts) _ h fun p _ t ht => ?_
  dsimp only
  repeat' split
  · rw [raiseAlert_alerts]
    exact mem_raisedList ht
  · exact ht
  · exact ht
  · exact ht

theorem mguStationFault_alerts {a : AlertNo} (h : a ∈ s.alc.alerts) : a ∈ (mguStationFault s).alc.alerts := by
  unfold mguStationFault
  split
  · obtain ⟨-, halerts, -⟩ := enterHalted_spec s
    rw [halerts]
    exact mem_raisedList h
  · exact h

/-! ## The declaration, step by step (R183) -/

/-- The station declared and its points and alerts: what comes before the consequences in the other blocks. -/
def pointsDeclared (i : Nat) (st : Station) (s : State) : State :=
  pstStationFault st.address (raiseAlert .station st.address (s.setStation i (some
    { st with state := .faulty, silenceTimer := .stopped, pollTimer := .stopped, heard := false })))

/-- The station's channels FAULTED, with their reports. -/
def channelsDeclared (i : Nat) (st : Station) (s : State) : State := chuDeclaration st.address (pointsDeclared i st s)

/-- The leases of the station's clients lapsed. -/
def leasesDeclared (i : Nat) (st : Station) (s : State) : State := dinStationFault st.address (channelsDeclared i st s)

/-- The notice marks of the station's clients cleared. -/
def noticesDeclared (i : Nat) (st : Station) (s : State) : State := gtbStationFault st.address (leasesDeclared i st s)

/-- The whole declaration, before the test of the head of the probe queue. -/
def faultDeclared (i : Nat) (st : Station) (s : State) : State := mguStationFault (noticesDeclared i st s)

theorem declareFaulty_eq {i : Nat} {st : Station} (h : s.station i = some st) :
    declareFaulty i s = testHead (faultDeclared i st s) := by
  simp only [declareFaulty, h]
  rfl

section Declared

variable (i : Nat) (st : Station) (s : State)

theorem pointsDeclared_keeps : (pointsDeclared i st s).now = s.now ∧
    (pointsDeclared i st s).stm = { s.stm with stations := s.stm.stations.set i (some
      { st with state := .faulty, silenceTimer := .stopped, pollTimer := .stopped, heard := false }) } ∧
    (pointsDeclared i st s).cau = s.cau ∧ (pointsDeclared i st s).din = s.din ∧ (pointsDeclared i st s).gtb = s.gtb ∧
    (pointsDeclared i st s).ale = s.ale ∧ (pointsDeclared i st s).chu = s.chu ∧ (pointsDeclared i st s).ssu = s.ssu ∧
    (pointsDeclared i st s).alc.counts = s.alc.counts ∧ (pointsDeclared i st s).mgu = s.mgu := by
  simp [pointsDeclared]

/-- What the consequences in the other blocks leave, up to the entry into HALTED. -/
theorem noticesDeclared_keeps : (noticesDeclared i st s).now = s.now ∧
    (noticesDeclared i st s).stm = (pointsDeclared i st s).stm ∧
    (noticesDeclared i st s).pst = (pointsDeclared i st s).pst ∧
    (noticesDeclared i st s).chu = (chuStationFault st.address (pointsDeclared i st s)).chu ∧
    (noticesDeclared i st s).ssu = s.ssu ∧ (noticesDeclared i st s).mgu = s.mgu ∧
    (noticesDeclared i st s).alc = (leasesDeclared i st s).alc ∧
    (noticesDeclared i st s).din.clients = (leasesDeclared i st s).din.clients := by
  obtain ⟨hnow, -, -, -, -, -, -, hssu, -, hmgu⟩ := pointsDeclared_keeps i st s
  obtain ⟨-, -, -, -, -, cchu, cssu, -⟩ := chuDeclaration_keeps_blocks st.address (pointsDeclared i st s)
  simp [noticesDeclared, leasesDeclared, channelsDeclared, cchu, cssu, hnow, hssu, hmgu]

theorem channelsDeclared_alc : (channelsDeclared i st s).alc = (pointsDeclared i st s).alc := by
  obtain ⟨-, -, -, -, -, -, -, halc, -⟩ := chuDeclaration_keeps_blocks st.address (pointsDeclared i st s)
  exact halc

theorem channelsDeclared_client (c : Nat) : (channelsDeclared i st s).client c = s.client c := by
  obtain ⟨-, -, -, hdin, -⟩ := pointsDeclared_keeps i st s
  obtain ⟨-, -, -, -, cclients, -⟩ := chuDeclaration_keeps_blocks st.address (pointsDeclared i st s)
  rw [State.client, channelsDeclared, cclients, hdin]
  rfl

theorem clientsAt_congr {s t : State} (h : ∀ c, (t.client c).entry = (s.client c).entry) (a : Nat) :
    clientsAt t a = clientsAt s a := by
  simp only [clientsAt, h]

theorem leasesDeclared_entry (c : Nat) : ((leasesDeclared i st s).client c).entry = (s.client c).entry := by
  refine dinStationFault_induct (P := fun t => (t.client c).entry = (s.client c).entry) _
    (by rw [channelsDeclared_client]) (fun r c' _ t h => (lapse_entry r c' c t).trans h) fun c' t h => ?_
  exact (entry_clearReservation c' c t).trans h

/-! ### Stations, points, alerts and channels -/

theorem faultDeclared_stm_pst : (faultDeclared i st s).stm = (pointsDeclared i st s).stm ∧
    (faultDeclared i st s).pst = (pointsDeclared i st s).pst := by
  obtain ⟨-, hstm, hpst, -⟩ := noticesDeclared_keeps i st s
  exact ⟨by simp [faultDeclared, hstm], by simp [faultDeclared, hpst]⟩

theorem faultDeclared_station (hi : i < 30) : (faultDeclared i st s).station i = some
    { st with state := .faulty, silenceTimer := .stopped, pollTimer := .stopped, heard := false } := by
  obtain ⟨-, hstm, -⟩ := pointsDeclared_keeps i st s
  rw [State.station, (faultDeclared_stm_pst i st s).1, hstm]
  exact Table.get_set_same _ _ hi

theorem faultDeclared_alert : ⟨2, st.address⟩ ∈ (faultDeclared i st s).alc.alerts ++
    (if 8 ≤ s.alc.alerts.length then [⟨2, st.address⟩] else []) := by
  by_cases hfull : 8 ≤ s.alc.alerts.length
  · simp [hfull]
  · obtain ⟨-, -, -, -, -, -, halc, -⟩ := noticesDeclared_keeps i st s
    rw [faultDeclared]
    refine List.mem_append_left _ (mguStationFault_alerts ?_)
    rw [halc]
    refine dinStationFault_induct (P := fun t => ⟨2, st.address⟩ ∈ t.alc.alerts) _ ?_
      (fun r c _ t h => lapse_alerts r c h) fun _ _ h => h
    rw [channelsDeclared_alc, pointsDeclared]
    refine pstStationFault_alerts _ ?_
    rw [raiseAlert_alerts, raisedList]
    split
    · next h => exact h.resolve_right hfull
    · simp [AlertCategory.number]

theorem faultDeclared_point {p slot : Nat} (hsource : (s.point p).source = some (st.address, slot)) :
    ((faultDeclared i st s).point p).quality ∈ [Quality.stale, .substituted] ∧
      ((faultDeclared i st s).point p).staleTimer = .stopped := by
  have hpoint : ∀ (x : Option Station) (q : Nat),
      (raiseAlert .station st.address (s.setStation i x)).point q = s.point q := fun x q => by simp [State.point]
  rw [State.point, (faultDeclared_stm_pst i st s).2, ← State.point, pointsDeclared,
    pstStationFault_mapped (slot := slot) (by rw [hpoint]; exact hsource)]
  exact stationFault_quality _

theorem noticesDeclared_channel (n : Nat) : (noticesDeclared i st s).channel n = (s.channel n).map fun ch =>
    if ch.station = st.address ∧ ch.state ≠ .faulted then ch.enterFaulted .station else ch := by
  obtain ⟨-, -, -, hchu, -⟩ := noticesDeclared_keeps i st s
  obtain ⟨-, -, -, -, -, -, pchu, -⟩ := pointsDeclared_keeps i st s
  rw [State.channel, hchu, ← State.channel, chuStationFault_channel, State.channel, pchu]
  rfl

theorem faultDeclared_channel {n : Nat} {ch : Channel} (hch : s.channel n = some ch)
    (hstation : ch.station = st.address) : ∃ ch', (faultDeclared i st s).channel n = some ch' ∧ ch'.state = .faulted := by
  have hnotices := noticesDeclared_channel i st s n
  rw [hch, Option.map_some] at hnotices
  have hfaulted : (if ch.station = st.address ∧ ch.state ≠ .faulted then ch.enterFaulted .station else ch).state =
      .faulted := by
    split
    · rfl
    · next h =>
      by_contra hne
      exact h ⟨hstation, hne⟩
  exact ⟨_, mguStationFault_faulted hnotices hfaulted, hfaulted⟩

/-! ### Part state and HALT mode -/

theorem noticesDeclared_returnMode : (noticesDeclared i st s).stm.returnMode = s.stm.returnMode := by
  obtain ⟨-, hstm, -⟩ := noticesDeclared_keeps i st s
  obtain ⟨-, pstm, -⟩ := pointsDeclared_keeps i st s
  rw [hstm, pstm]

theorem faultDeclared_part (hrun : s.mgu.part = .run) :
    (faultDeclared i st s).mgu.part = if s.stm.returnMode = .halt then .halted else .run := by
  obtain ⟨-, -, -, -, -, hmgu, -⟩ := noticesDeclared_keeps i st s
  have hmode := noticesDeclared_returnMode i st s
  rw [faultDeclared, mguStationFault, hmode, hmgu]
  by_cases h : s.stm.returnMode = .halt
  · obtain ⟨hpart, -⟩ := enterHalted_spec (noticesDeclared i st s)
    rw [if_pos ⟨h, hrun⟩, if_pos h, hpart]
  · rw [if_neg fun e => h e.1, if_neg h, hmgu, hrun]

theorem faultDeclared_halt (hrun : s.mgu.part = .run) (hmode : s.stm.returnMode = .halt) :
    faultDeclared i st s = enterHalted (noticesDeclared i st s) := by
  obtain ⟨-, -, -, -, -, hmgu, -⟩ := noticesDeclared_keeps i st s
  exact mguStationFault_halt ((noticesDeclared_returnMode i st s).trans hmode) (by rw [hmgu]; exact hrun)

/-- In HALT mode the part stops: alert HALT, the pass gone, no channel ACTIVE, the slots' timers suspended (R155,
R198). -/
theorem faultDeclared_halted (hrun : s.mgu.part = .run) (hmode : s.stm.returnMode = .halt) :
    (⟨8, 0⟩ ∈ (faultDeclared i st s).alc.alerts ∨ 8 ≤ (faultDeclared i st s).alc.alerts.length) ∧
      (faultDeclared i st s).ale.pass = none ∧ (faultDeclared i st s).ale.passTimer = .stopped ∧
      (∀ n ch, (faultDeclared i st s).channel n = some ch → ch.state ≠ .active) ∧
      ∀ k, (faultDeclared i st s).slot k = (s.slot k).map fun sl =>
        { sl with watch := sl.watch.suspend s.now, stopDelayTimer := sl.stopDelayTimer.suspend s.now } := by
  obtain ⟨hnow, -, -, -, hssu, -⟩ := noticesDeclared_keeps i st s
  obtain ⟨-, halerts, hpass, htimer, hchannel, hslot⟩ := enterHalted_spec (noticesDeclared i st s)
  rw [faultDeclared_halt i st s hrun hmode]
  refine ⟨?_, hpass, htimer, fun n ch hch => ?_, fun k => ?_⟩
  · rw [halerts, raisedList]
    split
    · next h => exact h
    · simp
  · rw [hchannel] at hch
    obtain ⟨ch0, -, rfl⟩ := Option.map_eq_some_iff.mp hch
    split
    · simp [Channel.enterHeld]
    · next h => exact h
  · rw [hslot, hnow, State.slot, hssu]
    rfl

end Declared

/-! ### Holders, clients and records -/

section Standing

variable {i : Nat} {st : Station} {s : State} (hlaw : StandingLaw s)

theorem pointsDeclared_holder (r c : Nat) : (pointsDeclared i st s).holder r c = s.holder r c := by
  obtain ⟨-, -, -, -, hgtb, -⟩ := pointsDeclared_keeps i st s
  rw [State.holder, hgtb]
  rfl

theorem pointsDeclared_record (k : Nat) : (pointsDeclared i st s).record k = s.record k := by
  obtain ⟨-, -, -, -, hgtb, -⟩ := pointsDeclared_keeps i st s
  rw [State.record, hgtb]
  rfl

/-- A holder with a lease to lapse still has one after the freeing of records. -/
theorem HolderFreed.lapses_eq {h h' : Holder} (a : HolderFreed h h') : h'.lapses = h.lapses := by
  cases a with
  | same => rfl
  | freed hy => simp [Holder.lapses, hy]
  | completed st' hp hst =>
    have hold : h.state = .waiting ∨ h.state = .upgrading := by
      cases hs : h.state <;> simp_all [HolderState.pends]
    rcases hold with e | e <;> rcases hst with rfl | rfl <;> simp [Holder.lapses, e]

/-- The freeing of records leaves the lease of a holder that waits or has a standing (R49). -/
theorem HolderFreed.lease_eq {h h' : Holder} (a : HolderFreed h h') (hy : h.state ≠ .yielding) :
    h'.lease = h.lease := by
  cases a with
  | same => rfl
  | freed hy' => exact absurd hy' hy
  | completed => rfl

include hlaw

theorem channelsDeclared_freed : RecordsFreed (pointsDeclared i st s) (channelsDeclared i st s) := by
  obtain ⟨-, -, -, hdin, hgtb, -⟩ := pointsDeclared_keeps i st s
  exact chuDeclaration_freed (hlaw.of_eq (by rw [hgtb]) (by rw [hgtb]) (by rw [hdin])) _

theorem channelsDeclared_holder (r c : Nat) : HolderFreed (s.holder r c) ((channelsDeclared i st s).holder r c) := by
  have h := (channelsDeclared_freed (i := i) (st := st) hlaw).holder r c
  rwa [pointsDeclared_holder] at h

theorem noticesDeclared_freed : RecordsFreed (leasesDeclared i st s) (noticesDeclared i st s) :=
  gtbStationFault_freed ((channelsDeclared_freed hlaw).law.dinStationFault _) _

/-- What the lapses make of a holder that no freeing can change, with its lease stopped, the declaration makes of it. -/
theorem faultDeclared_holder {r c : Nat} (hr : r < 12) (hc : c < 3) {h : Holder}
    (hholder : (leasesDeclared i st s).holder r c = h) (hy : h.state ≠ .yielding) (hp : h.state.pends = false)
    (hlease : h.lease = .stopped) : (faultDeclared i st s).holder r c = h := by
  have hnotices : (noticesDeclared i st s).holder r c = h :=
    ((hholder ▸ (noticesDeclared_freed hlaw).holder r c : HolderFreed h _)).eq_of hy hp
  rw [faultDeclared, mguStationFault_holder hr hc (by rw [hnotices]; exact hlease), hnotices]

/-- A holder whose lease lapses to NONE is NONE after the declaration, and out of the PRF. -/
theorem faultDeclared_gone {r c : Nat} {e : ClientEntry} (hr : r < 12) (he : (s.client c).entry = some e)
    (ha : e.station = st.address) (hlapses : (s.holder r c).lapses = true)
    (hgoes : ((channelsDeclared i st s).holder r c).state = .waiting ∨ e.policy = .release) :
    (faultDeclared i st s).holder r c = {} ∧
      ∀ y ∈ (faultDeclared i st s).din.prf, ¬(y.resource = r ∧ y.client = c) := by
  have he' : ((channelsDeclared i st s).client c).entry = some e := by rw [channelsDeclared_client]; exact he
  obtain ⟨hholder, hprf⟩ := dinStationFault_gone hr he' ha
    (((channelsDeclared_holder hlaw r c).lapses_eq).trans hlapses) hgoes
  rw [← leasesDeclared] at hprf
  refine ⟨faultDeclared_holder hlaw hr (entry_lt s he) hholder (by simp) rfl rfl, fun y hy => hprf y ?_⟩
  have hdin : (faultDeclared i st s).din = (noticesDeclared i st s).din := by simp [faultDeclared]
  rw [hdin] at hy
  exact (noticesDeclared_freed hlaw).prf y hy

theorem faultDeclared_kept {r c : Nat} {e : ClientEntry} (hr : r < 12) (he : (s.client c).entry = some e)
    (ha : e.station = st.address) (hpolicy : e.policy = .fallback) (hlapsed : (s.holder r c).lapsed = false)
    (hstate : (s.holder r c).state = .shared ∨ (s.holder r c).state = .exclusive) :
    (faultDeclared i st s).holder r c = { s.holder r c with
        q := (s.holder r c).fallback.getD 0, f := 0, lapsed := true, lease := .stopped } ∧
      ((faultDeclared i st s).client c).lapseAlert = false := by
  have he' : ((channelsDeclared i st s).client c).entry = some e := by rw [channelsDeclared_client]; exact he
  have hy : (s.holder r c).state ≠ .yielding := by rcases hstate with h | h <;> simp [h]
  have hp : (s.holder r c).state.pends = false := by rcases hstate with h | h <;> simp [h, HolderState.pends]
  have hw : (s.holder r c).state ≠ .waiting := by rcases hstate with h | h <;> simp [h]
  have hsame : (channelsDeclared i st s).holder r c = s.holder r c := (channelsDeclared_holder hlaw r c).eq_of hy hp
  have hlapses : (s.holder r c).lapses = true := by rcases hstate with h | h <;> simp [Holder.lapses, h, hlapsed]
  obtain ⟨hholder, hmark⟩ := dinStationFault_fallback hr he' ha (by rw [hsame]; exact hlapses)
    (by rw [hsame]; exact hw) hpolicy
  rw [hsame] at hholder
  refine ⟨faultDeclared_holder hlaw hr (entry_lt s he) hholder hy hp rfl, ?_⟩
  obtain ⟨-, -, -, -, -, -, -, hclients⟩ := noticesDeclared_keeps i st s
  have hclient : (faultDeclared i st s).client c = (leasesDeclared i st s).client c := by
    simp [State.client, faultDeclared, hclients]
  rw [hclient]
  exact hmark

omit hlaw in
theorem faultDeclared_reservation {c : Nat} {e : ClientEntry} (he : (s.client c).entry = some e)
    (ha : e.station = st.address) : ((faultDeclared i st s).client c).reservation = none := by
  have he' : ((channelsDeclared i st s).client c).entry = some e := by rw [channelsDeclared_client]; exact he
  obtain ⟨-, -, -, -, -, -, -, hclients⟩ := noticesDeclared_keeps i st s
  have hclient : (faultDeclared i st s).client c = (leasesDeclared i st s).client c := by
    simp [State.client, faultDeclared, hclients]
  rw [hclient]
  exact dinStationFault_reservation he' ha

omit hlaw in
/-- A holder that waits stays through the reports when no record of its resource can free by the end of a ramp. -/
theorem channelsDeclared_waits {r : Nat}
    (h : ∀ k v, s.record k = some v → v.resource = r → v.ramp ≠ .settle ∨ v.notice = true) (c : Nat) :
    (channelsDeclared i st s).holder r c = s.holder r c := by
  refine (chuDeclaration_rampsHold (fun k v hv => h k v ?_) _ c).trans (pointsDeclared_holder r c)
  rwa [pointsDeclared_record] at hv

omit hlaw in
/-- A record of a client of the station whose notice mark was set: the mark has cleared, the yield timer stopped, and the
record freed if its ramp mark is CLEAR, which a channel's report may have made it from SETTLE (R79, R80). -/
theorem faultDeclared_record {k : Nat} {v : Revocation} {e : ClientEntry} (hv : s.record k = some v)
    (he : (s.client v.client).entry = some e) (ha : e.station = st.address) (hnotice : v.notice = true) :
    ∃ ramp, (v.ramp ≠ .settle → ramp = v.ramp) ∧ (faultDeclared i st s).record k =
      if ramp = .clear then none else some { v with ramp := ramp, notice := false, timer := .stopped } := by
  have hclient : v.client ∈ clientsAt (leasesDeclared i st s) st.address := by
    rw [clientsAt_congr (leasesDeclared_entry i st s)]
    exact mem_clientsAt.mpr ⟨e, he, ha⟩
  obtain ⟨ramp, hrec, hkeep⟩ : RampReported k v (channelsDeclared i st s) :=
    chuDeclaration_rampReported (by rw [pointsDeclared_record]; exact hv) hnotice _
  have hrecords : (leasesDeclared i st s).record k = (channelsDeclared i st s).record k := by
    simp [State.record, leasesDeclared]
  have hfinal : (faultDeclared i st s).record k = (noticesDeclared i st s).record k := by
    simp [State.record, faultDeclared]
  refine ⟨ramp, hkeep, ?_⟩
  rw [hfinal]
  exact gtbStationFault_record (hrecords.trans hrec) hclient hnotice

theorem faultDeclared_count (hcount : s.count .leaseLapses ≤ 65535) : (faultDeclared i st s).count .leaseLapses =
    min 65535 (s.count .leaseLapses + ((clientsAt s st.address).map (lapsesOf s)).sum) := by
  obtain ⟨-, -, -, -, -, -, -, -, hcounts, -⟩ := pointsDeclared_keeps i st s
  obtain ⟨-, -, -, -, -, -, halc, -⟩ := noticesDeclared_keeps i st s
  have hchannels : (channelsDeclared i st s).count .leaseLapses = s.count .leaseLapses := by
    rw [State.count, channelsDeclared_alc, hcounts, ← State.count]
  have hfinal : (faultDeclared i st s).count .leaseLapses = (leasesDeclared i st s).count .leaseLapses := by
    simp [State.count, faultDeclared, halc]
  have hlapses : lapsesOf (channelsDeclared i st s) = lapsesOf s := by
    funext c
    simp only [lapsesOf, fun r => (channelsDeclared_holder (i := i) (st := st) hlaw r c).lapses_eq]
  have hclients : clientsAt (channelsDeclared i st s) st.address = clientsAt s st.address :=
    clientsAt_congr (fun c => by rw [channelsDeclared_client]) _
  rw [hfinal, leasesDeclared, dinStationFault_count _ (by rw [hchannels]; exact hcount), hchannels, hlapses, hclients]

/-- In HALT mode the leases of the other clients' holders are suspended (R49). -/
theorem faultDeclared_suspends (hrun : s.mgu.part = .run) (hmode : s.stm.returnMode = .halt) {r c : Nat} (hr : r < 12)
    (hc : c < 3) (hother : ∀ e, (s.client c).entry = some e → e.station ≠ st.address)
    (hy : (s.holder r c).state ≠ .yielding) :
    ((faultDeclared i st s).holder r c).lease = (s.holder r c).lease.suspend s.now := by
  obtain ⟨hnow, -⟩ := noticesDeclared_keeps i st s
  have hclients : c ∉ clientsAt (channelsDeclared i st s) st.address := fun h => by
    obtain ⟨e, he, ha⟩ := mem_clientsAt.mp h
    rw [channelsDeclared_client] at he
    exact hother e he ha
  have hfreed : HolderFreed (s.holder r c) ((noticesDeclared i st s).holder r c) := by
    refine (channelsDeclared_holder (i := i) (st := st) hlaw r c).trans ?_
    rw [← dinStationFault_holder_other hclients r]
    exact (noticesDeclared_freed hlaw).holder r c
  rw [faultDeclared_halt i st s hrun hmode, enterHalted_holder hr hc, hnow, ← hfreed.lease_eq hy]

end Standing

end Sys2Proof.Machine
end


-- ==== Sys2Proof/Proofs/StationTimers.lean ====
section
/-! SUPPORT. The silence and poll timers of a station (R181, R182). -/

namespace Sys2Proof.Machine

/-! ## The clauses about clients (R50, R79, R80) -/

section Clauses

variable {i : Nat} {st : Station} {s : State}

theorem Holder.lapses_of {h : Holder} (hl : h.lapsed = false)
    (hs : h.state ∈ [HolderState.waiting, .shared, .upgrading, .exclusive]) : h.lapses = true := by
  simp only [Holder.lapses, hl, hs, decide_true, Bool.not_false, Bool.and_self]

/-- The holders that lapse to NONE: all of a client under RELEASE, and a WAITING one that no end of a ramp can give its
level first. -/
theorem faultDeclared_released (hlaw : StandingLaw s) {r c : Nat} {e : ClientEntry} (hr : r < 12)
    (he : (s.client c).entry = some e) (ha : e.station = st.address) (hl : (s.holder r c).lapsed = false)
    (hgoes : (e.policy = .release ∧
        (s.holder r c).state ∈ [HolderState.waiting, .shared, .upgrading, .exclusive]) ∨
      ((s.holder r c).state = .waiting ∧
        ∀ k v, s.record k = some v → v.resource = r → v.ramp ≠ .settle ∨ v.notice = true)) :
    (faultDeclared i st s).holder r c = {} ∧
      ∀ y ∈ (faultDeclared i st s).din.prf, ¬(y.resource = r ∧ y.client = c) := by
  rcases hgoes with ⟨hpolicy, hstate⟩ | ⟨hwaits, hramps⟩
  · exact faultDeclared_gone hlaw hr he ha (Holder.lapses_of hl hstate) (.inr hpolicy)
  · refine faultDeclared_gone hlaw hr he ha (Holder.lapses_of hl (by simp [hwaits])) (.inl ?_)
    rw [channelsDeclared_waits hramps, hwaits]

/-- A record whose notice mark was set, by its ramp mark. -/
theorem faultDeclared_marks {k c : Nat} {v : Revocation} {e : ClientEntry} (hv : s.record k = some v)
    (he : (s.client c).entry = some e) (ha : e.station = st.address) (hc : v.client = c) (hnotice : v.notice = true) :
    (v.ramp = .pass → (faultDeclared i st s).record k = some { v with notice := false, timer := .stopped }) ∧
      (v.ramp = .settle → ∀ v', (faultDeclared i st s).record k = some v' → v'.notice = false ∧ v'.timer = .stopped) ∧
      (v.ramp = .clear → (faultDeclared i st s).record k = none) := by
  subst hc
  obtain ⟨ramp, hkeep, hrec⟩ := faultDeclared_record (i := i) hv he ha hnotice
  refine ⟨fun h => ?_, fun _ v' hv' => ?_, fun h => ?_⟩
  · have hramp : ramp = .pass := (hkeep (by simp [h])).trans h
    rw [hrec, hramp, if_neg (by simp), ← h]
  · rw [hrec] at hv'
    split at hv'
    · cases hv'
    · cases hv'
      exact ⟨rfl, rfl⟩
  · have hramp : ramp = .clear := (hkeep (by simp [h])).trans h
    rw [hrec, if_pos hramp]

theorem clientsAt_eq (s : State) (a : Nat) :
    clientsAt s a = [0, 1, 2].filter fun c => decide ((s.client c).entry.map (·.station) = some a) := by
  refine List.filter_congr fun c _ => ?_
  cases (s.client c).entry with
  | none => simp
  | some e => simp [Bool.beq_eq_decide_eq]

end Clauses

/-! ## The timers (R181, R182) -/

section Timers

variable {i d n : Nat} {st : Station} {s : State}

/-- The state in which a declaration begins: the clock moved, and nothing else changed but the stations, the frames sent
and the counts. -/
def atExpiry (d : Nat) (stations : Table 30 (Option Station)) (sent : List TxFrame) (counts : Table 20 Nat)
    (s : State) : State :=
  { s with now := max s.now d, stm.stations := stations, sent := sent, alc.counts := counts }

theorem atExpiry_spec {stations : Table 30 (Option Station)} {sent : List TxFrame} {counts : Table 20 Nat} {u : State}
    (hu : atExpiry d stations sent counts s = u) (hcounts : counts.get Count.leaseLapses.number = s.count .leaseLapses) :
    u.now = max s.now d ∧ u.stm.returnMode = s.stm.returnMode ∧ u.pst = s.pst ∧ u.din = s.din ∧ u.gtb = s.gtb ∧
      u.chu = s.chu ∧ u.ssu = s.ssu ∧ u.alc.alerts = s.alc.alerts ∧ u.mgu = s.mgu ∧
      u.count .leaseLapses = s.count .leaseLapses := by
  subst hu
  exact ⟨rfl, rfl, rfl, rfl, rfl, rfl, rfl, rfl, rfl, hcounts⟩

theorem execSilenceExpiry_running (hst : s.station i = some st) (hstate : st.state ∈ [StationState.absent, .online])
    (htimer : st.silenceTimer = .running d) :
    execSilenceExpiry i s = .next (silenceExpired i st { s with now := max s.now d }) := by
  have hcases : st.state = .absent ∨ st.state = .online := by simpa using hstate
  rcases hcases with h | h <;> simp only [execSilenceExpiry, hst, h, expire_running s htimer]

theorem execPollTimeout_running (hst : s.station i = some st) (hstate : st.state = .polling n)
    (htimer : st.pollTimer = .running d) :
    execPollTimeout i s = .next (pollExpired i n st { s with now := max s.now d }) := by
  simp only [execPollTimeout, hst, hstate, expire_running s htimer]

theorem execSilenceExpiry_idle (hst : s.station i = some st) (h : ∀ d, st.silenceTimer ≠ .running d) :
    execSilenceExpiry i s = .next s := by
  cases hs : st.state <;> simp only [execSilenceExpiry, hst, hs, expire_none s h]

theorem execPollTimeout_idle (hst : s.station i = some st) (h : ∀ d, st.pollTimer ≠ .running d) :
    execPollTimeout i s = .next s := by
  cases hs : st.state <;> simp only [execPollTimeout, hst, hs, expire_none s h]

/-- The POLL frame of an expiry. -/
theorem sendPoll_eq (a : Nat) (s : State) : sendPoll a { s with now := max s.now d } =
    atExpiry d s.stm.stations (s.sent ++ [⟨originRing s.lpu.loop, a, .poll⟩])
      (s.alc.counts.set 19 (raised (s.alc.counts.get 19))) s := rfl

/-- A silence expiry with a retry limit of 0 sends its poll and declares the station FAULTY. -/
theorem silenceExpired_declares (hst : s.station i = some st) (hlimit : s.stm.retryLimit = 0) :
    silenceExpired i st { s with now := max s.now d } =
      testHead (faultDeclared i st (atExpiry d s.stm.stations (s.sent ++ [⟨originRing s.lpu.loop, st.address, .poll⟩])
        (s.alc.counts.set 19 (raised (s.alc.counts.get 19))) s)) := by
  rw [silenceExpired, sendPoll_eq]
  exact (if_pos hlimit).trans (declareFaulty_eq hst)

/-- A poll timeout at the retry limit declares the station FAULTY, its retry counted. -/
theorem pollExpired_declares (hi : i < 30) (hlimit : s.stm.retryLimit ≤ n + 1) :
    pollExpired i n st { s with now := max s.now d } =
      testHead (faultDeclared i { st with retryCount := min 255 (st.retryCount + 1) }
        (atExpiry d (s.stm.stations.set i (some { st with retryCount := min 255 (st.retryCount + 1) })) s.sent
          s.alc.counts s)) := by
  rw [pollExpired]
  exact (if_pos hlimit).trans (declareFaulty_eq (Table.get_set_same _ _ hi))

end Timers

/-- Settles O48: each expiry is its poll or the declaration, and `faultDeclared` follows the declaration through the
blocks. -/
theorem stationTimersAct : Obligations.StationTimersAct := by
  unfold Obligations.StationTimersAct
  intro i d n st s hi hst polled clients lapses suspended halted declared
  have hsuspended : suspended = Timer.suspend (max s.now d) := funext fun x => by cases x <;> rfl
  have hclients : ∀ u st', StandingLaw u → u.din = s.din → u.gtb = s.gtb → st'.address = st.address →
      clients (faultDeclared i st' u) := by
    intro u st' hlaw hdin hgtb haddr c e he ha
    have hclient : u.client c = s.client c := by rw [State.client, hdin, ← State.client]
    have hholder : ∀ r, u.holder r c = s.holder r c := fun r => by rw [State.holder, hgtb, ← State.holder]
    have hrecord : ∀ k, u.record k = s.record k := fun k => by rw [State.record, hgtb, ← State.record]
    rw [← hclient] at he
    rw [← haddr] at ha
    refine ⟨faultDeclared_reservation he ha, fun r hr hl => ?_, fun k v hv hc hnotice => ?_⟩
    · simp only [← hholder, ← hrecord] at hl ⊢
      exact ⟨faultDeclared_released hlaw hr he ha hl,
        fun hp hs => faultDeclared_kept hlaw hr he ha hp hl (by simpa using hs)⟩
    · rw [← hrecord] at hv
      exact faultDeclared_marks hv he ha hc hnotice
  have hdeclared : ∀ st' k stations sent counts, st' = { st with retryCount := k } →
      counts.get Count.leaseLapses.number = s.count .leaseLapses →
      declared (faultDeclared i st' (atExpiry d stations sent counts s)) k := by
    intro st' k stations sent counts hst' hcounts
    subst hst'
    generalize hu : atExpiry d stations sent counts s = u
    obtain ⟨hnow, hmode, hpst, hdin, hgtb, hchu, hssu, halerts, hmgu, hcount⟩ := atExpiry_spec hu hcounts
    have hlaw : StandingLaw s → StandingLaw u := fun h => h.of_eq (by rw [hgtb]) (by rw [hgtb]) (by rw [hdin])
    have hholder : u.holder = s.holder := funext fun r => funext fun c => by rw [State.holder, hgtb, ← State.holder]
    have hclient : u.client = s.client := funext fun c => by rw [State.client, hdin, ← State.client]
    refine ⟨faultDeclared_station i _ u hi, ?_, fun p slot hsource => ?_, fun c ch _ hch ha => ?_,
      fun hs => ?_, fun hrun => ?_, fun hrun hhalt => ?_⟩
    · rw [← halerts]
      exact faultDeclared_alert i _ u
    · refine faultDeclared_point i _ u (slot := slot) ?_
      rw [State.point, hpst]
      exact hsource
    · refine faultDeclared_channel i _ u ?_ ha
      rw [State.channel, hchu]
      exact hch
    · refine ⟨hclients u _ (hlaw hs) hdin hgtb rfl, fun hle => ?_⟩
      have hlapses : lapsesOf u = lapsesOf s := funext fun c => by rw [lapsesOf, hholder, ← lapsesOf]
      have hat : clientsAt u st.address = clientsAt s st.address := clientsAt_congr (fun c => by rw [hclient]) _
      rw [← hcount] at hle ⊢
      rw [faultDeclared_count (hlaw hs) hle, hlapses, hat, clientsAt_eq]
      rfl
    · rw [← hmode]
      exact faultDeclared_part i _ u (by rw [hmgu]; exact hrun)
    · obtain ⟨halert, hpass, htimer, hactive, hslot⟩ :=
        faultDeclared_halted i { st with retryCount := k } u (by rw [hmgu]; exact hrun) (by rw [hmode]; exact hhalt)
      refine ⟨halert, hpass, htimer, hactive, fun j => ?_, fun hs r hr c hc hother hstate => ?_⟩
      · rw [hslot, hnow, hsuspended, State.slot, hssu, ← State.slot]
      · have hyields : (u.holder r c).state ≠ .yielding := by
          rw [hholder]
          intro h
          simp [h] at hstate
        rw [faultDeclared_suspends (hlaw hs) (by rw [hmgu]; exact hrun) (by rw [hmode]; exact hhalt) hr hc
          (by rw [hclient]; exact hother) hyields, hnow, hholder, hsuspended]
  refine ⟨fun hstate htimer => ⟨fun hlimit => ?_, fun hlimit => ?_⟩,
    fun hstate htimer => ⟨fun hlimit => ?_, fun hlimit => ?_⟩, execSilenceExpiry_idle hst, execPollTimeout_idle hst⟩
  · refine (execSilenceExpiry_running hst hstate htimer).trans (congrArg _ ?_)
    rw [silenceExpired, sendPoll_eq]
    exact if_neg (Nat.ne_of_gt hlimit)
  · exact ⟨_, (execSilenceExpiry_running hst hstate htimer).trans
      (congrArg _ (silenceExpired_declares hst hlimit)), hdeclared _ _ _ _ _ rfl (Table.get_set_ne _ _ (by decide))⟩
  · refine (execPollTimeout_running hst hstate htimer).trans (congrArg _ ?_)
    rw [pollExpired]
    exact if_neg (Nat.not_le_of_lt hlimit)
  · exact ⟨_, (execPollTimeout_running hst hstate htimer).trans
      (congrArg _ (pollExpired_declares hi hlimit)), hdeclared _ _ _ _ _ rfl rfl⟩

end Sys2Proof.Machine
end


-- ==== Sys2Proof/Proofs/Unmoved.lean ====
section
/-! SUPPORT. The operations that move no holder, record, PRF entry or queued probe and keep the bounds of the alert list
and the counts: a law that reads only these is kept by each of them. -/

namespace Sys2Proof.Machine

variable {s t u : State}

/-! ## What most operations leave unmoved -/

/-- From `s` to `t` no holder has changed its state, no record the holder it names, and no PRF entry or probe has moved;
the alert list and the counts have stayed in their bounds. -/
structure Unmoved (s t : State) : Prop where
  alc : AlcLaw s → AlcLaw t
  state : ∀ r c, (t.holder r c).state = (s.holder r c).state
  named : ∀ k, namedBy t k = namedBy s k
  prf : t.din.prf = s.din.prf
  probes : t.gtb.probes = s.gtb.probes

theorem Unmoved.refl (s : State) : Unmoved s s := ⟨id, fun _ _ => rfl, fun _ => rfl, rfl, rfl⟩

theorem Unmoved.trans (h : Unmoved u s) (h' : Unmoved s t) : Unmoved u t :=
  ⟨fun a => h'.alc (h.alc a), fun r c => (h'.state r c).trans (h.state r c), fun k => (h'.named k).trans (h.named k),
    h'.prf.trans h.prf, h'.probes.trans h.probes⟩

/-- An operation that leaves the Grant Table and the PRF, and keeps the bounds of the ALC. -/
theorem Unmoved.bounded (h : Unmoved u s) (halc : AlcLaw s → AlcLaw t) (hgtb : t.gtb = s.gtb)
    (hprf : t.din.prf = s.din.prf) : Unmoved u t :=
  h.trans ⟨halc, fun r c => by rw [State.holder, hgtb]; rfl,
    fun k => by rw [namedBy, State.record, hgtb]; rfl, hprf, by rw [hgtb]⟩

/-- An operation that leaves the Grant Table, the PRF and the ALC. -/
theorem Unmoved.same (h : Unmoved u s) (halc : t.alc = s.alc) (hgtb : t.gtb = s.gtb) (hprf : t.din.prf = s.din.prf) :
    Unmoved u t :=
  h.bounded (fun a => by rw [AlcLaw, halc]; exact a) hgtb hprf

/-- Records rewritten, each with the holder it names, and holders, each in its state. -/
theorem Unmoved.rewrite (h : Unmoved u s) (halc : t.alc = s.alc)
    (hstate : ∀ r c, (t.holder r c).state = (s.holder r c).state) (hnamed : ∀ k, namedBy t k = namedBy s k)
    (hprf : t.din.prf = s.din.prf) (hprobes : t.gtb.probes = s.gtb.probes) : Unmoved u t :=
  h.trans ⟨fun a => by rw [AlcLaw, halc]; exact a, hstate, hnamed, hprf, hprobes⟩

/-! ## The alert list, the counts and the frames sent -/

theorem AlcLaw.countBy (h : AlcLaw s) (c : Count) (n : Nat) : AlcLaw (countBy c n s) := by
  obtain ⟨hlen, hnodup, hover, hcounts⟩ := h
  exact ⟨hlen, hnodup, hover, counts_set_le hcounts _ _ (Nat.min_le_left _ _)⟩

theorem AlcLaw.raiseAlert (h : AlcLaw s) (c : AlertCategory) (i : Nat) : AlcLaw (raiseAlert c i s) := by
  obtain ⟨hlen, hnodup, hover, hcounts⟩ := h
  obtain ⟨hnodup', hlen'⟩ := raisedList_nodup (a := ⟨c.number, i⟩) hnodup hlen
  refine ⟨by simpa using hlen', by simpa using hnodup', raiseAlert_overflow_le s c i hover, ?_⟩
  have : (Machine.raiseAlert c i s).alc.counts = s.alc.counts := by simp
  rwa [this]

/-- A list of alerts with some taken away, the counts and the overflow as they were. -/
theorem AlcLaw.sublist (h : AlcLaw s) {l : List AlertNo} (hl : l.Sublist s.alc.alerts) (halerts : t.alc.alerts = l)
    (hover : t.alc.overflow = s.alc.overflow) (hcounts : t.alc.counts = s.alc.counts) : AlcLaw t := by
  obtain ⟨h1, h2, h3, h4⟩ := h
  refine ⟨?_, ?_, by rwa [hover], by rwa [hcounts]⟩
  · rw [halerts]; exact hl.length_le.trans h1
  · rw [halerts]; exact hl.nodup h2

namespace Unmoved

theorem countBy (h : Unmoved u s) (c : Count) (n : Nat) : Unmoved u (countBy c n s) :=
  h.bounded (fun a => a.countBy c n) rfl rfl

theorem countEvent (h : Unmoved u s) (c : Count) : Unmoved u (countEvent c s) := h.countBy c 1

theorem originate (h : Unmoved u s) (dest : Nat) (b : Body) : Unmoved u (originate dest b s) := h.same rfl rfl rfl

theorem raiseAlert (h : Unmoved u s) (c : AlertCategory) (i : Nat) : Unmoved u (raiseAlert c i s) :=
  h.bounded (fun a => a.raiseAlert c i) (by simp) (by simp)

theorem notify (h : Unmoved u s) (c : Nat) (l : List Notice) : Unmoved u (notify c l s) :=
  h.same (by simp) (by simp) (by simp)

theorem setChannel (h : Unmoved u s) (n : Nat) (x : Option Channel) : Unmoved u (s.setChannel n x) := h.same rfl rfl rfl

theorem setSlot (h : Unmoved u s) (k : Nat) (x : Option Slot) : Unmoved u (s.setSlot k x) := h.same rfl rfl rfl

theorem setStation (h : Unmoved u s) (i : Nat) (x : Option Station) : Unmoved u (s.setStation i x) := h.same rfl rfl rfl

theorem setPoint (h : Unmoved u s) (p : Nat) (x : Point) : Unmoved u (s.setPoint p x) := h.same rfl rfl rfl

theorem setClient (h : Unmoved u s) (c : Nat) (x : Client) : Unmoved u (s.setClient c x) := h.same rfl rfl rfl

theorem modifyChannel (h : Unmoved u s) (n : Nat) (f : Channel → Channel) : Unmoved u (s.modifyChannel n f) :=
  h.same (by simp) (by simp) (by simp)

theorem setNow (h : Unmoved u s) (n : Nat) : Unmoved u { s with now := n } := h.same rfl rfl rfl

theorem setLpu (h : Unmoved u s) (x : Lpu) : Unmoved u { s with lpu := x } := h.same rfl rfl rfl

theorem setPart (h : Unmoved u s) (x : PartState) : Unmoved u { s with mgu.part := x } := h.same rfl rfl rfl

theorem expire (h : Unmoved u s) {x : Timer} (e : expire x s = some t) : Unmoved u t := by
  obtain ⟨d, -, rfl⟩ := expire_some e
  exact h.setNow _

/-- A record rewritten with the holder it names. -/
theorem rewriteRecord (h : Unmoved u s) {k : Nat} {v w : Revocation} (hv : s.record k = some v)
    (hr : w.resource = v.resource) (hc : w.client = v.client) : Unmoved u (s.setRecord k (some w)) := by
  refine h.rewrite rfl (fun _ _ => rfl) (fun j => ?_) rfl rfl
  simp only [namedBy, record_setRecord]
  by_cases hj : k = j ∧ j < 8
  · obtain ⟨rfl, -⟩ := hj
    simp [hv, record_lt s hv, hr, hc]
  · simp [hj]

/-! ## Channels (chapter 6) -/

theorem transmit (h : Unmoved u s) (n : Nat) (ch : Channel) (seq setting : Nat) :
    Unmoved u (transmit n ch seq setting s) :=
  ((h.originate _ _).countEvent _).setChannel _ _

theorem sendNew (h : Unmoved u s) (n setting : Nat) : Unmoved u (sendNew n setting s) := by
  unfold Machine.sendNew
  split
  · exact h
  · exact h.transmit _ _ _ _

theorem resend (h : Unmoved u s) (n retries : Nat) : Unmoved u (resend n retries s) := by
  unfold Machine.resend
  repeat' split
  · exact h
  · exact h
  all_goals exact h.transmit _ _ _ _

theorem channelLoopChange (h : Unmoved u s) (b : Bool) (n : Nat) : Unmoved u (channelLoopChange b n s) := by
  unfold Machine.channelLoopChange
  repeat' split
  · exact h
  · exact h.resend _ _
  · exact h.sendNew _ _
  · exact h
  · exact h

theorem changeLoop (h : Unmoved u s) (new : LoopState) : Unmoved u (changeLoop new s) := by
  unfold Machine.changeLoop chuLoopChange
  refine forEach_induct _ (Unmoved.raiseAlert ?_ _ _) fun n _ _ ht => ht.channelLoopChange _ n
  exact (h.countEvent _).setLpu _

theorem enterActive (h : Unmoved u s) (n : Nat) : Unmoved u (enterActive n s) := (h.modifyChannel _ _).resend _ _

theorem returnChannel (h : Unmoved u s) (n : Nat) (run : Bool) : Unmoved u (returnChannel n run s) := by
  unfold Machine.returnChannel
  dsimp only
  split
  · exact (h.modifyChannel _ _).enterActive _
  · exact (h.modifyChannel _ _).modifyChannel _ _

theorem faultChannel (h : Unmoved u s) (n : Nat) (cause : FaultCause) : Unmoved u (faultChannel n cause s) :=
  (h.modifyChannel _ _).raiseAlert _ _

theorem chuStationFault (h : Unmoved u s) (a : Nat) : Unmoved u (chuStationFault a s) :=
  h.same (by simp) (by simp) (by simp)

theorem chuStationReturn (h : Unmoved u s) (a : Nat) : Unmoved u (chuStationReturn a s) := by
  unfold Machine.chuStationReturn
  refine forEach_induct _ h fun n _ t ht => ?_
  repeat' split
  · exact ht
  · exact ht.returnChannel _ _
  · exact ht

theorem chuStart (h : Unmoved u s) : Unmoved u (chuStart s) := by
  unfold Machine.chuStart
  refine forEach_induct _ h fun n _ t ht => ?_
  repeat' split
  · exact ht
  · exact ht.enterActive _
  · exact ht

theorem rampExpiry (h : Unmoved u s) (n : Nat) : Unmoved u (rampExpiry n s) := by
  unfold Machine.rampExpiry
  split
  · exact h
  · dsimp only
    split
    · exact (h.setChannel _ _).sendNew _ _
    · exact h.setChannel _ _

theorem refreshExpiry (h : Unmoved u s) (n : Nat) : Unmoved u (refreshExpiry n s) := by
  unfold Machine.refreshExpiry
  repeat' split
  · exact h
  · exact h.sendNew _ _
  · exact h.setChannel _ _

theorem ackExpiry (h : Unmoved u s) (n : Nat) : Unmoved u (ackExpiry n s) := by
  unfold Machine.ackExpiry
  repeat' split
  · exact h
  · exact h
  · exact (h.countEvent _).resend _ _
  · exact (h.countEvent _).faultChannel _ _

theorem acknowledge (h : Unmoved u s) (n : Nat) (ch : Channel) (sent : Nat) (e : StatusEntry) :
    Unmoved u (acknowledge n ch sent e s) := by
  unfold Machine.acknowledge
  dsimp only
  repeat' split
  · exact (h.setChannel _ _).faultChannel _ _
  · exact (h.setChannel _ _).sendNew _ _
  · exact h.setChannel _ _
  · exact h.setChannel _ _

theorem takeStatusEntry (h : Unmoved u s) (n : Nat) (e : StatusEntry) : Unmoved u (takeStatusEntry n e s) := by
  unfold Machine.takeStatusEntry
  repeat' split
  · exact h
  · exact h
  · exact h.acknowledge _ _ _ _
  · exact h.countEvent _

/-! ## Stations and points (chapters 2 and 9) -/

theorem stationReturned (h : Unmoved u s) (a : Nat) : Unmoved u (stationReturned a s) := by
  rw [stationReturned_eq]
  exact h.chuStationReturn a

theorem returnStation (h : Unmoved u s) (i : Nat) (st : Station) : Unmoved u (returnStation i st s) :=
  (h.setStation _ _).stationReturned _

theorem stationHeard (h : Unmoved u s) (a : Nat) : Unmoved u (stationHeard a s) := by
  unfold Machine.stationHeard
  repeat' split
  · exact h
  · exact h
  · exact h.returnStation _ _
  all_goals exact h.setStation _ _

theorem arrive (h : Unmoved u s) (a : Nat) : Unmoved u (arrive a s) := by
  unfold Machine.arrive
  dsimp only
  repeat' split
  · exact h
  · exact (h.stationHeard a).countEvent _
  · exact h.stationHeard a

theorem openFrame (h : Unmoved u s) (d : DemandCtx) : Unmoved u (openFrame d s) := by
  unfold Machine.openFrame
  split
  · exact (h.arrive _).same rfl rfl rfl
  · exact h

theorem takeSampleEntry (h : Unmoved u s) (src : Nat) (e : SampleEntry) : Unmoved u (takeSampleEntry src s e) := by
  unfold Machine.takeSampleEntry
  repeat' split
  · exact h
  · exact h
  · exact (h.setPoint _ _).countEvent _

theorem staleExpired (h : Unmoved u s) (p : Nat) : Unmoved u (staleExpired p s) := by
  unfold Machine.staleExpired
  dsimp only
  split
  · exact h.setPoint _ _
  · exact (h.setPoint _ _).raiseAlert _ _

theorem pstStationFault (h : Unmoved u s) (a : Nat) : Unmoved u (pstStationFault a s) := by
  unfold Machine.pstStationFault
  refine forEach_induct _ h fun p _ t ht => ?_
  dsimp only
  repeat' split
  · exact (ht.setPoint _ _).raiseAlert _ _
  · exact ht.setPoint _ _
  · exact ht
  · exact ht

theorem sendPoll (h : Unmoved u s) (a : Nat) : Unmoved u (sendPoll a s) := (h.originate _ _).countEvent _

/-! ## Leases, the part state and the pass -/

theorem mapHolders (h : Unmoved u s) {f : Holder → Holder} (hf : ∀ x, (f x).state = x.state) :
    Unmoved u (mapHolders f s) := by
  refine h.rewrite rfl (fun r c => ?_) (fun _ => rfl) rfl rfl
  by_cases hrc : r < 12 ∧ c < 3
  · rw [mapHolders_holder f hrc.1 hrc.2, hf]
  · rw [holder_beyond _ (by omega), holder_beyond _ (by omega)]

theorem suspendLeases (h : Unmoved u s) : Unmoved u (suspendLeases s) := h.mapHolders fun _ => rfl

theorem resumeLeases (h : Unmoved u s) : Unmoved u (resumeLeases s) := h.mapHolders fun _ => rfl

theorem enterHalted (h : Unmoved u s) : Unmoved u (enterHalted s) := by
  have halerted : Unmoved u (Machine.raiseAlert .halt 0 { s with mgu.part := .halted }) :=
    (h.setPart _).raiseAlert _ _
  have hheld : Unmoved u (chuHalt (leaveRun (Machine.raiseAlert .halt 0 { s with mgu.part := .halted }))) :=
    halerted.same (by simp) (by simp) (by simp)
  have hslots : ∀ x : State, Unmoved u x → Unmoved u (ssuHalt x) := fun x hx =>
    hx.same (by simp) (by simp) (by simp)
  exact hslots _ hheld.suspendLeases

theorem mguStationFault (h : Unmoved u s) : Unmoved u (mguStationFault s) := by
  unfold Machine.mguStationFault
  split
  · exact h.enterHalted
  · exact h

/-- A grant written into a holder leaves its state. -/
theorem setGrant (h : Unmoved u s) (r c g : Nat) : Unmoved u (s.setHolder r c { s.holder r c with g := g }) := by
  refine h.rewrite rfl (fun r' c' => ?_) (fun _ => rfl) rfl rfl
  rw [holder_setHolder]
  split
  · next e => rw [← e.1, ← e.2.1]
  · rfl

theorem writeRecord (h : Unmoved u s) (l : Table 12 LatchedRecord) (out : PassOutcome) (r : Nat) :
    Unmoved u (writeRecord l out r s) := by
  unfold Machine.writeRecord
  refine forEach_induct _ h fun c _ t ht => ?_
  split
  · exact ht.setGrant _ _ _
  · exact ht

theorem countPass (h : Unmoved u s) (out : PassOutcome) : Unmoved u (countPass out s) := by
  unfold Machine.countPass
  dsimp only
  split
  · exact ((h.countEvent _).countEvent _).countBy _ _
  · exact (h.countEvent _).countBy _ _

theorem markPassSeen (h : Unmoved u s) : Unmoved u (markPassSeen s) := by
  refine h.rewrite rfl (fun _ _ => rfl) (fun k => ?_) rfl rfl
  have hrec : (Machine.markPassSeen s).record k = (s.record k).map fun v => { v with passSeen := true } :=
    Table.get_mapOption _ _ k
  rw [namedBy, hrec, namedBy]
  cases s.record k <;> rfl

/-! ## Markers and loop states (chapter 8) -/

theorem setOutstanding (h : Unmoved u s) (ring : Ring) (x : Option Outstanding) : Unmoved u (setOutstanding ring x s) :=
  h.same (by simp) (by simp) (by simp)

theorem startRound (h : Unmoved u s) : Unmoved u (startRound s) := h.same (by simp) (by simp) (by simp)

theorem sendMarker (h : Unmoved u s) (ring : Ring) (role : MarkerRole) : Unmoved u (sendMarker ring role s) :=
  h.same (by simp) (by simp) (by simp)

theorem regularMiss (h : Unmoved u s) : Unmoved u (regularMiss s) := by
  have hmissed : Unmoved u { s with lpu.missCount := min 3 (s.lpu.missCount + 1) } := h.setLpu _
  unfold Machine.regularMiss
  dsimp only
  repeat' split
  · exact hmissed
  · exact hmissed.changeLoop _
  · exact hmissed.startRound
  · exact hmissed.changeLoop _
  · exact hmissed.changeLoop _
  · exact hmissed.changeLoop _
  · exact hmissed

theorem decideRound (h : Unmoved u s) (f v : Option LoopState) : Unmoved u (decideRound f v s) := by
  have hended : Unmoved u { s with lpu.round := none } := h.setLpu _
  unfold Machine.decideRound
  dsimp only
  repeat' split
  · exact hended.setLpu _
  · exact hended
  · exact hended.changeLoop _

theorem pairedEnd (h : Unmoved u s) (ring : Ring) (l : Option LoopState) : Unmoved u (pairedEnd ring l s) := by
  unfold Machine.pairedEnd
  split
  · exact h
  · dsimp only
    split
    · exact h.decideRound _ _
    · exact h.setLpu _

theorem judgeReturn (h : Unmoved u s) (role : MarkerRole) (ring : Ring) (l : Option LoopState) :
    Unmoved u (judgeReturn role ring l s) := by
  cases role with
  | regular =>
    simp only [Machine.judgeReturn, regularReturn]
    repeat' split
    · exact h.regularMiss
    · exact h.setLpu _
    · exact h.changeLoop _
  | recovery =>
    simp only [Machine.judgeReturn, recoveryReturn]
    split
    · exact h.changeLoop _
    · exact h
  | paired => exact h.pairedEnd _ _

theorem markerHome (h : Unmoved u s) (input : Ring) (m : MarkerFrame) : Unmoved u (markerHome input m s) := by
  have hreturned : ∀ trip, Unmoved u (recordReturn trip m (Machine.setOutstanding m.sentOn none s)) := fun trip =>
    (h.setOutstanding _ _).setLpu _
  unfold Machine.markerHome
  repeat' split
  · exact h
  · exact (hreturned _).judgeReturn _ _ _
  · exact h

theorem watchMissed (h : Unmoved u s) (ring : Ring) (role : MarkerRole) : Unmoved u (watchMissed ring role s) := by
  cases role with
  | regular => exact (h.setOutstanding _ _).regularMiss
  | recovery => exact h.setOutstanding _ _
  | paired => exact (h.setOutstanding _ _).pairedEnd _ _

theorem sendMarkers (h : Unmoved u s) : Unmoved u (sendMarkers s) := by
  have hsent := h.sendMarker .reverse .regular
  unfold Machine.sendMarkers
  dsimp only
  repeat' split
  · exact h.sendMarker _ _
  · exact h.sendMarker _ _
  · exact h.sendMarker _ _
  · exact hsent.setLpu _
  · exact (hsent.setLpu _).sendMarker _ _
  · exact hsent.setLpu _
  · exact (hsent.setLpu _).sendMarker _ _
  · exact h.startRound

end Unmoved

end Sys2Proof.Machine
end


-- ==== Sys2Proof/Proofs/StepParts.lean ====
section
/-! SUPPORT. Laws that the few operations which move holders, records, PRF entries and probes keep: the parts of the steps
that keep them too. -/

namespace Sys2Proof.Machine

variable {s t u : State}

/-! ## Laws that every step keeps -/

/-- A law that reads what `Unmoved` leaves, and that the operations which move holders, records, PRF entries and probes
keep. -/
structure StepClosed (P : State → Prop) : Prop where
  unmoved : ∀ {s t}, P s → Unmoved s t → P t
  ramp : ∀ {s}, P s → ∀ k, P (rampClear k s)
  notice : ∀ {s}, P s → ∀ k, P (noticeClear k s)
  decided : ∀ {s r c}, P s → r < 12 → c < 3 → ∀ op p, P (decideItem op r c p s).1
  lapsed : ∀ {s}, P s → ∀ r c, P (lapse r c s)
  tested : ∀ {s}, P s → P (testHead s)
  queued : ∀ {s}, P s → s.gtb.probes.length < 4 → ∀ p, P { s with gtb.probes := s.gtb.probes ++ [p] }
  cleared : ∀ {s t}, P s → (AlcLaw s → AlcLaw t) → t.gtb = State.reset.gtb → t.din.prf = [] → P t

namespace StepClosed

variable {P : State → Prop} (C : StepClosed P)
include C

/-! ### Reports and slots -/

theorem reportToGtb (h : P s) (n : Nat) : P (reportToGtb n s) :=
  reportToGtb_induct h (fun k _ _ ht _ _ => C.ramp ht k) n

theorem reports : ReportClosed P where
  slot _ _ _ h := C.unmoved h ((Unmoved.refl _).setSlot _ _)
  minimum _ _ h := C.unmoved h ((Unmoved.refl _).same (by simp) (by simp) (by simp))
  gtb _ n h := C.reportToGtb h n

theorem reported (h : P u) (hs : Unmoved u s) (b : State) : P (reportChanges b s) :=
  C.reports.reportChanges b (C.unmoved h hs)

theorem judgePassMarks (h : P s) : P (judgePassMarks s) := by
  unfold Machine.judgePassMarks
  refine forEach_induct _ h fun k _ t ht => ?_
  split
  · next v hv =>
    repeat' split
    · exact C.ramp ht k
    · exact C.unmoved ht ((Unmoved.refl t).rewriteRecord hv rfl rfl)
    · exact ht
  · exact ht

/-! ### Demand items (chapter 3) -/

theorem takeClientItem (h : P s) {c : Nat} (hc : c < 3) (op : ItemOp) (it : DemandItem) :
    P (takeClientItem c op it s).1 := by
  have hcounted : P (countEvent .demandItems s) := C.unmoved h ((Unmoved.refl s).countEvent _)
  have hrefused : ∀ d : Decision, P d.1 → P (countRefusal d).1 := by
    intro d hd
    unfold countRefusal
    split
    · exact C.unmoved hd ((Unmoved.refl d.1).countEvent _)
    · exact hd
  refine hrefused _ ?_
  split
  · exact hcounted
  · next hpass =>
    refine C.decided hcounted ?_ hc _ _
    by_contra hr
    have hkind : ((countEvent .demandItems s).resource it.resource).kind = .unused :=
      congrArg Resource.kind (Table.get_beyond _ _ (Nat.le_of_not_lt hr))
    unfold itemRefusal at hpass
    split at hpass
    · cases hpass
    · rw [hkind] at hpass
      split at hpass <;> cases hpass

theorem answerItem (h : P s) (d : DemandCtx) (n : Notice) : P (answerItem d n s) := by
  refine C.unmoved h ?_
  unfold Machine.answerItem
  dsimp only
  split
  · exact (Unmoved.refl s).same rfl rfl rfl
  · exact (Unmoved.refl s).same rfl rfl rfl

theorem demandStep (h : P s) (d : DemandCtx) (op : ItemOp) (it : DemandItem) : P (demandStep d op it s) := by
  have hopened : P (openFrame d s) := C.unmoved h ((Unmoved.refl s).openFrame d)
  unfold Machine.demandStep
  dsimp only
  split
  · exact C.unmoved hopened ((Unmoved.refl _).countEvent _)
  · next c hc => exact C.tested (C.answerItem (C.takeClientItem hopened (takenClient_lt hc) op it) _ _)

theorem malformedStep (h : P s) (d : DemandCtx) : P (malformedStep d s) := by
  have hopened : P (openFrame d s) := C.unmoved h ((Unmoved.refl s).openFrame d)
  have hcounted := C.unmoved hopened ((Unmoved.refl _).countEvent .demandsDenied)
  unfold Machine.malformedStep
  dsimp only
  repeat' split
  · exact hcounted
  · exact hopened
  · exact C.answerItem hcounted _ _

theorem takeDemandStep (h : P s) (x : DemandCtx × Option (ItemOp × DemandItem)) : P (takeDemandStep s x) := by
  unfold Machine.takeDemandStep
  split
  · exact C.demandStep h _ _ _
  · exact C.malformedStep h _

omit C in
theorem foldl_keeps {α : Type} {f : State → α → State} (hf : ∀ t x, P t → P (f t x)) (l : List α) (h : P s) :
    P (l.foldl f s) := by
  induction l generalizing s with
  | nil => exact h
  | cons x l ih => exact ih (hf s x h)

/-! ### Frames (chapter 8) -/

theorem interceptFrame (h : P s) (x : Intercept) (fr : RxFrame) : P (interceptFrame x fr s) := by
  have hcounted : P (countEvent .commandsIntercepted s) := C.unmoved h ((Unmoved.refl s).countEvent _)
  unfold Machine.interceptFrame
  dsimp only
  repeat' split
  · exact hcounted
  · next c hc =>
    refine C.tested (foldl_keeps (fun t e ht => ?_) _ hcounted)
    unfold convertEntry
    split
    · exact C.unmoved ht ((Unmoved.refl t).countEvent _)
    · exact foldl_keeps (P := P) (f := takeConverted c e.setting)
        (fun t m ht => C.takeClientItem ht (takenClient_lt hc) _ _) _ ht
  · exact hcounted

theorem forwardFrame (h : P s) (cls : Nat) (fr : RxFrame) : P (forwardFrame cls fr s) := by
  have hsent : ∀ ring dest body, Unmoved s (sendOn ring dest body s) := fun _ _ _ =>
    (Unmoved.refl s).same rfl rfl rfl
  exact C.unmoved h ((hsent _ _ _).countEvent _)

theorem passOn (h : P s) (cls : Nat) (fr : RxFrame) : P (passOn cls fr s) := by
  unfold Machine.passOn
  split
  · exact h
  · exact C.forwardFrame h cls fr

theorem steerPlain (h : P s) (cls : Nat) (fr : RxFrame) : P (steerPlain cls fr s) := by
  have hunknown : ∀ t, P t → P (unknownClass t) := fun t ht => C.unmoved ht ((Unmoved.refl t).countEvent _)
  unfold Machine.steerPlain
  repeat' split
  · exact hunknown _ h
  · exact hunknown _ (C.forwardFrame h cls fr)
  · exact C.forwardFrame h cls fr

theorem stripOwn (h : P s) (fr : OwnFrame) : P (stripOwn fr s) := by
  unfold Machine.stripOwn
  split
  · exact C.unmoved h ((Unmoved.refl s).same rfl rfl rfl)
  · exact h

theorem arrive (h : P s) (a : Nat) : P (arrive a s) := C.unmoved h ((Unmoved.refl s).arrive a)

theorem sampleFrame (h : P s) (fr : RxFrame) : P (sampleFrame fr s) :=
  C.passOn (foldl_keeps (fun t e ht => C.unmoved ht ((Unmoved.refl t).takeSampleEntry _ e)) _ (C.arrive h _)) _ _

theorem statusFrame (h : P s) (fr : RxFrame) : P (statusFrame fr s) := by
  refine C.tested (C.passOn (foldl_keeps (fun t e ht => ?_) _ (C.arrive h _)) _ _)
  unfold takeStatus
  repeat' split
  · exact ht
  · exact ht
  · exact C.reported ht ((Unmoved.refl t).takeStatusEntry _ e) _

theorem commandFrame (h : P s) (fr : RxFrame) : P (commandFrame fr s) := by
  unfold Machine.commandFrame
  dsimp only
  split
  · exact C.interceptFrame (C.arrive h _) _ fr
  · exact C.steerPlain (C.arrive h _) _ fr

theorem unlessOwn (h : P s) (cls : Nat) (fr : RxFrame) {f : State → State} (hf : P s → P (f s)) :
    P (unlessOwn cls fr f s) := by
  unfold Machine.unlessOwn
  split
  · exact C.stripOwn h _
  · exact hf h

/-! ### Management operations (chapter 11) -/

theorem manage (h : P s) (m : ManageCtx) (code : Nat) {take : State → Answer} (ht : ∀ t, P t → P (take t).state) :
    P (manage m code take s) := by
  have hreply : ∀ a : Answer, P a.state → P (reply m.src m.seq code a) := by
    intro a ha
    unfold reply
    split
    · exact ha
    · exact C.unmoved ha ((Unmoved.refl _).originate _ _)
  have harrived := C.arrive h m.src
  unfold Machine.manage
  dsimp only
  split
  · unfold conclude
    split
    · exact C.tested (hreply _ (ht _ harrived))
    · exact hreply _ (ht _ harrived)
  · unfold foreignManage
    split
    · exact harrived
    · exact C.unmoved harrived ((Unmoved.refl _).countEvent _)

theorem restarted (h : P s) : P (restarted s) := C.cleared h id rfl rfl

theorem enterRun (h : P s) : P (enterRun s) := by
  refine C.reported h ?_ _
  have hrun : Unmoved s { s with mgu.part := .run, ale.passTimer := Timer.start s.now s.ale.passPeriod } :=
    (Unmoved.refl s).same rfl rfl rfl
  exact Unmoved.chuStart (hrun.resumeLeases.same (by simp) (by simp) (by simp))

theorem takeStart (h : P s) : P (takeStart s).state := by
  unfold Machine.takeStart
  repeat' split
  · exact h
  · exact h
  · exact C.enterRun h
  · exact h
  · exact C.enterRun h

theorem takeHoldChannel (h : P s) (n : Nat) : P (takeHoldChannel n s).state := by
  unfold Machine.takeHoldChannel
  split
  · exact h
  · exact C.reported h ((Unmoved.refl s).setChannel _ _) _

theorem takeFreeChannel (h : P s) (n : Nat) : P (takeFreeChannel n s).state := by
  unfold Machine.takeFreeChannel
  repeat' split
  · exact h
  · exact h
  · exact h
  · exact C.reported h (((Unmoved.refl s).setChannel _ _).returnChannel _ _) _

theorem takeReturnStation (h : P s) (a : Nat) : P (takeReturnStation a s).state := by
  unfold Machine.takeReturnStation
  repeat' split
  · exact h
  · exact h
  · exact C.unmoved h ((Unmoved.refl s).returnStation _ _)
  all_goals exact h

theorem takeClearSequence (h : P s) (k : Nat) : P (takeClearSequence k s).state := by
  unfold Machine.takeClearSequence
  repeat' split
  · exact h
  · exact C.unmoved h ((Unmoved.refl s).setSlot _ _)
  · exact h

theorem takeClearAlert (h : P s) (category index : Nat) : P (takeClearAlert category index s).state := by
  unfold Machine.takeClearAlert
  repeat' split
  · exact C.unmoved h ((Unmoved.refl s).bounded
      (fun a => a.sublist List.filter_sublist rfl rfl rfl) rfl rfl)
  · exact h
  · exact h

theorem takeAckOldest (h : P s) : P (takeAckOldest s).state := by
  unfold Machine.takeAckOldest
  split
  · exact h
  · next a rest hl =>
    exact C.unmoved h ((Unmoved.refl s).bounded
      (fun x => x.sublist (l := rest) (hl ▸ List.sublist_cons_self a rest) rfl rfl rfl) rfl rfl)

theorem takeClearCounts (h : P s) : P (takeClearCounts s).state := by
  have hcleared : AlcLaw s → AlcLaw { s with alc.counts := Table.all 20 0, alc.overflow := 0 } := by
    rintro ⟨hlen, hnodup, -, -⟩
    refine ⟨hlen, hnodup, Nat.zero_le _, fun n hn => ?_⟩
    rw [List.eq_of_mem_replicate (show n ∈ List.replicate 20 0 from hn)]
    exact Nat.zero_le _
  unfold Machine.takeClearCounts
  dsimp only
  split
  · exact C.unmoved h ((Unmoved.refl s).bounded hcleared rfl rfl)
  · exact C.unmoved h ((Unmoved.refl s).bounded hcleared rfl rfl)

theorem takeProbe (h : P s) (kind r c q seq : Nat) : P (takeProbe kind r c q seq s).state := by
  unfold Machine.takeProbe
  repeat' split
  · exact h
  · exact h
  · exact h
  · exact h
  · exact h
  · exact h
  · next hroom => exact C.queued h (Nat.lt_of_not_le hroom) _

/-! ### Loads (R200) -/

/-- What a load that its owner takes leaves. -/
def Keeps (P : State → Prop) (x : Loaded) : Prop := ∀ t, x = .ok t → P t

omit C in
theorem keeps_error (e : Status) : Keeps P (.error e) := fun _ h => by cases h

omit C in
theorem keeps_ok (h : P s) : Keeps P (.ok s) := fun _ e => by cases e; exact h

omit C in
theorem keeps_orBadValue {α : Type} {k : α → Loaded} (h : ∀ a, Keeps P (k a)) (x : Option α) :
    Keeps P (orBadValue x k) := by
  cases x with
  | none => exact keeps_error _
  | some a => exact h a

omit C in
theorem keeps_withFields {k : Loaded} (h : Keeps P k) (items : List FieldItem) (allowed : List Nat) :
    Keeps P (withFields items allowed k) := by
  unfold withFields
  split
  · exact h
  · exact keeps_error _

theorem endFaults (h : P s) (b : State) : P (endFaults b s) :=
  forEach_induct _ h fun _ _ t ht => C.unmoved ht ((Unmoved.refl t).stationReturned _)

theorem replaceSlot (h : P s) (k : Nat) (x : Option Slot) : P (replaceSlot k x s) :=
  C.reports.reportChanges _ (C.reports.minimums _ (C.reports.slot _ _ _ h))

omit C in
theorem keeps_changed {α : Type} {f : α → State} (hf : ∀ a, P (f a)) (items : List FieldItem) (allowed : List Nat)
    (x : Option α) : Keeps P (withFields items allowed (orBadValue x fun a => .ok (f a))) :=
  keeps_withFields (keeps_orBadValue (fun a => keeps_ok (hf a)) x) items allowed

theorem loadChannel (h : P s) (c : LoadClass) (n : Nat) (items : List FieldItem) :
    Keeps P (loadChannel c n items s) := by
  have hchannel : ∀ x, P (reportChanges s (s.setChannel n x)) := fun x =>
    C.reported h ((Unmoved.refl s).setChannel n x) s
  unfold Machine.loadChannel
  repeat' split
  · exact keeps_changed (fun _ => hchannel _) _ _ _
  · exact keeps_error _
  · exact keeps_changed (fun _ => hchannel _) _ _ _

theorem loadSlot (h : P s) (c : LoadClass) (k : Nat) (items : List FieldItem) : Keeps P (loadSlot c k items s) := by
  have hslot : ∀ x, Keeps P (.ok (Machine.replaceSlot k x s)) := fun x => keeps_ok (C.replaceSlot h k x)
  cases c with
  | structural =>
    refine keeps_withFields (keeps_orBadValue (fun x => ?_) _) _ _
    cases x with
    | none => dsimp only; split; exacts [hslot _, keeps_error _]
    | some sl => dsimp only; split; exacts [hslot _, keeps_error _]
  | tunable =>
    unfold Machine.loadSlot
    dsimp only
    split
    · exact keeps_error _
    · refine keeps_withFields ?_ _ _
      split
      · exact keeps_ok (C.unmoved h ((Unmoved.refl s).setSlot _ _))
      · exact keeps_error _

theorem ownerLoad (h : P s) (table index : Nat) (c : LoadClass) (items : List FieldItem) :
    Keeps P (ownerLoad table index c items s) := by
  have hsame : ∀ t : State, t.alc = s.alc → t.gtb = s.gtb → t.din.prf = s.din.prf → P t :=
    fun t ha hg hp => C.unmoved h ((Unmoved.refl s).same ha hg hp)
  have hresource : ∀ x, P (s.setResource index x) := fun x =>
    C.unmoved h ((Unmoved.refl s).rewrite rfl (fun _ _ => rfl) (fun _ => rfl) rfl rfl)
  unfold Machine.ownerLoad
  split
  · refine keeps_changed (fun x => C.endFaults (hsame _ ?_ ?_ ?_) s) _ _ _ <;> rfl
  · refine keeps_changed (fun x => hsame _ ?_ ?_ ?_) _ _ _ <;> rfl
  · refine keeps_changed (fun x => hsame _ ?_ ?_ ?_) _ _ _ <;> rfl
  · cases c <;> refine keeps_changed (fun x => hsame _ ?_ ?_ ?_) _ _ _ <;> rfl
  · unfold loadClient
    repeat' split
    · refine keeps_changed (fun x => hsame _ ?_ ?_ ?_) _ _ _ <;> rfl
    · exact keeps_error _
    · refine keeps_changed (fun x => hsame _ ?_ ?_ ?_) _ _ _ <;> rfl
  · unfold loadResource
    repeat' split
    · exact keeps_orBadValue (fun x => keeps_ok (hresource x)) _
    · exact keeps_error _
    · exact keeps_ok (hresource _)
    · exact keeps_error _
  · exact C.loadChannel h c index items
  · exact C.loadSlot h c index items
  · refine keeps_changed (fun x => hsame _ ?_ ?_ ?_) _ _ _ <;> rfl
  · refine keeps_changed (fun x => hsame _ ?_ ?_ ?_) _ _ _ <;> rfl
  · refine keeps_changed (fun x => hsame _ ?_ ?_ ?_) _ _ _ <;> rfl
  · exact keeps_error _

theorem takeLoad (h : P s) (table index cls : Nat) (part : PartMark) (contents : List Byte) :
    P (takeLoad table index cls part contents s).state := by
  have hheld : ∀ x, P { s with mgu.held := x } := fun x => C.unmoved h ((Unmoved.refl s).same rfl rfl rfl)
  have hdecided : ∀ bytes, Keeps P (decideLoad table index cls bytes { s with mgu.held := none }) := by
    intro bytes
    unfold decideLoad
    repeat' split
    · exact keeps_error _
    · exact keeps_error _
    · exact keeps_orBadValue (fun items => C.ownerLoad (hheld none) _ _ _ _) _
    · exact keeps_error _
  unfold Machine.takeLoad
  repeat' split
  · exact hheld none
  · dsimp only
    unfold answerLoad
    split
    · next t ht => exact hdecided _ t ht
    · exact hheld none
  · exact hheld _

end StepClosed

end Sys2Proof.Machine
end


-- ==== Sys2Proof/Proofs/EveryStep.lean ====
section
/-! SUPPORT. One walk through all the commands: a law that the operations moving holders, records, PRF entries and probes
keep is kept by every step. -/

namespace Sys2Proof.Machine

variable {s t u : State}

/-! ### Reset, events and the step -/

theorem alcLaw_reset : AlcLaw State.reset := by
  refine ⟨Nat.zero_le _, List.nodup_nil, Nat.zero_le _, fun n hn => ?_⟩
  rw [List.eq_of_mem_replicate (show n ∈ List.replicate 20 0 from hn)]
  exact Nat.zero_le _

namespace StepClosed

variable {P : State → Prop} (C : StepClosed P)
include C

theorem hardReset (h : P s) (q : List Instr) : P { State.reset with pending := q } :=
  C.cleared h (fun _ => alcLaw_reset) rfl rfl

theorem takeClearLoop (h : P s) : P (takeClearLoop s).state := C.unmoved h ((Unmoved.refl s).setLpu _)

omit C in
theorem takeRead (h : P s) (table index : Nat) : P (takeRead table index s).state := by
  unfold Machine.takeRead
  repeat' split
  all_goals exact h

omit C in
theorem takeStatusItem (h : P s) (item index : Nat) : P (takeStatusItem item index s).state := by
  unfold Machine.takeStatusItem
  split
  all_goals exact h

/-- A MANAGE operation of any code. -/
theorem operationOf (seq : Nat) (payload : List Byte) {take : State → Answer}
    (e : (operationOf seq payload).2 = take) (h : P s) : P (take s).state := by
  unfold Machine.operationOf at e
  split at e
  · exact e ▸ h
  · dsimp only at e
    split at e <;> subst e
    · exact C.takeLoad h _ _ _ _ _
    · exact takeRead h _ _
    · exact takeStatusItem h _ _
    · exact C.takeStart h
    · exact C.restarted h
    · exact C.restarted h
    · exact C.takeHoldChannel h _
    · exact C.takeFreeChannel h _
    · exact C.takeReturnStation h _
    · exact C.takeClearSequence h _
    · exact C.takeClearAlert h _ _
    · exact C.takeAckOldest h
    · exact C.takeClearCounts h
    · exact C.takeClearLoop h
    · exact C.takeProbe h _ _ _ _ _
    · exact h

theorem steer (h : P s) (cls : Nat) (fr : RxFrame) : P (steer cls fr s) := by
  unfold Machine.steer
  repeat' split
  · exact C.sampleFrame h fr
  · exact C.statusFrame h fr
  · exact C.commandFrame h fr
  · exact foldl_keeps (P := P) (fun t x ht => C.takeDemandStep ht x) _ h
  · exact C.manage h _ _ fun t ht => C.operationOf _ _ rfl ht
  · exact C.steerPlain (C.arrive h _) _ _

theorem executeHead (h : P s) (k : ProbeKind) : P (executeHead k s) := by
  unfold Machine.executeHead
  split
  · exact h
  · next p rest hq =>
    split
    · next hready => exact testHead_ready hq hready.2 ▸ C.tested h
    · exact h

theorem channelExpiry (h : P s) (timer : Channel → Timer) {act : Nat → State → State} (n : Nat)
    (hact : ∀ t, Unmoved t (act n t)) : P (channelExpiry timer act n s) := by
  unfold Machine.channelExpiry
  repeat' split
  · exact h
  · exact h
  · next s' he => exact C.tested (C.reported h (((Unmoved.refl s).expire he).trans (hact s')) _)
  · exact h

theorem startPass (h : P s) : P (startPass s) := by
  have hlatched : Unmoved s (latched s) := Unmoved.markPassSeen ((Unmoved.refl s).same rfl rfl rfl)
  exact startPass_eq s ▸ C.reports.slotsPassStart _ (C.unmoved h hlatched)

theorem completePass (h : P s) (l : Table 12 LatchedRecord) : P (completePass l s) := by
  have hended : Unmoved s { s with ale.pass := none, ale.results := passResults l (computePass l) } :=
    (Unmoved.refl s).same rfl rfl rfl
  have hwritten := forEach_induct (P := Unmoved s) (List.range 12) hended
    (f := Machine.writeRecord l (computePass l)) fun r _ _ ht => ht.writeRecord l _ r
  have htold : ∀ b x, Unmoved s x → Unmoved s (sendGrantNotices b x) := fun b x hx =>
    hx.same (by simp) (by simp) (by simp)
  have hmoved : ∀ x, Unmoved s x → Unmoved s (chuTakeResults l (computePass l) x) := fun x hx =>
    hx.same (by simp) (by simp) (by simp)
  exact C.reports.reportChanges _ (C.judgePassMarks (C.unmoved h (hmoved _ (htold _ _ (hwritten.countPass _)))))

theorem gtbStationFault (h : P s) (a : Nat) : P (gtbStationFault a s) := by
  unfold Machine.gtbStationFault
  refine forEach_induct _ h fun k _ t ht => ?_
  repeat' split
  · exact C.notice ht k
  · exact ht
  · exact ht

theorem declareFaulty (h : P s) (i : Nat) : P (declareFaulty i s) := by
  cases hst : s.station i with
  | none => simpa [Machine.declareFaulty, hst] using h
  | some st =>
    have hpoints : Unmoved s (pointsDeclared i st s) :=
      (((Unmoved.refl s).setStation _ _).raiseAlert _ _).pstStationFault _
    have hchannels : P (channelsDeclared i st s) :=
      C.reported (C.unmoved h hpoints) ((Unmoved.refl _).chuStationFault st.address) _
    have hleases : P (leasesDeclared i st s) := dinStationFault_induct (P := P) st.address hchannels
      (fun r c _ t ht => C.lapsed ht r c) fun c t ht => C.unmoved ht ((Unmoved.refl t).setClient _ _)
    rw [declareFaulty_eq hst]
    exact C.tested (C.unmoved (C.gtbStationFault hleases _) (Unmoved.refl _).mguStationFault)

theorem silenceExpired (h : P s) (i : Nat) (st : Station) : P (silenceExpired i st s) := by
  have hpolled := (Unmoved.refl s).sendPoll st.address
  unfold Machine.silenceExpired
  dsimp only
  split
  · exact C.declareFaulty (C.unmoved h hpolled) i
  · exact C.unmoved h (hpolled.setStation _ _)

theorem pollExpired (h : P s) (i n : Nat) (st : Station) : P (pollExpired i n st s) := by
  unfold Machine.pollExpired
  dsimp only
  split
  · exact C.declareFaulty (C.unmoved h ((Unmoved.refl s).setStation _ _)) i
  · exact C.unmoved h (((Unmoved.refl s).sendPoll _).setStation _ _)

/-- What a timer's expiry leaves, by the state at its deadline. -/
theorem expired (h : P s) {x : Timer} (he : expire x s = some t) : P t := C.unmoved h ((Unmoved.refl s).expire he)

theorem sequenceAlert (x : State) (c : AlertCategory) (i : Nat) (h : P x) : P (raiseAlert c i x) :=
  C.unmoved h ((Unmoved.refl x).raiseAlert c i)

/-- Every command keeps the law. -/
theorem exec_keeps (i : Instr) (h : P s) (e : exec i s = .next t) : P t := by
  have hdemand : ∀ d op it, P (Machine.demandStep d op it s) := fun d op it => C.demandStep h d op it
  cases i <;> simp only [exec] at e
  case hardReset => cases e; exact C.hardReset h _
  case dropInvalidFrame => cases e; exact C.unmoved h ((Unmoved.refl s).countEvent _)
  case frameForward cls fr => cases e; exact C.unlessOwn h cls fr fun h => C.steer h cls fr
  case ownFrameStrip fr => cases e; exact C.stripOwn h fr
  case markerReturn input m =>
    unfold execMarkerReturn at e
    split at e <;> cases e
    · exact C.unmoved h ((Unmoved.refl s).same rfl rfl rfl)
    · exact C.unmoved h ((Unmoved.refl s).markerHome input m)
  case sample fr => cases e; exact C.unlessOwn h _ fr fun h => C.sampleFrame h fr
  case statusFrame fr => cases e; exact C.unlessOwn h _ fr fun h => C.statusFrame h fr
  case intercept fr => cases e; exact C.unlessOwn h _ fr fun h => C.commandFrame h fr
  case acquireShared | acquireExclusive | upgrade | downgrade | refresh | release | yieldDone | reserve | commitIf |
      badItem =>
    cases e; exact hdemand _ _ _
  case malformed d => cases e; exact C.malformedStep h d
  case load m table index cls part contents =>
    cases e; exact C.manage h m _ fun t ht => C.takeLoad ht table index cls part contents
  case read m table index => cases e; exact C.manage h m _ fun t ht => takeRead ht table index
  case status m item index => cases e; exact C.manage h m _ fun t ht => takeStatusItem ht item index
  case start m => cases e; exact C.manage h m _ fun t ht => C.takeStart ht
  case restart m => cases e; exact C.manage h m _ fun t ht => C.restarted ht
  case enterConfig m => cases e; exact C.manage h m _ fun t ht => C.restarted ht
  case holdChannel m n => cases e; exact C.manage h m _ fun t ht => C.takeHoldChannel ht n
  case freeChannel m n => cases e; exact C.manage h m _ fun t ht => C.takeFreeChannel ht n
  case returnStation m a => cases e; exact C.manage h m _ fun t ht => C.takeReturnStation ht a
  case clearSequence m n => cases e; exact C.manage h m _ fun t ht => C.takeClearSequence ht n
  case clearAlert m category index => cases e; exact C.manage h m _ fun t ht => C.takeClearAlert ht category index
  case ackOldest m => cases e; exact C.manage h m _ fun t ht => C.takeAckOldest ht
  case clearCounts m => cases e; exact C.manage h m _ fun t ht => C.takeClearCounts ht
  case clearLoop m => cases e; exact C.manage h m _ fun t ht => C.takeClearLoop ht
  case probe m kind r c q => cases e; exact C.manage h m _ fun t ht => C.takeProbe ht kind r c q m.seq
  case badOperation m op => cases e; exact C.manage h m op fun t ht => ht
  case evict | evictAll | demote | freeze | thaw | cap | uncap => cases e; exact C.executeHead h _
  case staleTimerExpiry p =>
    unfold execStaleTimerExpiry at e
    split at e <;> cases e
    · exact h
    · next he => exact C.unmoved (C.expired h he) ((Unmoved.refl _).staleExpired p)
  case leaseExpiry r c =>
    unfold execLeaseExpiry at e
    split at e <;> cases e
    · exact h
    · next he => exact C.tested (C.lapsed (C.expired h he) r c)
  case yieldTimerExpiry k =>
    unfold execYieldTimerExpiry at e
    repeat' split at e
    all_goals cases e
    · exact h
    · exact h
    · next he => exact C.tested (C.notice (C.unmoved (C.expired h he) ((Unmoved.refl _).raiseAlert _ _)) k)
  case passStart =>
    unfold execPassStart at e
    repeat' split at e
    all_goals cases e
    · exact h
    · next he _ => exact C.tested (C.startPass (C.expired h he))
    · exact h
  case passCompletion =>
    unfold execPassCompletion at e
    split at e <;> cases e
    · exact h
    · exact C.tested (C.completePass h _)
  case rampExpiry n => cases e; exact C.channelExpiry h _ n fun t => (Unmoved.refl t).rampExpiry n
  case ackTimeout n => cases e; exact C.channelExpiry h _ n fun t => (Unmoved.refl t).ackExpiry n
  case refreshTimerExpiry n => cases e; exact C.channelExpiry h _ n fun t => (Unmoved.refl t).refreshExpiry n
  case watchExpiry k =>
    unfold execWatchExpiry at e
    repeat' split at e
    all_goals cases e
    · exact h
    · exact h
    · next he => exact C.tested (C.reports.failSlot C.sequenceAlert k (C.expired h he))
  case stopDelayExpiry k =>
    unfold execStopDelayExpiry at e
    repeat' split at e
    all_goals cases e
    · exact h
    · exact h
    · next he => exact C.tested (C.reports.stopDelayExpired k (C.expired h he))
  case antiCycleExpiry k =>
    unfold execAntiCycleExpiry at e
    repeat' split at e
    all_goals cases e
    · exact h
    · exact h
    · next he => exact C.unmoved (C.expired h he) ((Unmoved.refl _).setSlot _ _)
  case markerTimerExpiry =>
    unfold execMarkerTimerExpiry at e
    split at e <;> cases e
    · exact h
    · next he =>
      have hrestarted : ∀ x : State, Unmoved x { x with lpu.markerTimer := Timer.start x.now x.lpu.markerPeriod } :=
        fun x => (Unmoved.refl x).setLpu _
      split
      · exact C.unmoved (C.expired h he) (hrestarted _)
      · exact C.unmoved (C.expired h he) (hrestarted _).sendMarkers
  case returnWatchExpiry ring =>
    unfold execReturnWatchExpiry at e
    repeat' split at e
    all_goals cases e
    · exact h
    · exact h
    · next he => exact C.unmoved (C.expired h he) ((Unmoved.refl _).watchMissed ring _)
  case silenceExpiry i =>
    unfold execSilenceExpiry at e
    repeat' split at e
    all_goals cases e
    · exact h
    · exact h
    · next he => exact C.silenceExpired (C.expired h he) i _
    · exact h
    · next he => exact C.silenceExpired (C.expired h he) i _
    · exact h
    · exact h
  case pollTimeout i =>
    unfold execPollTimeout at e
    repeat' split at e
    all_goals cases e
    · exact h
    · exact h
    · next he => exact C.pollExpired (C.expired h he) i _ _
    all_goals exact h

/-- Every step keeps the law: the queued command in front, or the idle step of the clock. -/
theorem step_keeps (h : P s) (e : step s = .next t) : P t := by
  unfold step at e
  split at e
  · cases e; exact C.unmoved h ((Unmoved.refl s).setNow _)
  · next c rest _ =>
    exact C.exec_keeps (s := { s with pending := rest }) c (C.unmoved h ((Unmoved.refl s).same rfl rfl rfl)) e

end StepClosed

end Sys2Proof.Machine
end


-- ==== Sys2Proof/Proofs/Laws.lean ====
section
/-! PROOFS OF OBLIGATIONS. Laws of every state: the standings (R63), the bounds of the lists and counts (R54, R83, R190,
R194), and all laws at reset. -/

namespace Sys2Proof.Machine

variable {s t u : State}

/-! ## Standings (R63) -/

/-- With no holder, record or PRF entry the law of R63 holds. -/
theorem standingLaw_cleared (hg : t.gtb = State.reset.gtb) (hp : t.din.prf = []) : StandingLaw t := by
  obtain ⟨-, -, hrec, -⟩ := reset_gtb hg
  refine ⟨fun r c c' _ _ _ hx => ?_, fun k v hv => ?_, fun k l v w hv => ?_, fun e he => ?_, ?_⟩
  · rw [reset_holder t hg] at hx; cases hx
  · rw [hrec] at hv; cases hv
  · rw [hrec] at hv; cases hv
  · rw [hp] at he; cases he
  · rw [hp]; exact List.Pairwise.nil

theorem standingLaw_stepClosed : StepClosed StandingLaw where
  unmoved h hst := h.of_same hst.state hst.named hst.prf
  ramp h k := h.rampClear k
  notice h k := h.noticeClear k
  decided h hr hc op p := h.decideItem op p hr hc
  lapsed h r c := h.lapse r c
  tested h := h.testHead
  queued h _ _ := h.of_eq rfl rfl rfl
  cleared _ _ hg hp := standingLaw_cleared hg hp

/-- Settles O59: every operation that moves holders, records or PRF entries keeps the law of R63, and every step is made
of these and of operations that leave what the law reads. -/
theorem everyStepKeepsStandingLaw : Obligations.EveryStepKeepsStandingLaw :=
  fun _ _ h e => standingLaw_stepClosed.step_keeps h e

/-! ## Bounds (R54, R83, R190, R194) -/

/-- From `s` to `t` neither the PRF nor the probe queue has grown, and the alert list and the counts have stayed in their
bounds. -/
structure Fits (s t : State) : Prop where
  alc : AlcLaw s → AlcLaw t
  prf : t.din.prf.length ≤ s.din.prf.length
  probes : t.gtb.probes.length ≤ s.gtb.probes.length

namespace Fits

theorem refl (s : State) : Fits s s := ⟨id, le_rfl, le_rfl⟩

theorem trans (h : Fits u s) (h' : Fits s t) : Fits u t :=
  ⟨fun a => h'.alc (h.alc a), h'.prf.trans h.prf, h'.probes.trans h.probes⟩

theorem unmoved (h : Fits u s) (h' : Unmoved s t) : Fits u t :=
  h.trans ⟨h'.alc, h'.prf ▸ le_rfl, h'.probes ▸ le_rfl⟩

/-- An operation that leaves the ALC, the PRF and the probe queue. -/
theorem same (h : Fits u s) (halc : t.alc = s.alc) (hprf : t.din.prf = s.din.prf)
    (hprobes : t.gtb.probes = s.gtb.probes) : Fits u t :=
  h.trans ⟨fun a => by rw [AlcLaw, halc]; exact a, hprf ▸ le_rfl, hprobes ▸ le_rfl⟩

theorem moveHolder (h : Fits u s) (r c : Nat) (st : HolderState) : Fits u (moveHolder r c st s) :=
  h.same (by simp) (by simp) (by simp)

theorem setRecord (h : Fits u s) (k : Nat) (x : Option Revocation) : Fits u (s.setRecord k x) := h.same rfl rfl rfl

theorem setHolder (h : Fits u s) (r c : Nat) (x : Holder) : Fits u (s.setHolder r c x) := h.same rfl rfl rfl

theorem removePrf (h : Fits u s) (r c : Nat) : Fits u (removePrf r c s) :=
  h.trans ⟨id, List.length_filter_le _ _, le_rfl⟩

theorem renew (h : Fits u s) (r c : Nat) (p : Params) : Fits u (renew r c p s) :=
  h.same (by simp) (by simp) (by simp)

theorem takeLevel (h : Fits u s) (level : Level) (r c : Nat) (p : Params) : Fits u (takeLevel level r c p s) :=
  (h.moveHolder r c _).renew r c p

theorem completePrf (h : Fits u s) (r : Nat) : Fits u (completePrf r s) := by
  unfold Machine.completePrf
  repeat' split
  · exact h
  · exact h
  · exact Fits.removePrf (((h.moveHolder _ _ _)).unmoved ((Unmoved.refl _).notify _ _)) _ _

theorem freeRecord (h : Fits u s) (k : Nat) : Fits u (freeRecord k s) := by
  unfold Machine.freeRecord
  split
  · exact h
  · exact ((h.moveHolder _ _ _).setRecord _ _).completePrf _

theorem rampClear (h : Fits u s) (k : Nat) : Fits u (rampClear k s) := by
  unfold Machine.rampClear
  dsimp only
  repeat' split
  · exact h
  · exact h.setRecord _ _
  · exact (h.setRecord _ _).freeRecord k

theorem noticeClear (h : Fits u s) (k : Nat) : Fits u (noticeClear k s) := by
  unfold Machine.noticeClear
  dsimp only
  repeat' split
  · exact h
  · exact (h.setRecord _ _).freeRecord k
  · exact h.setRecord _ _
  · exact h

theorem revoke (h : Fits u s) (cause : Cause) (r c : Nat) : Fits u (revoke cause r c s) :=
  ((((h.setRecord _ _).moveHolder r c .yielding).removePrf r c).unmoved ((Unmoved.refl _).notify _ _)).unmoved
    ((Unmoved.refl _).countEvent _)

theorem revokeAll (h : Fits u s) (cause : Cause) (r : Nat) (cs : List Nat) : Fits u (revokeAll cause r cs s) :=
  forEach_induct _ h fun c _ _ ht => ht.revoke cause r c

/-! ### Lapses and probes -/

theorem noteLapse (h : Fits u s) (r c : Nat) (kept : Bool) : Fits u (noteLapse r c kept s) := by
  have hnoted := ((Unmoved.refl s).countEvent .leaseLapses).notify c [⟨r, .lapsed kept⟩]
  unfold Machine.noteLapse lapseAlert
  split
  · exact h.unmoved ((hnoted.setClient _ _).raiseAlert _ _)
  · exact h.unmoved hnoted

theorem lapse (h : Fits u s) (r c : Nat) : Fits u (lapse r c s) := by
  have hnone : Fits u (lapseToNone r c s) := ((h.removePrf r c).moveHolder r c .none).noteLapse r c false
  unfold Machine.lapse
  dsimp only
  repeat' split
  all_goals first
    | exact h
    | exact hnone
    | exact (h.setHolder _ _ _).noteLapse r c true

theorem evictOne (h : Fits u s) (r c : Nat) : Fits u (evictOne r c s) := by
  unfold Machine.evictOne
  split
  · exact ((h.removePrf r c).moveHolder r c .none).unmoved ((Unmoved.refl _).notify _ _)
  · exact h.revoke _ _ _
  · exact h.revoke _ _ _
  · exact h.revoke _ _ _
  · exact h
  · exact h

theorem demoteOne (h : Fits u s) (r c : Nat) : Fits u (demoteOne r c s) := by
  unfold Machine.demoteOne
  split
  · exact (h.moveHolder r c .shared).unmoved ((Unmoved.refl _).notify _ _)
  · exact h

theorem act (h : Fits u s) (p : Probe) : Fits u (p.act s) := by
  unfold Probe.act
  split
  · unfold doEvict
    split
    · exact h.revoke _ _ _
    · exact h
  · exact forEach_induct _ h fun c _ _ ht => ht.evictOne _ c
  · exact forEach_induct _ h fun c _ _ ht => ht.demoteOne _ c
  all_goals exact h.same rfl rfl rfl

theorem testHead (h : Fits u s) : Fits u (testHead s) := by
  refine testHead_induct h fun t p rest ht hp _ => ?_
  have hleft : Fits u { t with gtb.probes := rest } :=
    ht.trans ⟨id, le_rfl, by rw [hp]; exact Nat.le_succ _⟩
  exact (hleft.act p).unmoved ((Unmoved.refl _).originate _ _)

end Fits

/-! ### Requests: an entry joins the PRF where there is room (R54) -/

theorem roomFor_prf {n : Nat} (h : roomFor s n = true) : s.din.prf.length < 8 := by
  unfold roomFor at h
  simp only [Bool.and_eq_true, decide_eq_true_eq] at h
  omega

/-- The bounds of O55. -/
def Bounded (s : State) : Prop := AlcLaw s ∧ QueueLaw s

theorem Bounded.fits (h : Bounded s) (h' : Fits s t) : Bounded t := by
  obtain ⟨halc, hprf, hprobes⟩ := h
  exact ⟨h'.alc halc, h'.prf.trans hprf, h'.probes.trans hprobes⟩

/-- What fits a state whose PRF has room, with one entry more. -/
theorem Bounded.enter (h : Bounded s) (hroom : s.din.prf.length < 8) (h' : Fits s t) (e : PrfEntry) :
    Bounded { t with din.prf := t.din.prf ++ [e] } := by
  obtain ⟨halc, hprf, hprobes⟩ := h.fits h'
  refine ⟨halc, ?_, hprobes⟩
  have := h'.prf
  simp only [List.length_append, List.length_singleton]
  omega

theorem Bounded.waitFor (h : Bounded s) (hroom : s.din.prf.length < 8) (h' : Fits s t) (level : Level) (r c : Nat)
    (p : Params) : Bounded (waitFor level r c p t) :=
  (h.enter hroom ((h'.moveHolder r c .waiting).setHolder r c _) ⟨c, r, level⟩).fits ((Fits.refl _).renew r c p)

theorem Bounded.acquireSharedNew (h : Bounded s) (r c : Nat) (p : Params) : Bounded (acquireSharedNew r c p s).1 := by
  unfold Machine.acquireSharedNew
  dsimp only
  repeat' split
  · exact h
  · exact h
  · exact h.fits ((Fits.refl s).takeLevel .shared r c p)
  · next hroom => exact h.waitFor (roomFor_prf hroom) ((Fits.refl s).revokeAll _ _ _) _ r c p
  · exact h
  · exact h

theorem Bounded.acquireExclusiveNew (h : Bounded s) (r c : Nat) (p : Params) :
    Bounded (acquireExclusiveNew r c p s).1 := by
  unfold Machine.acquireExclusiveNew
  dsimp only
  repeat' split
  · exact h
  · exact h
  · next hroom => exact h.waitFor (roomFor_prf hroom) (Fits.refl s) _ r c p
  · exact h
  · exact h.fits ((Fits.refl s).takeLevel .exclusive r c p)
  · next hroom => exact h.waitFor (roomFor_prf hroom) ((Fits.refl s).revokeAll _ _ _) _ r c p
  · exact h
  · exact h

theorem Bounded.decideAcquire (h : Bounded s) (level : Level) (r c : Nat) (p : Params) :
    Bounded (decideAcquire level r c p s).1 := by
  unfold Machine.decideAcquire
  cases level <;> dsimp only <;> split
  · exact h.acquireSharedNew r c p
  · exact h
  · exact h.fits ((Fits.refl s).renew r c p)
  · exact h.acquireExclusiveNew r c p
  · exact h
  · exact h.fits ((Fits.refl s).renew r c p)

theorem Bounded.decideUpgrade (h : Bounded s) (r c : Nat) : Bounded (decideUpgrade r c s).1 := by
  have hwait : ∀ {t}, s.din.prf.length < 8 → Fits s t → Bounded { moveHolder r c .upgrading t with
      din.prf := (moveHolder r c .upgrading t).din.prf ++ [⟨c, r, .exclusive⟩] } :=
    fun hroom ht => h.enter hroom (ht.moveHolder r c .upgrading) _
  unfold Machine.decideUpgrade
  dsimp only
  repeat' split
  · exact h
  · exact h
  · exact h
  · next hroom => exact hwait (roomFor_prf hroom) (Fits.refl s)
  · exact h
  · exact h.fits ((Fits.refl s).moveHolder r c _)
  · next hroom => exact hwait (roomFor_prf hroom) ((Fits.refl s).revokeAll _ _ _)
  · exact h
  · exact h

theorem Bounded.decideYieldDone (h : Bounded s) (r c : Nat) : Bounded (decideYieldDone r c s).1 := by
  unfold Machine.decideYieldDone
  dsimp only
  repeat' split
  · exact h.fits ((Fits.refl s).noticeClear _)
  · exact h
  · exact h

theorem Bounded.decideItem (h : Bounded s) (op : ItemOp) (r c : Nat) (p : Params) :
    Bounded (decideItem op r c p s).1 := by
  have hclient : ∀ x, Bounded (s.setClient c x) := fun x =>
    h.fits ((Fits.refl s).unmoved ((Unmoved.refl s).setClient c x))
  cases op with
  | acquire level => exact h.decideAcquire level r c p
  | upgrade => exact h.decideUpgrade r c
  | downgrade =>
    unfold Machine.decideItem decideDowngrade
    dsimp only
    split
    · exact h.fits ((Fits.refl s).moveHolder r c _)
    · exact h
  | refresh =>
    unfold Machine.decideItem decideRefresh
    dsimp only
    split
    · exact h
    · exact h
    · exact h.fits ((Fits.refl s).renew r c p)
  | release =>
    unfold Machine.decideItem decideRelease
    dsimp only
    split
    · exact h
    · exact h.decideYieldDone r c
    · exact h.fits (((Fits.refl s).removePrf r c).moveHolder r c _)
  | yieldDone => exact h.decideYieldDone r c
  | reserve => exact hclient _
  | commitIf level g =>
    unfold Machine.decideItem decideCommitIf
    dsimp only
    split
    · exact (hclient _).decideAcquire level r c p
    · exact hclient _
  | bad => exact h

theorem bounded_stepClosed : StepClosed Bounded where
  unmoved h hst := h.fits ((Fits.refl _).unmoved hst)
  ramp h k := h.fits ((Fits.refl _).rampClear k)
  notice h k := h.fits ((Fits.refl _).noticeClear k)
  decided h _ _ op p := h.decideItem op _ _ p
  lapsed h r c := h.fits ((Fits.refl _).lapse r c)
  tested h := h.fits (Fits.refl _).testHead
  queued h hroom p := by
    obtain ⟨halc, hprf, -⟩ := h
    refine ⟨halc, hprf, ?_⟩
    simp only [List.length_append, List.length_singleton]
    omega
  cleared h halc hg hp := by
    obtain ⟨-, -, -, hprobes⟩ := reset_gtb hg
    exact ⟨halc h.1, by rw [hp]; exact Nat.zero_le _, by rw [hprobes]; exact Nat.zero_le _⟩

/-- Settles O55: the PRF and the probe queue grow by one entry where a test has found room, and the alert list and the
counts saturate. -/
theorem everyStepKeepsBounds : Obligations.EveryStepKeepsBounds :=
  fun _ _ halc hqueue e => bounded_stepClosed.step_keeps ⟨halc, hqueue⟩ e

/-! ## Reset -/

/-- Settles O54: at reset every table and queue is empty and the part is in CONFIG. -/
theorem lawsHoldAtReset : Obligations.LawsHoldAtReset := by
  have hchannel : ∀ n, State.reset.channel n = none := fun n => Table.get_all_default (α := Option Channel) n
  refine ⟨alcLaw_reset, ⟨Nat.zero_le _, Nat.zero_le _⟩, fun p rest h => ?_, fun _ => ⟨rfl, rfl, fun n ch h => ?_⟩,
    ⟨fun r c _ => ?_, fun t h => ?_⟩, standingLaw_cleared rfl rfl⟩
  · cases h
  · rw [hchannel] at h; cases h
  · rw [reset_holder _ rfl]
  · cases h

end Sys2Proof.Machine
end


-- ==== Sys2Proof/Proofs/DemandFrames.lean ====
section
/-! PROOFS OF OBLIGATIONS. A frame given whole and the steps it is made of (R42, R43, R196), and the items refused
before the GTB decides them (R44). -/

namespace Sys2Proof.Machine

/-! ## A whole frame and its commands -/

/-- The command of one step of a DEMAND frame. -/
theorem exec_stepCommand (x : DemandCtx × Option (ItemOp × DemandItem)) (s : State) :
    exec (stepCommand x) s = .next (takeDemandStep s x) := by
  obtain ⟨d, _ | ⟨op, it⟩⟩ := x
  · rfl
  · exact exec_itemCommand d op it s

/-- The steps of a DEMAND frame, taken as commands one after another. -/
theorem foldl_stepCommand {run : Host.Outcome State Fault Refusal → Instr → Host.Outcome State Fault Refusal}
    (hrun : ∀ t i, run (.next t) i = exec i t) (l : List (DemandCtx × Option (ItemOp × DemandItem))) (s : State) :
    (l.map stepCommand).foldl run (.next s) = .next (l.foldl takeDemandStep s) := by
  induction l generalizing s with
  | nil => rfl
  | cons x l ih => rw [List.map_cons, List.foldl_cons, hrun, exec_stepCommand, ih, List.foldl_cons]

/-- Settles O60: a DEMAND frame is the fold of its steps, a MANAGE frame its one operation. -/
theorem wholeFrameIsItsCommands : Obligations.WholeFrameIsItsCommands := by
  intro input f s hsrc hdest hcls
  have hsteered : ∀ fr : RxFrame, fr.src = f.src →
      exec (.frameForward f.cls fr) s = .next (steer f.cls fr s) := fun fr hfr => by
    rw [exec, execFrameForward, unlessOwn, if_neg (hfr ▸ hsrc)]
  rw [hsteered _ rfl]
  rcases hcls with hcls | hcls
  · have hcommands : frameCommands input f = demandCommands input f := by
      simp [frameCommands, hsrc, hdest, hcls, classSample, classStatus, classCommand, classDemand]
    rw [hcommands, demandCommands, foldl_stepCommand fun _ _ => rfl]
    simp [steer, hcls, hdest, demandFrame, classSample, classStatus, classCommand, classDemand]
  · have hcommands : frameCommands input f =
        [manageCommand { input := input, src := f.src, seq := f.seq } f.payload] := by
      simp [frameCommands, hsrc, hdest, hcls, classSample, classStatus, classCommand, classDemand, classManage]
    rw [hcommands, List.foldl_cons, List.foldl_nil]
    simp [exec_manageCommand, steer, hcls, hdest, manageFrame, classSample, classStatus, classCommand, classDemand,
      classManage]

/-! ## Items refused -/

variable {d : DemandCtx} {it : DemandItem} {c : Nat} {s : State} {op : ItemOp}

/-- An item of a taken frame that fails a check of R44. -/
theorem exec_item_refused {reason : Reason} (hc : takenClient d.src (openFrame d s) = some c)
    (hrefused : itemRefusal op it (itemTaken d s) = some reason) :
    exec (itemCommand d (op, it)) s = .next (answered d it (itemTaken d s, .denied reason)) := by
  rw [exec_itemCommand]
  simp only [demandStep, hc, takeClientItem]
  rw [show countEvent .demandItems (openFrame d s) = itemTaken d s from rfl, hrefused]
  rfl

/-- An item of a frame whose items are not taken (R42). -/
theorem exec_item_discarded (hnone : takenClient d.src (openFrame d s) = none) :
    exec (itemCommand d (op, it)) s = .next (countEvent .demandsDenied (openFrame d s)) := by
  rw [exec_itemCommand]
  simp only [demandStep, hnone]

theorem itemRefusal_config {t : State} (hop : op ≠ .bad) (h : t.mgu.part = .config) :
    itemRefusal op it t = some .notRunning := by simp [itemRefusal, hop, h]

theorem itemRefusal_halted {t : State} (hop : op ≠ .bad) (h : t.mgu.part = .halted) :
    itemRefusal op it t = some .halted := by simp [itemRefusal, hop, h]

theorem itemRefusal_run {t : State} (hop : op ≠ .bad) (h : t.mgu.part = .run)
    (hkind : (t.resource it.resource).kind = .unused ∨ (t.resource it.resource).kind = .parent) :
    itemRefusal op it t = some .badResource := by
  rcases hkind with hkind | hkind <;> simp [itemRefusal, hop, h, hkind]

theorem openFrame_later (h : d.first = false) (s : State) : openFrame d s = s := by simp [openFrame, h]

/-- A payload without a whole item. -/
theorem malformedStep_alone (h : d.first = true) (s : State) :
    malformedStep d s = countEvent .demandsDenied (openFrame d s) := by simp [malformedStep, h]

/-- The remainder after the items of a taken frame. -/
theorem malformedStep_taken (h : d.first = false) (hc : takenClient d.src s = some c) : malformedStep d s =
    answerItem { d with last := true } ⟨15, .denied .malformed⟩ (countEvent .demandsDenied s) := by
  simp [malformedStep, openFrame_later h, h, hc]

/-- The remainder after the items of a discarded frame. -/
theorem malformedStep_discarded (h : d.first = false) (hnone : takenClient d.src s = none) : malformedStep d s = s := by
  simp [malformedStep, openFrame_later h, h, hnone]

/-- Settles O22: the checks of R44 in their order, and the remainder of a payload (R43). -/
theorem itemsRefusedByState : Obligations.ItemsRefusedByState := by
  intro d it c s
  refine ⟨fun op hop hc => ⟨fun h => ?_, fun h => ?_, fun h hkind => ?_⟩, fun hc => ?_, fun op hnone => ?_,
    fun hfirst => ?_, fun hfirst hc => ?_⟩
  · exact exec_item_refused hc (itemRefusal_config hop h)
  · exact exec_item_refused hc (itemRefusal_halted hop h)
  · exact exec_item_refused hc (itemRefusal_run hop h hkind)
  · exact exec_item_refused (op := .bad) hc rfl
  · exact exec_item_discarded hnone
  · rw [exec, execMalformed, malformedStep_alone hfirst]
  · rw [exec, execMalformed, malformedStep_taken hfirst hc]
    rfl

end Sys2Proof.Machine
end


-- ==== Sys2Proof/Proofs/Steering.lean ====
section
/-! PROOFS OF OBLIGATIONS. Frames whose content no block takes, and own frames coming home (R163 to R166). -/

namespace Sys2Proof.Machine

variable {s t : State} {src seq : Nat} {input : Ring}

/-! ## A discarded DEMAND frame (R42, R43) -/

/-- Counts by more than one event add up. -/
theorem countEvent_countBy (c : Count) (n : Nat) (s : State) : countEvent c (countBy c n s) = countBy c (n + 1) s := by
  have hget : ∀ v, ((s.alc.counts.set c.number v).get c.number) = v := fun v =>
    Table.get_set_same _ _ (by cases c <;> decide)
  have hsat : ∀ a, min 65535 (min 65535 (a + n) + 1) = min 65535 (a + (n + 1)) := fun a => by omega
  simp only [countEvent, countBy, hget, hsat, Table.set_set]

/-- The items after the first of a frame that is not taken, each counted. -/
theorem foldl_discardedItems {more : Bool} (hnone : takenClient src t = none) (l : List (ItemOp × DemandItem))
    (n : Nat) : (itemSteps input src seq more false l).foldl takeDemandStep (countBy .demandsDenied n t) =
      countBy .demandsDenied (n + l.length) t := by
  induction l generalizing n with
  | nil => rfl
  | cons x l ih =>
    have hstep : ∀ d : DemandCtx, d.first = false → d.src = src →
        takeDemandStep (countBy .demandsDenied n t) (d, some x) = countBy .demandsDenied (n + 1) t := fun d hfirst hsrc => by
      have hdiscarded : takenClient d.src (countBy .demandsDenied n t) = none := hsrc ▸ hnone
      simp only [takeDemandStep, demandStep, openFrame_later hfirst, hdiscarded, countEvent_countBy]
    rw [itemSteps, List.foldl_cons, hstep _ rfl rfl, ih, List.length_cons, Nat.add_right_comm, Nat.add_assoc]

/-- A DEMAND frame whose items are not taken: counted for each whole item, or once. -/
theorem demandFrame_discarded (fr : RxFrame) (hnone : takenClient fr.src (arrive fr.src s) = none) :
    demandFrame fr s = countBy .demandsDenied (max 1 (takeItems 4 fr.payload).1.length)
      { arrive fr.src s with din.draft := [] } := by
  have hnone' : takenClient fr.src { arrive fr.src s with din.draft := [] } = none := hnone
  have hopen : ∀ d : DemandCtx, d.first = true → d.src = fr.src →
      openFrame d s = { arrive fr.src s with din.draft := [] } := fun d hfirst hsrc => by
    simp [openFrame, hfirst, hsrc]
  unfold demandFrame frameSteps
  dsimp only
  cases hitems : (takeItems 4 fr.payload).1 with
  | nil =>
    simp only [itemSteps, List.nil_append, if_true, List.foldl_cons, List.foldl_nil, takeDemandStep]
    rw [malformedStep_alone rfl, hopen _ rfl rfl]
    rfl
  | cons x l =>
    have hfirst : ∀ d : DemandCtx, d.first = true → d.src = fr.src → takeDemandStep s (d, some x) =
        countBy .demandsDenied 1 { arrive fr.src s with din.draft := [] } := fun d hd hsrc => by
      have hdiscarded : takenClient d.src { arrive fr.src s with din.draft := [] } = none := hsrc ▸ hnone'
      simp only [takeDemandStep, demandStep, hopen d hd hsrc, hdiscarded]
      rfl
    have hrest : ∀ (n : Nat) (d : DemandCtx), d.first = false → d.src = fr.src →
        takeDemandStep (countBy .demandsDenied n { arrive fr.src s with din.draft := [] }) (d, none) =
          countBy .demandsDenied n { arrive fr.src s with din.draft := [] } := fun n d hd hsrc =>
      malformedStep_discarded hd (hsrc ▸ hnone')
    rw [itemSteps, List.foldl_append, List.foldl_cons, hfirst _ rfl rfl, foldl_discardedItems hnone',
      if_neg (List.cons_ne_nil x l), List.length_cons, Nat.add_comm 1, Nat.max_eq_right (Nat.le_add_left 1 _)]
    split
    · rfl
    · rw [List.foldl_cons, hrest _ _ rfl rfl, List.foldl_nil]

/-! ## Frames of other stations (R164, R165) -/

theorem exec_frameForward_other {fr : RxFrame} (hsrc : fr.src ≠ 0) (cls : Nat) (s : State) :
    exec (.frameForward cls fr) s = .next (steer cls fr s) := by
  rw [exec, execFrameForward, unlessOwn, if_neg hsrc]

/-- A frame whose content no block takes is steered by its destination and class alone. -/
theorem steer_plain {cls : Nat} {fr : RxFrame} (hsample : cls ≠ 1) (hstatus : cls ≠ 4)
    (hcommand : cls = 3 → interceptFor (arrive fr.src s) fr.src fr.dest = none)
    (htaken : cls = 2 ∨ cls = 6 → fr.dest ≠ 0) : steer cls fr s = steerPlain cls fr (arrive fr.src s) := by
  unfold steer
  rw [classSample, classStatus, classCommand, classDemand, classManage, if_neg hsample, if_neg hstatus]
  split
  · next h => subst h; simp only [commandFrame, hcommand rfl, classCommand]
  · next h =>
    rw [if_neg (fun hx => htaken (.inl hx.1) hx.2), if_neg (fun hx => htaken (.inr hx.1) hx.2)]

theorem steer_manage {fr : RxFrame} (hdest : fr.dest = 0) (hsrc : fr.src ≠ (arrive fr.src s).mgu.manager) :
    steer 6 fr s = foreignManage fr.src (arrive fr.src s) := by
  have hframe : steer 6 fr s = manageFrame fr s := by
    simp [steer, hdest, classSample, classStatus, classCommand, classDemand, classManage]
  rw [hframe, manageFrame, manage, if_neg hsrc]

/-! ## Own frames (R166) -/

/-- Settles O4: the branches of `steer` and `stripOwn`, and the fold of a discarded DEMAND frame. -/
theorem framesSteeredOrStripped : Obligations.FramesSteeredOrStripped := by
  refine ⟨fun cls fr s hsrc => ⟨fun hsample hstatus hcommand htaken => ?_, fun hcls hdest hnone => ?_,
    fun hcls hdest hforeign => ?_⟩, fun fr s => ⟨rfl, fun x hx hcls => ?_⟩⟩
  · rw [exec_frameForward_other hsrc, steer_plain hsample hstatus hcommand htaken, steerPlain]
    congr 1
    split
    · rfl
    · have hunknown : unknownClassCode cls = true ↔ cls = 0 ∨ 11 ≤ cls := by simp [unknownClassCode]
      simp only [hunknown]
      rfl
  · subst hcls
    have hframe : steer 2 fr s = demandFrame fr s := by
      simp [steer, hdest, classSample, classStatus, classCommand, classDemand]
    rw [exec_frameForward_other hsrc, hframe, demandFrame_discarded fr hnone]
  · subst hcls
    rw [exec_frameForward_other hsrc, steer_manage hdest hforeign, foreignManage]
    cases stationRecord fr.src (arrive fr.src s) <;> rfl
  · obtain ⟨input, dest, cls, seq, payload⟩ := fr
    simp only [List.mem_cons, List.not_mem_nil, or_false] at hx
    rcases hx with rfl | rfl | rfl | rfl
    case inr.inr.inr => rfl
    all_goals cases hcls; rfl

end Sys2Proof.Machine
end


-- ==== Sys2Proof/Proofs/Requests.lean ====
section
/-! PROOFS OF OBLIGATIONS. ACQUIRE_SHARED from NONE (R67), and RESERVE with COMMIT_IF (R59, R60, R75). -/

namespace Sys2Proof.Machine

variable {s : State} {r c : Nat}

/-! ## The tests of a request, as statements say them -/

/-- The EXCLUSIVE others, as a request finds them and as statements list them. -/
theorem exclusiveOthers_eq (s : State) (r c : Nat) :
    ((otherClients c).filter fun c' => (s.holder r c').state == .exclusive) = victims s r c [.exclusive] := by
  rw [otherClients, List.filter_filter, victims]
  refine List.filter_congr fun c' _ => ?_
  by_cases hc : c' = c <;> simp [hc, beq_eq_decide]

theorem mem_victims {states : List HolderState} {c' : Nat} :
    c' ∈ victims s r c states ↔ (c' < 3 ∧ c' ≠ c) ∧ (s.holder r c').state ∈ states := by
  have h3 : (c' = 0 ∨ c' = 1 ∨ c' = 2) ↔ c' < 3 := by omega
  simp only [victims, List.mem_filter, List.mem_cons, List.not_mem_nil, or_false, h3, Bool.and_eq_true, bne_iff_ne,
    decide_eq_true_eq, and_assoc]

theorem victims_eq_nil {states : List HolderState} : victims s r c states = [] ↔ ¬OtherIn s r c states := by
  rw [List.eq_nil_iff_forall_not_mem]
  simp only [mem_victims, OtherIn, not_exists, not_and]
  exact ⟨fun h c' h3 hc hs => h c' ⟨h3, hc⟩ hs, fun h c' hb hs => h c' hb.1 hb.2 hs⟩

/-- Every holder listed is less urgent (R66). -/
theorem moreUrgent_iff {a : Nat} {cs : List Nat} :
    moreUrgent s r a cs = true ↔ ∀ c' ∈ cs, a < (s.holder r c').cls := by
  simp [moreUrgent]

/-- Room for revocations and an entry of the PRF is wanting (R54, R76). -/
theorem roomFor_false {n : Nat} (h : (freeList s).length < n ∨ 8 ≤ s.din.prf.length) : roomFor s n = false := by
  have hfree : freeRecords s = (freeList s).length := rfl
  simp only [roomFor, Bool.and_eq_false_iff, decide_eq_false_iff_not, not_le, not_lt, hfree]
  exact h

theorem pendingOther_false_iff : pendingOther s r c = false ↔ ¬OtherIn s r c [.waiting, .upgrading] := by
  rw [← pendingOther_iff, Bool.not_eq_true]

/-! ## ACQUIRE_SHARED from NONE (R67), test by test -/

theorem acquireSharedNew_frozen (p : Params) (h : s.isFrozen r = true) :
    acquireSharedNew r c p s = (s, .denied .frozen) := by simp [acquireSharedNew, h]

theorem acquireSharedNew_pending (p : Params) (hf : s.isFrozen r = false) (h : OtherIn s r c [.waiting, .upgrading]) :
    acquireSharedNew r c p s = (s, .denied .contended) := by
  simp [acquireSharedNew, hf, (pendingOther_iff s r c).mpr h]

section Open

variable (hfrozen : s.isFrozen r = false) (hpending : ¬OtherIn s r c [.waiting, .upgrading])
include hfrozen hpending

/-- Past the first two tests the EXCLUSIVE others decide. -/
theorem acquireSharedNew_open (p : Params) : acquireSharedNew r c p s =
    if victims s r c [.exclusive] = [] then (takeLevel .shared r c p s, .granted (some .shared) 0)
    else if moreUrgent s r p.cls (victims s r c [.exclusive]) then
      if roomFor s (victims s r c [.exclusive]).length then
        (waitFor .shared r c p (revokeAll .request r (victims s r c [.exclusive]) s), .queued .shared)
      else (s, .busy)
    else (s, .denied .contended) := by
  simp only [acquireSharedNew, hfrozen, pendingOther_false_iff.mpr hpending, exclusiveOthers_eq]
  rfl

theorem acquireSharedNew_urgent (p : Params) {c' : Nat} (h3 : c' < 3) (hc : c' ≠ c)
    (hx : (s.holder r c').state = .exclusive) (hcls : (s.holder r c').cls ≤ p.cls) :
    acquireSharedNew r c p s = (s, .denied .contended) := by
  have hmem : c' ∈ victims s r c [.exclusive] := mem_victims.mpr ⟨⟨h3, hc⟩, by simp [hx]⟩
  rw [acquireSharedNew_open hfrozen hpending, if_neg (List.ne_nil_of_mem hmem),
    if_neg fun h => absurd (moreUrgent_iff.mp h c' hmem) (Nat.not_lt.mpr hcls)]

theorem acquireSharedNew_busy (p : Params) (hv : victims s r c [.exclusive] ≠ [])
    (hcls : ∀ c' ∈ victims s r c [.exclusive], p.cls < (s.holder r c').cls)
    (hroom : (freeList s).length < (victims s r c [.exclusive]).length ∨ 8 ≤ s.din.prf.length) :
    acquireSharedNew r c p s = (s, .busy) := by
  rw [acquireSharedNew_open hfrozen hpending, if_neg hv, if_pos (moreUrgent_iff.mpr hcls), roomFor_false hroom]
  rfl

theorem acquireSharedNew_atOnce (p : Params) (h : ¬OtherIn s r c [.exclusive]) :
    acquireSharedNew r c p s = (takeLevel .shared r c p s, .granted (some .shared) 0) := by
  rw [acquireSharedNew_open hfrozen hpending, if_pos (victims_eq_nil.mpr h)]

end Open

theorem decideAcquire_shared (p : Params) (h : (s.holder r c).state = .none) :
    decideAcquire .shared r c p s = acquireSharedNew r c p s := by simp only [decideAcquire, h]

theorem decideAcquire_exclusive (p : Params) (h : (s.holder r c).state = .none) :
    decideAcquire .exclusive r c p s = acquireExclusiveNew r c p s := by simp only [decideAcquire, h]

/-- An item of ACQUIRE_SHARED of a holder in NONE is answered as R67 decides it. -/
theorem exec_acquireShared_none {d : DemandCtx} {it : DemandItem} {x : Decision} (h : ItemPasses d it c s)
    (hnone : ((itemTaken d s).holder it.resource c).state = .none)
    (hx : acquireSharedNew it.resource c (clampItem it) (itemTaken d s) = x) :
    exec (.acquireShared d it) s = .next (answered d it x) := by
  refine (exec_item (op := .acquire .shared) h (by simp)).trans ?_
  rw [decideItem, decideAcquire_shared _ hnone, hx]

/-- Settles O14, by the tests of R67 in their order. -/
theorem acquireSharedFromNone : Obligations.AcquireSharedFromNone := by
  intro d it c e s hitem
  obtain ⟨hpass, hentry⟩ := hitem
  obtain ⟨hr, hc⟩ := hpass.bounds
  intro s0 r hnone
  refine ⟨fun hf => ?_, fun hf => ⟨fun hp => ?_, fun hp => ⟨fun c' h3 hne hx hcls => ?_, fun hv hcls hroom => ?_,
    fun hx => ?_⟩⟩⟩ <;> refine exec_acquireShared_none hpass hnone ?_
  · exact acquireSharedNew_frozen _ hf
  · exact acquireSharedNew_pending _ hf hp
  · exact acquireSharedNew_urgent hf hp _ h3 hne hx hcls
  · exact acquireSharedNew_busy hf hp _ hv hcls hroom
  · rw [acquireSharedNew_atOnce hf hp _ hx]
    exact congrArg (·, _) (takeLevel_eq .shared hr hc hnone hentry)

/-! ## Acquisitions that complete at once (R75) -/

theorem otherIn_append {l l' : List HolderState} : OtherIn s r c (l ++ l') ↔ OtherIn s r c l ∨ OtherIn s r c l' := by
  simp only [OtherIn, List.mem_append]
  grind

theorem standingOthers_eq_nil : standingOthers s r c = [] ↔ ¬OtherIn s r c [.shared, .exclusive] := by
  rw [List.eq_nil_iff_forall_not_mem]
  simp only [mem_standingOthers, OtherIn, List.mem_cons, List.not_mem_nil, or_false, not_exists, not_and]
  exact ⟨fun h c' h3 hc hs => h c' ⟨h3, hc⟩ hs, fun h c' hb hs => h c' hb.1 hb.2 hs⟩

/-- From NONE the SHARED level completes at once beside no WAITING, UPGRADING or EXCLUSIVE holder. -/
theorem completesAtOnce_shared (h : (s.holder r c).state = .none) : completesAtOnce .shared r c s = true ↔
    s.isFrozen r = false ∧ ¬OtherIn s r c [.waiting, .upgrading, .exclusive] := by
  have hsplit : OtherIn s r c [.waiting, .upgrading, .exclusive] ↔ _ :=
    otherIn_append (l := [.waiting, .upgrading]) (l' := [.exclusive])
  have hexclusive : someOther s r c (·.state == .exclusive) = true ↔ OtherIn s r c [.exclusive] :=
    someOther_iff s r c _ _ fun x => by simp
  simp only [completesAtOnce, h, Bool.and_eq_true, Bool.not_eq_true', ← Bool.not_eq_true, pendingOther_iff, hexclusive,
    hsplit, not_or, and_assoc]

/-- From NONE the EXCLUSIVE level completes at once beside no other holder but NONE and YIELDING, and no record. -/
theorem completesAtOnce_exclusive (h : (s.holder r c).state = .none) : completesAtOnce .exclusive r c s = true ↔
    s.isFrozen r = false ∧ ¬OtherIn s r c [.waiting, .upgrading, .shared, .exclusive] ∧ ¬RecordNames s r := by
  have hsplit : OtherIn s r c [.waiting, .upgrading, .shared, .exclusive] ↔ _ :=
    otherIn_append (l := [.waiting, .upgrading]) (l' := [.shared, .exclusive])
  simp only [completesAtOnce, h, Bool.and_eq_true, Bool.not_eq_true', pendingOther_false_iff, List.isEmpty_iff,
    standingOthers_eq_nil, ← recordNames_iff, hsplit, not_or, and_assoc, Bool.not_eq_true]

/-- A level held completes at once, and the other level of a standing does not. -/
theorem completesAtOnce_held {level : Level} (h : (s.holder r c).state = .shared ∨ (s.holder r c).state = .exclusive) :
    completesAtOnce level r c s = true ↔ (s.holder r c).state.level = some level := by
  rcases h with h | h <;> cases level <;> simp [completesAtOnce, h, HolderState.level]

theorem completesAtOnce_apart {level : Level} (h : (s.holder r c).state ∈ [.waiting, .upgrading, .yielding]) :
    completesAtOnce level r c s = false := by
  simp only [List.mem_cons, List.not_mem_nil, or_false] at h
  rcases h with h | h | h <;> simp [completesAtOnce, h]

theorem completesAtOnce_frozen {level : Level} (h : (s.holder r c).state = .none) (hf : s.isFrozen r = true) :
    completesAtOnce level r c s = false := by
  cases level <;> simp [completesAtOnce, h, hf]

/-! ## COMMIT_IF (R60, R75) -/

/-- The state in which the reservation of a client is consumed. -/
def unreserved (c : Nat) (s : State) : State := s.setClient c { s.client c with reservation := none }

theorem unreserved_entry {e : ClientEntry} (hc : c < 3) (he : (s.client c).entry = some e) :
    ((unreserved c s).client c).entry = some e := by
  rw [unreserved, client_setClient, if_pos ⟨rfl, hc⟩]
  exact he

section Commit

variable {d : DemandCtx} {it : DemandItem} {level : Level} {g : Nat} {s0 : State} {r : Nat}
  (hpass : ItemPasses d it c s) (h0 : s0 = itemTaken d s) (hr : r = it.resource)
include hpass h0 hr

/-- A reservation that does not agree, or an acquisition that would not complete at once, fails the commit. -/
theorem exec_commitIf_failed (h : ¬((s0.client c).reservation = some (r, g) ∧ g = s0.generation r ∧
    completesAtOnce level r c s0 = true)) :
    exec (.commitIf d it level g) s = .next (answered d it (unreserved c s0, .commitFailed)) := by
  subst h0 hr
  refine (exec_item (op := .commitIf level g) hpass (by simp)).trans ?_
  rw [decideItem, decideCommitIf]
  dsimp only
  rw [if_neg]
  · rfl
  · simpa [and_assoc] using h

/-- A reservation that agrees, with an acquisition that completes at once. -/
theorem exec_commitIf_taken (hreserved : (s0.client c).reservation = some (r, g)) (hg : g = s0.generation r)
    (h : completesAtOnce level r c s0 = true) : exec (.commitIf d it level g) s =
      .next (answered d it (decideAcquire level r c (clampItem it) (unreserved c s0))) := by
  subst h0 hr
  refine (exec_item (op := .commitIf level g) hpass (by simp)).trans ?_
  rw [decideItem, decideCommitIf]
  dsimp only
  rw [if_pos]
  · rfl
  · simp [hreserved, ← hg, h]

end Commit

/-- EXCLUSIVE from NONE at once (R68). -/
theorem acquireExclusiveNew_atOnce (p : Params) (hf : s.isFrozen r = false)
    (h : ¬OtherIn s r c [.waiting, .upgrading, .shared, .exclusive]) (hrec : ¬RecordNames s r) :
    acquireExclusiveNew r c p s = (takeLevel .exclusive r c p s, .granted (some .exclusive) 0) := by
  have hsplit := (otherIn_append (s := s) (r := r) (c := c) (l := [.waiting, .upgrading])
    (l' := [.shared, .exclusive])).not.mp h
  rw [not_or] at hsplit
  obtain ⟨hpending, hstanding⟩ := hsplit
  have hnames : recordNames s r = false := Bool.eq_false_iff.mpr fun x => hrec ((recordNames_iff s r).mp x)
  simp [acquireExclusiveNew, hf, pendingOther_false_iff.mpr hpending, standingOthers_eq_nil.mpr hstanding, hnames]

/-- A renewal of a level held. -/
theorem decideAcquire_held {level : Level} {it : DemandItem} {e : ClientEntry} (hr : r < 12) (hc : c < 3)
    (he : (s.client c).entry = some e) (h : (s.holder r c).state = .shared ∨ (s.holder r c).state = .exclusive) :
    decideAcquire level r c (clampItem it) s =
      (markRenewed c (s.setHolder r c ((s.holder r c).renewedBy it e s)),
        .granted (s.holder r c).state.level (s.holder r c).g) := by
  rcases h with h | h <;> simp [decideAcquire, h, renew_eq hr hc he, renewNotice]

/-- Settles O21: RESERVE is its decision, and COMMIT_IF turns on the reservation and on `completesAtOnce`. -/
theorem reserveAndCommitIfDecided : Obligations.ReserveAndCommitIfDecided := by
  intro d it c e s hitem
  obtain ⟨hpass, hentry⟩ := hitem
  obtain ⟨hr, hc⟩ := hpass.bounds
  intro s0 r h consumed
  have hfailed := fun {level g} hx => exec_commitIf_failed (s0 := s0) (r := r) (level := level) (g := g) hpass rfl rfl hx
  have htaken := fun {level g} => exec_commitIf_taken (s0 := s0) (r := r) (level := level) (g := g) hpass rfl rfl
  have hentry' : ((unreserved c s0).client c).entry = some e := unreserved_entry hc hentry
  have hheld : ∀ level g, (s0.client c).reservation = some (r, g) → g = s0.generation r →
      (h.state = .shared ∨ h.state = .exclusive) → h.state.level = some level →
      exec (.commitIf d it level g) s = .next (answered d it
        (markRenewed c (consumed.setHolder r c (h.renewedBy it e s0)), .granted (some level) h.g)) := by
    intro level g hreserved hg hstands hlevel
    rw [htaken hreserved hg ((completesAtOnce_held hstands).mpr hlevel), decideAcquire_held hr hc hentry' hstands,
      ← hlevel]
    rfl
  refine ⟨exec_item (op := .reserve) hpass (by simp), fun level g => ⟨fun hx => hfailed fun hy => ?_,
    fun hreserved hg => ⟨fun hx => ?_, fun hx => hfailed fun hy => ?_, fun hnone hf hlevel hother => ?_,
      fun hnone hf hlevel hother hrec => ?_, fun hnone hx => hfailed fun hy => ?_⟩⟩⟩
  · obtain ⟨hreserved, hg, hcompletes⟩ := hy
    rcases hx with hx | hx | hx | ⟨hnone, hf⟩
    · exact hx hreserved
    · exact hx hg
    · rw [completesAtOnce_apart hx] at hcompletes; cases hcompletes
    · rw [completesAtOnce_frozen hnone hf] at hcompletes; cases hcompletes
  · rcases hx with ⟨hs, rfl⟩ | ⟨hs, rfl⟩
    · exact hheld _ g hreserved hg (.inl hs) (by rw [hs]; rfl)
    · exact hheld _ g hreserved hg (.inr hs) (by rw [hs]; rfl)
  · obtain ⟨-, -, hcompletes⟩ := hy
    rcases hx with ⟨hs, rfl⟩ | ⟨hs, rfl⟩
    · have := (completesAtOnce_held (.inl hs)).mp hcompletes
      rw [hs] at this; cases this
    · have := (completesAtOnce_held (.inr hs)).mp hcompletes
      rw [hs] at this; cases this
  · subst hlevel
    rw [htaken hreserved hg ((completesAtOnce_shared hnone).mpr ⟨hf, hother⟩),
      decideAcquire_shared _ (show ((unreserved c s0).holder r c).state = .none from hnone)]
    have hsplit := (otherIn_append (s := s0) (r := r) (c := c) (l := [.waiting, .upgrading])
      (l' := [.exclusive])).not.mp hother
    rw [not_or] at hsplit
    obtain ⟨hpending, hexclusive⟩ := hsplit
    rw [acquireSharedNew_atOnce (s := unreserved c s0) hf hpending _ hexclusive,
      takeLevel_eq (s := unreserved c s0) .shared hr hc hnone hentry']
    rfl
  · subst hlevel
    rw [htaken hreserved hg ((completesAtOnce_exclusive hnone).mpr ⟨hf, hother, hrec⟩),
      decideAcquire_exclusive _ (show ((unreserved c s0).holder r c).state = .none from hnone),
      acquireExclusiveNew_atOnce (s := unreserved c s0) _ hf hother hrec,
      takeLevel_eq (s := unreserved c s0) .exclusive hr hc hnone hentry']
    rfl
  · obtain ⟨-, -, hcompletes⟩ := hy
    rcases hx with ⟨rfl, hother⟩ | ⟨rfl, hother | hrec⟩
    · exact ((completesAtOnce_shared hnone).mp hcompletes).2 hother
    · exact ((completesAtOnce_exclusive hnone).mp hcompletes).2.1 hother
    · exact ((completesAtOnce_exclusive hnone).mp hcompletes).2.2 hrec

end Sys2Proof.Machine
end


-- ==== Sys2Proof/Proofs/LeaseExpiry.lean ====
section
/-! PROOFS OF OBLIGATIONS. A lease that runs out (R50, R51). -/

namespace Sys2Proof.Machine

variable {s t : State} {r c : Nat}

/-! ## Frames sent in two states alike -/

/-- A NOTICE depends on the client's entry, its station's record and the loop state. -/
theorem noticeTo_congr (hlpu : t.lpu = s.lpu) (hstm : t.stm = s.stm) (hclients : t.din.clients = s.din.clients)
    (c : Nat) (l : List Notice) : noticeTo t c l = noticeTo s c l := by
  have hstation : ∀ a, stationFaulty a t = stationFaulty a s := fun a => stationFaulty_congr (by rw [hstm]) a
  simp only [noticeTo, State.client, hclients, hstation, hlpu]

/-- The ALERT frame of a raise depends on the list, the overflow and the loop state. -/
theorem raiseAlert_sent_congr (halerts : t.alc.alerts = s.alc.alerts) (hover : t.alc.overflow = s.alc.overflow)
    (hlpu : t.lpu = s.lpu) (hsent : t.sent = s.sent) (x : AlertCategory) (i : Nat) :
    (raiseAlert x i t).sent = (raiseAlert x i s).sent := by
  unfold raiseAlert
  rw [halerts, hover]
  split
  · exact hsent
  · simp only [sendAlert, originate, sendOn, hlpu, hsent]

/-! ## What the notes of a lapse send -/

/-- The state in which a lapse has been counted and its client told. -/
def lapseTold (r c : Nat) (kept : Bool) (s : State) : State :=
  { countEvent .leaseLapses s with sent := s.sent ++ noticeTo s c [⟨r, .lapsed kept⟩] }

theorem noteLapse_eq (r c : Nat) (kept : Bool) (s : State) : noteLapse r c kept s =
    if (s.client c).lapseAlert then
      raiseAlert .lease c ((lapseTold r c kept s).setClient c { s.client c with lapseAlert := false })
    else lapseTold r c kept s := by
  rw [noteLapse, notify_sends]
  rfl

/-- The notes of a lapse in a state with the clients, stations, loop, alerts and frames of `s`: the NOTICE, then the
ALERT frame when the mark is set. -/
theorem noteLapse_frames (kept : Bool) (hlpu : t.lpu = s.lpu) (hstm : t.stm = s.stm)
    (hclients : t.din.clients = s.din.clients) (halc : t.alc = s.alc) (hsent : t.sent = s.sent) :
    (let told : State := { s with sent := s.sent ++ noticeTo s c [⟨r, .lapsed kept⟩] }
     (noteLapse r c kept t).sent = (if (s.client c).lapseAlert then raiseAlert .lease c told else told).sent) ∧
    (noteLapse r c kept t).alc.alerts =
      if (s.client c).lapseAlert then raisedList ⟨7, c⟩ s.alc.alerts else s.alc.alerts := by
  have hclient : t.client c = s.client c := by rw [State.client, hclients]; rfl
  have hframes : (lapseTold r c kept t).sent = s.sent ++ noticeTo s c [⟨r, .lapsed kept⟩] := by
    rw [lapseTold, noticeTo_congr hlpu hstm hclients, hsent]
  have halerts : (lapseTold r c kept t).alc.alerts = s.alc.alerts := show t.alc.alerts = _ by rw [halc]
  have hover : (lapseTold r c kept t).alc.overflow = s.alc.overflow := show t.alc.overflow = _ by rw [halc]
  rw [noteLapse_eq, hclient]
  split
  · refine ⟨?_, ?_⟩
    · exact raiseAlert_sent_congr (s := { s with sent := s.sent ++ noticeTo s c [⟨r, .lapsed kept⟩] })
        (t := (lapseTold r c kept t).setClient c _) halerts hover hlpu hframes _ _
    · rw [raiseAlert_alerts]
      exact congrArg _ halerts
  · exact ⟨hframes, halerts⟩

/-! ## The expiry -/

/-- Whether a lapse keeps its holder (R50). -/
theorem lapse_kept {e : ClientEntry} (he : (s.client c).entry = some e) (hl : (s.holder r c).lapses = true) :
    lapse r c s = if (s.holder r c).state ≠ .waiting ∧ e.policy = .fallback then lapseToFallback r c s
      else lapseToNone r c s := by
  have hpolicy : policyOf s c = e.policy := by simp [policyOf, he]
  rcases lapse_cases r c s with ⟨hn, -⟩ | ⟨-, hgoes, h⟩ | ⟨-, hw, hkept, h⟩
  · rw [hl] at hn; cases hn
  · rw [h, if_neg]
    rintro ⟨hw, hfallback⟩
    rcases hgoes with hgoes | hgoes
    · exact hw hgoes
    · rw [hpolicy, hfallback] at hgoes; cases hgoes
  · rw [h, if_pos ⟨hw, hpolicy ▸ hkept⟩]

/-- What a lapse does beside its holder, whatever the clock: the mark clear, and its NOTICE and ALERT. -/
theorem lapse_notes {e : ClientEntry} {n : Nat} (hc : c < 3) (he : (s.client c).entry = some e)
    (hl : (s.holder r c).lapses = true) (ht : t = lapse r c { s with now := n }) :
    let kept : Bool := decide ((s.holder r c).state ≠ .waiting ∧ e.policy = .fallback)
    let told : State := { s with sent := s.sent ++ noticeTo s c [⟨r, .lapsed kept⟩] }
    (t.client c).lapseAlert = false ∧
      t.sent = (if (s.client c).lapseAlert then raiseAlert .lease c told else told).sent ∧
      t.alc.alerts = if (s.client c).lapseAlert then raisedList ⟨7, c⟩ s.alc.alerts else s.alc.alerts := by
  have hmark : ∀ kept t, ((noteLapse r c kept t).client c).lapseAlert = false := fun kept t => by
    rw [noteLapse_client, if_pos ⟨rfl, hc⟩]
  have hlapse := ht.trans (lapse_kept (s := { s with now := n }) he hl)
  by_cases h : (s.holder r c).state ≠ .waiting ∧ e.policy = .fallback
  · rw [hlapse.trans (if_pos h), decide_eq_true h]
    exact ⟨hmark _ _, noteLapse_frames true rfl rfl rfl rfl rfl⟩
  · have hmoved := noteLapse_frames (t := moveHolder r c .none (removePrf r c { s with now := n })) (s := s) (r := r)
      (c := c) false (by simp) (by simp) (by simp) (by simp) (by simp)
    rw [hlapse.trans (if_neg h), decide_eq_false h]
    exact ⟨hmark _ _, hmoved⟩

theorem lapse_none {e : ClientEntry} (hr : r < 12) (hc : c < 3) (he : (s.client c).entry = some e)
    (hl : (s.holder r c).lapses = true) (hgoes : (s.holder r c).state = .waiting ∨ e.policy = .release) :
    (lapse r c s).holder r c = {} ∧ (lapse r c s).generation r = (s.generation r + 1) % 256 ∧
      (lapse r c s).din.prf = s.din.prf.filter fun x => !(x.client == c && x.resource == r) := by
  have hstands : (s.holder r c).state ≠ .none := fun h => by
    simp [Holder.lapses, h] at hl
  have hlapse : lapse r c s = lapseToNone r c s := by
    rw [lapse_kept he hl, if_neg]
    rintro ⟨hw, hfallback⟩
    rcases hgoes with hgoes | hgoes
    · exact hw hgoes
    · rw [hfallback] at hgoes; cases hgoes
  rw [hlapse]
  refine ⟨?_, ?_, ?_⟩
  · rw [(lapseToNone_spec hr hc s).1, if_neg hstands]
  · have hgeneration : (lapseToNone r c s).generation r = (moveHolder r c .none (removePrf r c s)).generation r := by
      simp [lapseToNone, State.generation]
    rw [hgeneration, moveHolder_generation, if_pos ⟨rfl, hr, hstands⟩]
    rfl
  · simp [lapseToNone]

theorem lapse_fallback {e : ClientEntry} (hr : r < 12) (hc : c < 3) (he : (s.client c).entry = some e)
    (hl : (s.holder r c).lapses = true) (hw : (s.holder r c).state ≠ .waiting) (hfallback : e.policy = .fallback) :
    (lapse r c s).holder r c = { s.holder r c with
        q := (s.holder r c).fallback.getD 0, f := 0, lapsed := true, lease := .stopped } ∧
      (lapse r c s).generation r = s.generation r ∧ (lapse r c s).din.prf = s.din.prf := by
  rw [lapse_kept he hl, if_pos ⟨hw, hfallback⟩]
  exact ⟨(lapseToFallback_spec hr hc s).1, by simp [lapseToFallback, State.generation], by simp [lapseToFallback]⟩

/-- Settles O39: the clock moves to the deadline and the lease lapses, by `lapse_kept` to NONE or to the fallback. -/
theorem leaseExpiryLapses : Obligations.LeaseExpiryLapses := by
  intro r c d e s hr hc he h
  refine ⟨fun hstopped => ?_, fun hrunning hlapsed hstate => ?_⟩
  · rw [exec, execLeaseExpiry, expire_none s hstopped]
  · have hl : h.lapses = true := by simp [Holder.lapses, hlapsed, hstate]
    obtain ⟨hmark, hsent, halerts⟩ := lapse_notes (n := max s.now d) hc he hl rfl
    obtain ⟨hnow, -, -, -, -, hcau, -, -, hrecords, hprobes, -⟩ := lapse_keeps { s with now := max s.now d } r c
    refine ⟨lapse r c { s with now := max s.now d }, ?_, hnow,
      lapse_none (s := { s with now := max s.now d }) hr hc he hl,
      lapse_fallback (s := { s with now := max s.now d }) hr hc he hl,
      fun r' c' hne => lapse_holder_other hne _, ?_, hrecords, hprobes, hcau, hmark, hsent, halerts⟩
    · rw [exec, execLeaseExpiry, expire_running s hrunning]
    · rw [lapse_count]
      exact if_pos hl

end Sys2Proof.Machine
end


-- ==== Sys2Proof/Proofs/RecordFreed.lean ====
section
/-! SUPPORT. The freeing of a revocation record followed through its holder and the PRF entry of its resource (R57, R80). -/

namespace Sys2Proof.Machine

variable {s t : State} {r c : Nat}

/-! ## Moves and the pass (R96) -/

/-- A holder that leaves its standing takes its latched claim with it. -/
theorem moveHolder_departs {st : HolderState} (hmoves : (s.holder r c).state ≠ st) (hst : st.leaves = true) :
    (moveHolder r c st s).ale.pass = (markDeparted r c s).ale.pass := by
  simp only [moveHolder, hmoves, hst, if_true, if_false]
  unfold markDeparted
  simp only [bumpGeneration, State.setHolder]
  split <;> rfl

/-- A move into a standing leaves the pass. -/
theorem moveHolder_pass {st : HolderState} (hst : st.leaves = false) (s : State) :
    (moveHolder r c st s).ale = s.ale := by
  unfold moveHolder
  dsimp only
  split
  · rfl
  · simp [hst]

theorem markDeparted_none (h : s.ale.pass = none) : (markDeparted r c s).ale.pass = none := by simp [markDeparted, h]

theorem markDeparted_departed {l : Table 12 LatchedRecord} (h : (markDeparted r c s).ale.pass = some l) {x : Claim}
    (hx : (l.get r).claim c = some x) : x.departed = true := by
  obtain ⟨l0, -, hclaim⟩ := markDeparted_pass s h
  rw [hclaim, if_pos ⟨rfl, rfl⟩] at hx
  cases h0 : (l0.get r).claim c with
  | none => rw [h0] at hx; cases hx
  | some y => rw [h0] at hx; cases hx; rfl

/-! ## PRF completion (R57) -/

/-- Nothing completes while a record names the resource, or without an entry. -/
theorem completePrf_quiet (h : RecordNames s r ∨ ∀ e ∈ s.din.prf, e.resource ≠ r) : completePrf r s = s := by
  unfold completePrf
  split
  · rfl
  · next hn =>
    have hentry : ∀ e ∈ s.din.prf, e.resource ≠ r := h.resolve_left fun hx => hn ((recordNames_iff s r).mpr hx)
    have hfind : s.din.prf.find? (fun e => e.resource == r) = none :=
      List.find?_eq_none.mpr fun e he => by simpa using hentry e he
    rw [hfind]

/-- A resource has at most one entry (R54). -/
theorem prf_unique {l : List PrfEntry} (hone : l.Pairwise fun a b => a.resource ≠ b.resource) {e y : PrfEntry}
    (he : e ∈ l) (hy : y ∈ l) (h : y.resource = e.resource) : y = e :=
  List.inj_on_of_nodup_map (List.pairwise_map.mpr hone : (l.map PrfEntry.resource).Nodup) hy he h

/-- The entry of a resource completes once no record names it. -/
theorem completePrf_entry {e : PrfEntry} (hn : ¬RecordNames s r)
    (hone : s.din.prf.Pairwise fun a b => a.resource ≠ b.resource) (he : e ∈ s.din.prf) (her : e.resource = r) : completePrf r s =
      removePrf r e.client (notify e.client [⟨r, .granted (completedState (s.holder r e.client) e.target).level 0⟩]
        (moveHolder r e.client (completedState (s.holder r e.client) e.target) s)) := by
  have hn' : recordNames s r = false := Bool.eq_false_iff.mpr fun hx => hn ((recordNames_iff s r).mp hx)
  have hfind : s.din.prf.find? (fun y => y.resource == r) = some e := by
    cases hfound : s.din.prf.find? (fun y => y.resource == r) with
    | none => exact absurd (List.find?_eq_none.mp hfound e he) (by simpa using her)
    | some y =>
      have hyr : y.resource = r := by simpa using List.find?_some hfound
      rw [prf_unique hone he (List.mem_of_find?_eq_some hfound) (hyr.trans her.symm)]
  simp only [completePrf, hn', hfind, Bool.false_eq_true, if_false]

/-- The state a completed entry's holder takes, as statements say it. -/
theorem completedState_eq (h : Holder) (target : Level) : completedState h target =
    match (if h.state = .waiting then target else .exclusive) with
    | .shared => .shared
    | .exclusive => .exclusive := by
  cases h with
  | mk state => cases state <;> cases target <;> rfl

/-- The level a completed entry gives its holder, as statements say it. -/
def completedLevel (h : Holder) (target : Level) : Level := if h.state = .waiting then target else .exclusive

/-- The PRF entry `e` has completed between `s` and `t` (R57). -/
structure PrfCompleted (e : PrfEntry) (s t : State) : Prop where
  holder : t.holder e.resource e.client = { s.holder e.resource e.client with
    state := (match completedLevel (s.holder e.resource e.client) e.target with
      | .shared => .shared
      | .exclusive => .exclusive)
    target := none }
  other : ∀ r c, (r, c) ≠ (e.resource, e.client) → t.holder r c = s.holder r c
  generation : t.generation e.resource = (s.generation e.resource + 1) % 256
  generations : ∀ r, r ≠ e.resource → t.generation r = s.generation r
  prf : t.din.prf = s.din.prf.filter fun y => y.resource != e.resource
  pass : t.ale = s.ale
  sent : t.sent = s.sent ++
    noticeTo s e.client [⟨e.resource, .granted (some (completedLevel (s.holder e.resource e.client) e.target)) 0⟩]

/-- A record that frees the last of its resource completes the entry of the resource. -/
theorem completePrf_completed {e : PrfEntry} (hn : ¬RecordNames s e.resource)
    (hone : s.din.prf.Pairwise fun a b => a.resource ≠ b.resource) (he : e ∈ s.din.prf) (hr : e.resource < 12)
    (hc : e.client < 3) (hpends : (s.holder e.resource e.client).state.pends = true) :
    PrfCompleted e s (completePrf e.resource s) := by
  have hentry := completePrf_entry hn hone he rfl
  have hstands := completedState_standing (s.holder e.resource e.client) e.target
  have heq := completedState_eq (s.holder e.resource e.client) e.target
  generalize completedState (s.holder e.resource e.client) e.target = st at hentry hstands heq
  have hmoves : (s.holder e.resource e.client).state ≠ st := fun h => by
    rw [h] at hpends
    rcases hstands with rfl | rfl <;> cases hpends
  have hleaves : st.leaves = false := by rcases hstands with rfl | rfl <;> rfl
  have hmoved : ∀ r c, (completePrf e.resource s).holder r c = (moveHolder e.resource e.client st s).holder r c :=
    fun r c => by rw [hentry]; simp [State.holder]
  have hgeneration : ∀ r, (completePrf e.resource s).generation r =
      (moveHolder e.resource e.client st s).generation r := fun r => by rw [hentry]; simp [State.generation]
  refine ⟨?_, fun r c hne => ?_, ?_, fun r hne => ?_, ?_, ?_, ?_⟩
  · rw [hmoved, moveHolder_self s st hr hc, if_neg hmoves]
    rw [← completedLevel] at heq
    rw [← heq]
    rcases hstands with rfl | rfl <;> rfl
  · rw [hmoved, moveHolder_other s st hne]
  · rw [hgeneration, moveHolder_generation, if_pos ⟨rfl, hr, hmoves⟩]
  · rw [hgeneration, moveHolder_generation, if_neg fun h => hne h.1.symm]
  · have hprf : (completePrf e.resource s).din.prf =
        s.din.prf.filter fun y => !(y.client == e.client && y.resource == e.resource) := by rw [hentry]; simp
    rw [hprf]
    refine List.filter_congr fun y hy => ?_
    by_cases hy' : y.resource = e.resource
    · rw [prf_unique hone he hy hy']; simp
    · rw [bne, beq_false_of_ne hy', Bool.and_false]
  · rw [← moveHolder_pass (r := e.resource) (c := e.client) hleaves s, hentry]
    simp
  · have hsent : (completePrf e.resource s).sent = (notify e.client [⟨e.resource, .granted st.level 0⟩]
        (moveHolder e.resource e.client st s)).sent := by rw [hentry]; rfl
    have hlevel : st.level = some (completedLevel (s.holder e.resource e.client) e.target) := by
      rw [heq, ← completedLevel]
      cases completedLevel (s.holder e.resource e.client) e.target <;> rfl
    rw [hsent, notify_sends, hlevel, noticeTo_congr (s := s) (by simp) (by simp) (by simp)]
    simp

/-! ## A record that frees (R80) -/

/-- The record `k` gone and its holder moved to NONE: what the freeing of a record does before the PRF. -/
def emptied (k : Nat) (v : Revocation) (s : State) : State :=
  (moveHolder v.resource v.client .none s).setRecord k none

theorem freeRecord_eq {k : Nat} {v : Revocation} (h : s.record k = some v) :
    freeRecord k s = completePrf v.resource (emptied k v s) := by simp only [freeRecord, h, emptied]

section Freed

variable {k : Nat} {v w : Revocation} (hlaw : StandingLaw s) (hv : s.record k = some v) (hr : w.resource = v.resource)
  (hc : w.client = v.client)
include hlaw hv hr hc

/-- The record `k` rewritten with the holder it names, then freed. -/
theorem emptied_facts : let u := emptied k w (s.setRecord k (some w))
    (∀ j, u.record j = if k = j then none else s.record j) ∧ u.holder v.resource v.client = {} ∧
      (∀ r c, (r, c) ≠ (v.resource, v.client) → u.holder r c = s.holder r c) ∧
      u.generation v.resource = (s.generation v.resource + 1) % 256 ∧
      (∀ r, r ≠ v.resource → u.generation r = s.generation r) ∧
      u.ale.pass = (markDeparted v.resource v.client (s.setRecord k (some w))).ale.pass ∧ u.din = s.din ∧
      u.sent = s.sent ∧ u.lpu = s.lpu ∧ u.stm = s.stm := by
  obtain ⟨-, hrecords, -⟩ := hlaw
  obtain ⟨hr12, hc3, hyielding⟩ := hrecords k v hv
  have hk := record_lt s hv
  have hmoves : ((s.setRecord k (some w)).holder v.resource v.client).state ≠ .none := fun h => by
    rw [show ((s.setRecord k (some w)).holder v.resource v.client).state = .yielding from hyielding] at h; cases h
  rw [emptied, hr, hc]
  refine ⟨fun j => ?_, ?_, fun r c hne => ?_, ?_, fun r hne => ?_, ?_, by simp, by simp, by simp, by simp⟩
  · rw [record_setRecord, moveHolder_record, record_setRecord]
    by_cases hj : k = j
    · subst hj; simp [hk]
    · simp [hj]
  · exact (moveHolder_self _ _ hr12 hc3).trans (if_neg hmoves)
  · exact moveHolder_other _ _ hne
  · exact (moveHolder_generation _ _ _ _ _).trans (if_pos ⟨rfl, hr12, hmoves⟩)
  · exact (moveHolder_generation _ _ _ _ _).trans (if_neg fun h => hne h.1.symm)
  · exact moveHolder_departs hmoves rfl

/-- A record other than `k` names the resource of `k`. -/
def NamedBeside (k : Nat) (v : Revocation) (s : State) : Prop :=
  ∃ j w, j ≠ k ∧ s.record j = some w ∧ w.resource = v.resource

theorem emptied_names : RecordNames (emptied k w (s.setRecord k (some w))) v.resource ↔ NamedBeside k v s := by
  obtain ⟨hrecord, -⟩ := emptied_facts hlaw hv hr hc
  simp only [RecordNames, NamedBeside, hrecord]
  constructor
  · rintro ⟨j, x, hx, hxr⟩
    split at hx
    · cases hx
    · next hj => exact ⟨j, x, Ne.symm hj, hx, hxr⟩
  · rintro ⟨j, x, hj, hx, hxr⟩
    exact ⟨j, x, by rw [if_neg (Ne.symm hj)]; exact hx, hxr⟩

/-- The two ways a freeing can go on: nothing of the PRF completes, or the entry of the resource does. -/
theorem freeRecord_goesOn : let u := emptied k w (s.setRecord k (some w))
    let t := freeRecord k (s.setRecord k (some w))
    (t = u ∧ (NamedBeside k v s ∨ ∀ e ∈ s.din.prf, e.resource ≠ v.resource)) ∨
      (¬NamedBeside k v s ∧ ∃ e ∈ s.din.prf, e.resource = v.resource ∧ e.client ≠ v.client ∧ PrfCompleted e u t) := by
  intro u t
  have hk := record_lt s hv
  have hfree : t = completePrf v.resource u := by
    rw [← hr]; exact freeRecord_eq (by rw [record_setRecord, if_pos ⟨rfl, hk⟩])
  obtain ⟨-, -, hother, -, -, -, hdin, -⟩ := emptied_facts hlaw hv hr hc
  have hnames := emptied_names hlaw hv hr hc
  by_cases hbeside : NamedBeside k v s
  · exact .inl ⟨hfree.trans (completePrf_quiet (.inl (hnames.mpr hbeside))), .inl hbeside⟩
  · by_cases hentry : ∃ e ∈ s.din.prf, e.resource = v.resource
    · obtain ⟨e, he, her⟩ := hentry
      obtain ⟨-, hrecords, -, hprf, hone⟩ := hlaw
      obtain ⟨-, -, hyielding⟩ := hrecords k v hv
      obtain ⟨he12, hc3, hpends⟩ := hprf e he
      have hclient : e.client ≠ v.client := fun h => by rw [her, h, hyielding] at hpends; cases hpends
      have hholder : u.holder e.resource e.client = s.holder e.resource e.client :=
        hother _ _ fun h => hclient (Prod.mk.inj h).2
      refine .inr ⟨hbeside, e, he, her, hclient, ?_⟩
      rw [hfree, ← her]
      refine completePrf_completed (fun h => hbeside (hnames.mp (her ▸ h))) ?_ ?_ he12 hc3 ?_
      · rw [hdin]; exact hone
      · rw [hdin]; exact he
      · rw [hholder]; exact hpends
    · have hnone : ∀ e ∈ s.din.prf, e.resource ≠ v.resource := fun e he her => hentry ⟨e, he, her⟩
      exact .inl ⟨hfree.trans (completePrf_quiet (.inr (by rw [hdin]; exact hnone))), .inr hnone⟩

/-- The freeing of a record, as statements say it. -/
theorem freeRecord_recordFreed : RecordFreed k v s (freeRecord k (s.setRecord k (some w))) := by
  have hgoes := freeRecord_goesOn hlaw hv hr hc
  obtain ⟨hrecord, hself, hother, hgeneration, hgenerations, hpass, hdin, hsent, hlpu, hstm⟩ :=
    emptied_facts hlaw hv hr hc
  obtain ⟨hnow, hlpu', hfsu, hstm', hpst, hcau, hclients, hdraft, hfrozen, hprobes, htimer, hperiod, hresults, hchu,
    hssu, halc, hmgu, hpending⟩ := freeRecord_keeps (s.setRecord k (some w)) k
  have hrecord' : ∀ j, j ≠ k → (freeRecord k (s.setRecord k (some w))).record j = s.record j := fun j hj => by
    rw [freeRecord_record, if_neg (Ne.symm hj), record_setRecord, if_neg fun h => hj h.1.symm]
  have hgone : (freeRecord k (s.setRecord k (some w))).record k = none := by rw [freeRecord_record, if_pos rfl]
  generalize emptied k w (s.setRecord k (some w)) = u at *
  generalize freeRecord k (s.setRecord k (some w)) = t at *
  have hale : t.ale = u.ale := by
    rcases hgoes with ⟨rfl, -⟩ | ⟨-, e, -, -, -, h⟩
    · rfl
    · exact h.pass
  refine ⟨hgone, hrecord', ?_, ?_, hfrozen, hprobes, fun h => ?_, fun l h x hx => ?_, ?_, ?_, ?_⟩
  · rcases hgoes with ⟨rfl, -⟩ | ⟨-, e, -, her, hne, h⟩
    · exact hself
    · rw [h.other _ _ fun heq => hne (Prod.mk.inj heq).2.symm]; exact hself
  · intro x hx
    rcases hgoes with ⟨rfl, -⟩ | ⟨-, e, -, her, hne, h⟩
    · exact hgenerations x hx
    · rw [h.generations x (her ▸ hx)]; exact hgenerations x hx
  · rw [hale, hpass]; exact markDeparted_none h
  · rw [hale, hpass] at h; exact markDeparted_departed h hx
  · refine State.ext_fields ⟨hnow, hlpu', hfsu, hstm', hpst, hcau, ?_, rfl, ?_, hchu, hssu, halc, hmgu, rfl, hpending⟩
    · dsimp only; rw [hclients, hdraft]; rfl
    · dsimp only; rw [htimer, hperiod, hresults]; rfl
  · intro hx
    rcases hgoes with ⟨rfl, -⟩ | ⟨hbeside, e, he, her, -, -⟩
    · exact ⟨fun r' c' hne => hother r' c' hne, by rw [hdin], hgeneration, hsent⟩
    · rcases hx with hx | hx
      · exact absurd hx hbeside
      · exact absurd her (hx e he)
  · intro hx y hy hyr
    rcases hgoes with ⟨rfl, hquiet⟩ | ⟨-, e, he, her, hne, h⟩
    · rcases hquiet with hquiet | hquiet
      · exact absurd hquiet hx
      · exact absurd hyr (hquiet y hy)
    · obtain ⟨-, -, -, -, hone⟩ := hlaw
      obtain rfl := prf_unique hone he hy (hyr.trans her.symm)
      obtain ⟨hholder, hothers, hgen, -, hprf, -, hframes⟩ := h
      have hbefore : u.holder v.resource y.client = s.holder v.resource y.client :=
        hother _ _ fun heq => hne (Prod.mk.inj heq).2
      rw [her, hbefore] at hholder
      rw [her] at hothers hgen hprf hframes
      refine ⟨hholder, fun r' c' h1 h2 => (hothers r' c' h2).trans (hother r' c' h1), ?_, ?_, ?_⟩
      · rw [hprf, hdin]
      · rw [hgen, hgeneration, Nat.mod_add_mod]
      · rw [hframes, hsent, hbefore, noticeTo_congr hlpu hstm (by rw [hdin])]
        rfl

end Freed

end Sys2Proof.Machine
end


-- ==== Sys2Proof/Proofs/NoticeMarks.lean ====
section
/-! PROOFS OF OBLIGATIONS. Notice marks that clear: by an acknowledgement (R73, R74) and by the yield timer (R79, R80). -/

namespace Sys2Proof.Machine

variable {s : State} {k : Nat} {v : Revocation}

/-! ## The clearing of a notice mark (R79, R80) -/

theorem noticeClear_unset (hv : s.record k = some v) (hn : v.notice = false) : noticeClear k s = s := by
  simp [noticeClear, hv, hn]

theorem noticeClear_kept (hv : s.record k = some v) (hn : v.notice = true) (hramp : v.ramp ≠ .clear) :
    noticeClear k s = s.setRecord k (some { v with notice := false, timer := .stopped }) := by
  simp [noticeClear, hv, hn, hramp]

theorem noticeClear_frees (hv : s.record k = some v) (hn : v.notice = true) (hramp : v.ramp = .clear) :
    noticeClear k s = freeRecord k (s.setRecord k (some { v with notice := false, timer := .stopped })) := by
  simp only [noticeClear, hv, hn, hramp, if_true]

theorem noticeClear_recordFreed (hlaw : StandingLaw s) (hv : s.record k = some v) (hn : v.notice = true)
    (hramp : v.ramp = .clear) : RecordFreed k v s (noticeClear k s) := by
  rw [noticeClear_frees hv hn hramp]
  exact freeRecord_recordFreed hlaw hv rfl rfl

/-! ## YIELD_DONE and RELEASE of a YIELDING holder (R73, R74) -/

theorem decideYieldDone_notHeld {r c : Nat} (h : (s.holder r c).state ≠ .yielding) :
    decideYieldDone r c s = (s, .denied .notHeld) := by simp [decideYieldDone, h]

/-- Both operations clear the notice mark of the record that names the holder. -/
theorem decideYieldDone_yielding {r c : Nat} (h : (s.holder r c).state = .yielding) (hk : recordOf s r c = some k) :
    decideYieldDone r c s = (noticeClear k s, .granted none 0) := by simp [decideYieldDone, h, hk]

theorem decideRelease_yielding {r c : Nat} (h : (s.holder r c).state = .yielding) :
    decideRelease r c s = decideYieldDone r c s := by simp [decideRelease, h]

/-- The answer of either operation of a YIELDING holder. -/
theorem exec_acknowledge {d : DemandCtx} {it : DemandItem} {c : Nat} {i : Instr} (hpass : ItemPasses d it c s)
    (hi : i ∈ [Instr.yieldDone d it, Instr.release d it])
    (hy : ((itemTaken d s).holder it.resource c).state = .yielding)
    (hk : recordOf (itemTaken d s) it.resource c = some k) :
    exec i s = .next (answered d it (noticeClear k (itemTaken d s), .granted none 0)) := by
  have hdecided := decideYieldDone_yielding hy hk
  simp only [List.mem_cons, List.not_mem_nil, or_false] at hi
  rcases hi with rfl | rfl
  · exact (exec_item (op := .yieldDone) hpass (by simp)).trans (by rw [decideItem, hdecided])
  · exact (exec_item (op := .release) hpass (by simp)).trans
      (by rw [decideItem, decideRelease_yielding hy, hdecided])

/-- Settles O20: the three cases of `noticeClear`. -/
theorem yieldDoneAcknowledges : Obligations.YieldDoneAcknowledges := by
  intro d it c s hpass s0 r
  refine ⟨fun hne => ?_, fun i hi hy k v hk hv => ⟨fun hn => ?_, fun hn hramp => ?_, fun hn hramp hlaw => ?_⟩⟩
  · exact (exec_item (op := .yieldDone) hpass (by simp)).trans (by rw [decideItem, decideYieldDone_notHeld hne])
  · rw [exec_acknowledge hpass hi hy hk, noticeClear_unset hv hn]
  · rw [exec_acknowledge hpass hi hy hk, noticeClear_kept hv hn hramp]
  · exact ⟨_, exec_acknowledge hpass hi hy hk, noticeClear_recordFreed hlaw hv hn hramp⟩

/-! ## YIELD_TIMER_EXPIRY (R79, R80) -/

/-- Settles O40: the clock, the alert, then the clearing of the notice mark. -/
theorem yieldTimerClearsNotice : Obligations.YieldTimerClearsNotice := by
  intro k d v s hv _ _
  refine ⟨fun hstopped => ?_, fun hrunning hn => ?_⟩
  · simp only [exec, execYieldTimerExpiry, hv, expire_none s hstopped]
  · have halarmed := raiseAlert_keeps { s with now := max s.now d } .yieldOverdue v.resource
    have halerts := raiseAlert_alerts { s with now := max s.now d } .yieldOverdue v.resource
    have hexec : exec (.yieldTimerExpiry k) s = .next (testHead (noticeClear k
        (raiseAlert .yieldOverdue v.resource { s with now := max s.now d }))) := by
      simp only [exec, execYieldTimerExpiry, hv, expire_running s hrunning]
    generalize raiseAlert .yieldOverdue v.resource { s with now := max s.now d } = alarmed at *
    obtain ⟨hnow, -, -, -, -, -, hdin, hgtb, -⟩ := halarmed
    have hrecord : ∀ j, alarmed.record j = s.record j := fun j => by rw [State.record, hgtb]; rfl
    have hv' : alarmed.record k = some v := (hrecord k).trans hv
    refine ⟨_, hexec, ?_, ?_, fun j hj => ?_, fun hramp => ?_, fun hramp hlaw => ?_⟩
    · simpa using hnow
    · simpa [AlertCategory.number] using halerts
    · rw [noticeClear_record, if_neg (Ne.symm hj), hrecord]
    · exact noticeClear_kept hv' hn hramp
    · exact noticeClear_recordFreed (hlaw.of_eq (by rw [hgtb]) (by rw [hgtb]) (by rw [hdin])) hv' hn hramp

end Sys2Proof.Machine
end


-- ==== Sys2Proof/Proofs/SlotProgress.lean ====
section
/-! SUPPORT. What the reports of channels can do to the sequence slots: a slot in a step moves on, and no other slot
changes (R135, R148, R152). -/

namespace Sys2Proof.Machine

variable {s t : State}

/-! ## Progress of one slot -/

/-- A slot in a step has moved on, in the direction it was going (R148, R152). -/
def SlotState.movesTo : SlotState → SlotState → Prop
  | .starting i, .starting j => i < j
  | .starting _, .running => True
  | .stopping i, .stopping j => j < i
  | .stopping _, .stopped => True
  | _, _ => False

theorem SlotState.movesTo_ne {a b : SlotState} (h : a.movesTo b) : b ≠ a := by
  rintro rfl
  cases b <;> simp [SlotState.movesTo] at h

theorem SlotState.movesTo_trans {a b c : SlotState} (h : a.movesTo b) (h' : b.movesTo c) : a.movesTo c := by
  cases a <;> cases b <;> cases c <;> simp [SlotState.movesTo] at * <;> omega

/-- A slot stands as it was, or has moved on with its steps and its stop delay. -/
def SlotProgress (a b : Slot) : Prop :=
  b.steps = a.steps ∧ b.stopDelayTimer = a.stopDelayTimer ∧ (b = a ∨ a.state.movesTo b.state)

theorem SlotProgress.refl (a : Slot) : SlotProgress a a := ⟨rfl, rfl, .inl rfl⟩

theorem SlotProgress.trans {a b c : Slot} (h : SlotProgress a b) (h' : SlotProgress b c) : SlotProgress a c := by
  obtain ⟨hsteps, htimer, hab⟩ := h
  obtain ⟨hsteps', htimer', hbc⟩ := h'
  refine ⟨hsteps'.trans hsteps, htimer'.trans htimer, ?_⟩
  rcases hab with rfl | hab
  · exact hbc
  · rcases hbc with rfl | hbc
    · exact .inr hab
    · exact .inr (SlotState.movesTo_trans hab hbc)

/-- The slots of `t` have come from those of `s` by such moves. -/
def SlotsProgress (s t : State) : Prop :=
  ∀ k a, s.slot k = some a → ∃ b, t.slot k = some b ∧ SlotProgress a b

theorem SlotsProgress.refl (s : State) : SlotsProgress s s := fun _ a h => ⟨a, h, .refl a⟩

theorem SlotsProgress.same {u : State} (h : SlotsProgress s t) (hu : u.ssu = t.ssu) : SlotsProgress s u := by
  intro k a ha
  obtain ⟨b, hb, hab⟩ := h k a ha
  exact ⟨b, by rw [State.slot, hu]; exact hb, hab⟩

theorem SlotsProgress.setSlot {k : Nat} {b c : Slot} (h : SlotsProgress s t) (hb : t.slot k = some b)
    (hbc : SlotProgress b c) : SlotsProgress s (t.setSlot k (some c)) := by
  intro j a ha
  obtain ⟨b', hb', hab⟩ := h j a ha
  rw [slot_setSlot]
  split
  · next hj =>
    obtain ⟨rfl, -⟩ := hj
    obtain rfl := Option.some.inj (hb.symm.trans hb')
    exact ⟨c, rfl, hab.trans hbc⟩
  · exact ⟨b', hb', hab⟩

/-! ## The operations of a report -/

theorem SlotsProgress.enterStep {advance : Nat → State → State}
    (hadvance : ∀ k t, SlotsProgress s t → SlotsProgress s (advance k t)) (h : SlotsProgress s t) {k : Nat} {b : Slot}
    (hb : t.slot k = some b) {st : SlotState} (hst : b.state.movesTo st) : SlotsProgress s (enterStep advance k st t) := by
  have hentered : ∀ x, SlotsProgress s (t.setSlot k (some { b with state := st, watch := x })) := fun x =>
    h.setSlot hb ⟨rfl, rfl, .inr hst⟩
  have htest : ∀ n k t, SlotsProgress s t → SlotsProgress s (if completeOn t k n then advance k t else t) := by
    intro n k t ht
    split
    · exact hadvance k t ht
    · exact ht
  have hminimum : ∀ n x, SlotsProgress s x → SlotsProgress s (refreshMinimum n x) := fun n x hx => hx.same (by simp)
  have hreport : ∀ n x, SlotsProgress s x → SlotsProgress s (reportToGtb n x) := fun n x hx => hx.same (by simp)
  unfold Machine.enterStep
  rw [hb]
  dsimp only
  split
  · exact hentered b.watch
  · next step _ =>
    split
    · exact forEach_induct _ (hreport _ _ (hminimum _ _ (hentered _))) fun k _ t ht => htest _ k t ht
    · exact htest _ _ _ (hminimum _ _ (hentered _))

theorem SlotsProgress.advanceSlot (fuel k : Nat) (h : SlotsProgress s t) : SlotsProgress s (advanceSlot fuel k t) := by
  induction fuel generalizing k t with
  | zero => exact h
  | succ fuel ih =>
    unfold Machine.advanceSlot
    split
    · exact h
    · next b hb =>
      split
      · next i hi =>
        split
        · exact h.setSlot hb ⟨rfl, rfl, .inr (by rw [hi]; trivial)⟩
        · exact h.enterStep (fun k _ ht => ih k ht) hb (by rw [hi]; exact Nat.lt_succ_self i)
      · next i hi =>
        split
        · exact h.setSlot hb ⟨rfl, rfl, .inr (by rw [hi]; trivial)⟩
        · refine h.enterStep (fun k _ ht => ih k ht) hb ?_
          rw [hi]
          show i - 1 < i
          omega
      · exact h

theorem SlotsProgress.reportChanges (b : State) (h : SlotsProgress s t) : SlotsProgress s (reportChanges b t) := by
  unfold Machine.reportChanges
  refine forEach_induct _ (forEach_induct _ h fun n _ x hx => hx.same (by simp)) fun n _ x hx => ?_
  unfold reportToSsu
  refine forEach_induct _ hx fun k _ y hy => ?_
  split
  · exact hy.advanceSlot _ _
  · exact hy

end Sys2Proof.Machine
end


-- ==== Sys2Proof/Proofs/StartRun.lean ====
section
/-! PROOFS OF OBLIGATIONS. A START that passes its tests (R49, R91, R136, R155, R199). -/

namespace Sys2Proof.Machine

variable {s t : State}

/-! ## The tests of START (R199) -/

theorem firstCharged_none (h : ∀ table n, ¬TableBreaks s table n) : firstCharged s = none := by
  rw [firstCharged_eq, List.findSome?_eq_none_iff]
  intro c hc
  have hnone : lowest c.2.1 c.2.2 = none := lowest_eq_none.mpr fun i hi =>
    Bool.eq_false_iff.mpr fun hfails => h c.1 i ((tableCheck_iff s hc hi).mp hfails)
  rw [charge, hnone]
  rfl

/-- A START that passes its tests enters RUN. -/
theorem takeStart_runs
    (hfaulty : s.stm.returnMode ≠ .halt ∨ ∀ i st, s.station i = some st → st.state ≠ .faulty)
    (hpart : s.mgu.part = .halted ∨ (s.mgu.part = .config ∧ ∀ table n, ¬TableBreaks s table n)) :
    takeStart s = .tested (enterRun s) := by
  have hmode : ¬(s.stm.returnMode = .halt ∧ 0 < faultyCount s) := by
    rintro ⟨hhalt, hcount⟩
    obtain ⟨i, st, hst, hf⟩ := (faultyCount_pos s).mp hcount
    exact hfaulty.elim (fun hne => hne hhalt) fun hnone => hnone i st hst hf
  unfold takeStart
  rcases hpart with hpart | ⟨hpart, htables⟩
  · rw [if_neg (by rw [hpart]; simp), if_neg hmode, if_pos hpart]
  · rw [if_neg (by rw [hpart]; simp), if_neg hmode, if_neg (by rw [hpart]; simp), firstCharged_none htables]

/-! ## The channels (R136) -/

/-- The part in RUN with its pass timer started, leases and slots resumed: what the channels of a START act in. -/
def readied (s : State) : State :=
  ssuResume (resumeLeases { s with mgu.part := .run, ale.passTimer := Timer.start s.now s.ale.passPeriod })

theorem enterRun_eq (s : State) : enterRun s = reportChanges (readied s) (chuStart (readied s)) := rfl

/-- What START does to one channel. -/
def startChannel (n : Nat) (s : State) : State :=
  match s.channel n with
  | none => s
  | some ch => if ch.state = .held ∧ !ch.hold then enterActive n s else s

theorem chuStart_eq (s : State) : chuStart s = forEach (List.range 16) startChannel s := rfl

theorem startChannel_now (n : Nat) (s : State) : (startChannel n s).now = s.now := by
  unfold startChannel
  repeat' split
  all_goals simp

theorem startChannel_other {n n' : Nat} (hn : n ≠ n') (s : State) : (startChannel n s).channel n' = s.channel n' := by
  unfold startChannel
  repeat' split
  · rfl
  · obtain ⟨f, hf, hfields⟩ := enterActive_channel s n n'
    rw [hf]
    cases s.channel n' with
    | none => rfl
    | some ch => rw [Option.map_some, (hfields ch).1 hn]
  · rfl

/-- A HELD channel without a supervisor hold starts, any other stands as it was. -/
theorem startChannel_channel {n : Nat} {ch : Channel} (h : s.channel n = some ch) :
    ∃ ch', (startChannel n s).channel n = some ch' ∧
      if ch.state = .held ∧ ch.hold = false then ch'.hold = ch.hold ∧ ch'.state = .active ∧ ch'.current = ch.current ∧
        ch'.rampTimer = .running (s.now + 100 * ch.rampInterval)
      else ch' = ch := by
  unfold startChannel
  simp only [h, Bool.not_eq_true']
  split
  · obtain ⟨f, hf, hfields⟩ := enterActive_channel s n n
    obtain ⟨hstate, hhold, -, hcurrent, -, -, -, -, hramp⟩ := (hfields ch).2 rfl
    exact ⟨f ch, by rw [hf, h]; rfl, hhold, hstate, hcurrent, hramp⟩
  · exact ⟨ch, h, rfl⟩

theorem chuStart_channel {n : Nat} {ch : Channel} (h : s.channel n = some ch) :
    ∃ ch', (chuStart s).channel n = some ch' ∧
      if ch.state = .held ∧ ch.hold = false then ch'.hold = ch.hold ∧ ch'.state = .active ∧ ch'.current = ch.current ∧
        ch'.rampTimer = .running (s.now + 100 * ch.rampInterval)
      else ch' = ch := by
  obtain ⟨t, hnow, hbefore, hafter⟩ := forEach_at (get := State.channel) (P := fun t => t.now = s.now)
    (f := startChannel) List.nodup_range (List.mem_range.mpr (channel_lt s h)) (s := s) rfl
    (fun i _ t ht => (startChannel_now i t).trans ht) fun i _ hi t _ => startChannel_other hi t
  rw [chuStart_eq, hafter, ← hnow]
  exact startChannel_channel (hbefore.trans h)

/-- The channels of a START, whose reports leave what ramps and faults have set. -/
theorem enterRun_channel {n : Nat} {ch : Channel} (h : s.channel n = some ch) :
    ∃ ch', (enterRun s).channel n = some ch' ∧ ch'.hold = ch.hold ∧
      (ch.state = .held → ch.hold = false → ch'.state = .active ∧ ch'.current = ch.current ∧
        ch'.rampTimer = .running (s.now + 100 * ch.rampInterval)) ∧
      (ch.state = .held → ch.hold = true → ch'.state = .held) ∧
      (ch.state = .faulted → ch'.state = .faulted ∧ ch'.cause = ch.cause) := by
  obtain ⟨ch1, hch1, hstarted⟩ := chuStart_channel (s := readied s) h
  have hcores := congrFun (reportChanges_cores (chuStart (readied s)) (readied s)) n
  rw [← enterRun_eq, cores, cores, hch1] at hcores
  cases hch' : (enterRun s).channel n with
  | none => rw [hch'] at hcores; cases hcores
  | some ch' =>
    rw [hch'] at hcores
    obtain ⟨-, -, -, -, -, -, hstate, hhold, hcause, hcurrent, -, -, -, hramp, -⟩ := core_fields (Option.some.inj hcores)
    refine ⟨ch', rfl, ?_⟩
    rw [hstate, hhold, hcause, hcurrent, hramp]
    split at hstarted
    · next hheld =>
      obtain ⟨hhold1, hactive, hcurrent1, hramp1⟩ := hstarted
      exact ⟨hhold1, fun _ _ => ⟨hactive, hcurrent1, hramp1⟩, fun _ hh => absurd hh (by simp [hheld.2]),
        fun hf => absurd hf (by simp [hheld.1])⟩
    · next hheld =>
      subst hstarted
      exact ⟨rfl, fun h1 h2 => absurd ⟨h1, h2⟩ hheld, fun h1 _ => h1, fun h1 => ⟨h1, rfl⟩⟩

/-! ## The leases and the slots (R49, R155) -/

theorem recordsFreed_closed (s : State) : ReportClosed (RecordsFreed s) where
  slot _ _ _ h := ⟨h.law.of_eq rfl rfl rfl, h.holder, h.prf⟩
  minimum _ _ h := ⟨h.law.of_eq (by simp) (by simp) (by simp), fun r c => by simpa [State.holder] using h.holder r c,
    fun e he => h.prf e (by simpa using he)⟩
  gtb _ n h := h.reportToGtb n

theorem readied_holder {r c : Nat} (hr : r < 12) (hc : c < 3) (s : State) :
    (readied s).holder r c = { s.holder r c with lease := (s.holder r c).lease.resume s.now } :=
  mapHolders_holder _ hr hc _

/-- The suspended lease of a holder that waits or stands resumes. -/
theorem enterRun_lease (hlaw : StandingLaw s) {r c : Nat} (hr : r < 12) (hc : c < 3)
    (hy : (s.holder r c).state ≠ .yielding) :
    ((enterRun s).holder r c).lease = (s.holder r c).lease.resume s.now := by
  have hreadied : StandingLaw (chuStart (readied s)) := by
    have hmoved : Unmoved s (chuStart (readied s)) := by
      have hrun : Unmoved s { s with mgu.part := .run, ale.passTimer := Timer.start s.now s.ale.passPeriod } :=
        (Unmoved.refl s).same rfl rfl rfl
      exact Unmoved.chuStart (hrun.resumeLeases.same rfl rfl rfl)
    exact hlaw.of_same hmoved.state hmoved.named hmoved.prf
  have hholder : (chuStart (readied s)).holder r c = (readied s).holder r c := by simp [State.holder]
  have hfreed := ((recordsFreed_closed _).reportChanges (readied s) (.refl hreadied)).holder r c
  rw [← enterRun_eq, hholder, readied_holder hr hc] at hfreed
  rw [hfreed.lease_eq hy]

/-- A slot of a START: its timers resumed, and moved on or as it was. -/
theorem enterRun_slot {k : Nat} {sl : Slot} (h : s.slot k = some sl) :
    ∃ sl', (enterRun s).slot k = some sl' ∧ sl'.stopDelayTimer = sl.stopDelayTimer.resume s.now ∧
      (sl'.state = sl.state → sl'.watch = sl.watch.resume s.now ∧ sl'.antiCycleTimer = sl.antiCycleTimer) := by
  have hreadied : (chuStart (readied s)).slot k = some { sl with
      watch := sl.watch.resume s.now, stopDelayTimer := sl.stopDelayTimer.resume s.now } := by
    have hkept : (chuStart (readied s)).slot k = (readied s).slot k := by simp [State.slot]
    have hmap : (readied s).slot k = (s.slot k).map fun sl => { sl with
        watch := sl.watch.resume s.now, stopDelayTimer := sl.stopDelayTimer.resume s.now } := Table.get_mapOption _ _ k
    rw [hkept, hmap, h]
    rfl
  obtain ⟨sl', hsl', -, htimer, hprogress⟩ := (SlotsProgress.refl _).reportChanges (readied s) k _ hreadied
  refine ⟨sl', hsl', htimer, fun hstate => ?_⟩
  rcases hprogress with rfl | hmoved
  · exact ⟨rfl, rfl⟩
  · exact absurd hstate (SlotState.movesTo_ne hmoved)

/-- What a START leaves, and the pass timer and the part state it sets. -/
theorem enterRun_keeps (s : State) : (enterRun s).mgu = { s.mgu with part := .run } ∧
    (enterRun s).ale.passTimer = .running (s.now + 100 * s.ale.passPeriod) ∧
    (enterRun s).ale.passPeriod = s.ale.passPeriod ∧ (enterRun s).stm = s.stm ∧ (enterRun s).pst = s.pst ∧
    (enterRun s).cau = s.cau ∧ (enterRun s).fsu = s.fsu ∧ (enterRun s).alc.alerts = s.alc.alerts := by
  obtain ⟨-, -, hfsu, hstm, hpst, hcau, -, -, -, -, htimer, hperiod, -, -, halc, hmgu, -⟩ :=
    reportChanges_keeps (chuStart (readied s)) (readied s)
  obtain ⟨-, -, hfsu', hstm', hpst', hcau', -, -, hale, -, -, halerts, -, hmgu', -⟩ := chuStart_keeps (readied s)
  rw [enterRun_eq, hmgu, htimer, hperiod, hstm, hpst, hcau, hfsu, halc, hmgu', hale, hstm', hpst', hcau', hfsu', halerts]
  exact ⟨rfl, rfl, rfl, rfl, rfl, rfl, rfl, rfl⟩

/-- Settles O30: the tests pass, and `enterRun` resumes the timers and starts the channels before their reports. -/
theorem startEntersRun : Obligations.StartEntersRun := by
  intro m s hm s0 hfaulty hpart
  obtain ⟨hmgu, htimer, hperiod, hstm, hpst, hcau, hfsu, halerts⟩ := enterRun_keeps s0
  refine ⟨enterRun s0, ?_, hmgu, htimer, hperiod, fun n ch hch => enterRun_channel hch,
    fun hlaw r hr c hc left hleft hstate => ?_, fun k sl hsl => ?_, hstm, hpst, hcau, hfsu, halerts⟩
  · rw [exec_start hm, takeStart_runs hfaulty hpart, conclude_tested]
  · rw [enterRun_lease hlaw hr hc, hleft]
    · rfl
    · intro hy
      rw [hy] at hstate
      simp at hstate
  · obtain ⟨sl', hsl', hstop, hsame⟩ := enterRun_slot hsl
    refine ⟨sl', hsl', ?_, fun hstate => ⟨?_, (hsame hstate).2⟩⟩
    · rw [hstop]
      cases sl.stopDelayTimer <;> rfl
    · rw [(hsame hstate).1]
      cases sl.watch <;> rfl

end Sys2Proof.Machine
end


-- ==== Sys2Proof/Proofs/PassWrites.lean ====
section
/-! SUPPORT. What a pass completion writes, counts, notices and hands over, stage by stage (R109 to R113). -/

namespace Sys2Proof.Machine

variable {s t : State}

/-! ## The grants written (R109, R110) -/

/-- A holder after the write of a grant, which changes its g alone. -/
def Holder.withGrant (h : Holder) : Option Nat → Holder
  | some g => { h with g := g }
  | none => h

@[simp] theorem Holder.withGrant_state (h : Holder) (g : Option Nat) : (h.withGrant g).state = h.state := by
  cases g <;> rfl

/-- The write of one grant. -/
def writeGrant (l : Table 12 LatchedRecord) (out : PassOutcome) (r c : Nat) (s : State) : State :=
  match writtenGrant l out r c with
  | some g => s.setHolder r c { s.holder r c with g := g }
  | none => s

theorem writeRecord_eq (l : Table 12 LatchedRecord) (out : PassOutcome) (r : Nat) (s : State) :
    writeRecord l out r s = forEach [0, 1, 2] (writeGrant l out r) s := rfl

section Writes

variable (l : Table 12 LatchedRecord) (out : PassOutcome)

theorem writeGrant_same {r c : Nat} (hr : r < 12) (hc : c < 3) (s : State) :
    (writeGrant l out r c s).holder r c = (s.holder r c).withGrant (writtenGrant l out r c) := by
  unfold writeGrant
  split
  · next h => rw [holder_setHolder_same _ _ hr hc, h]; rfl
  · next h => rw [h]; rfl

theorem writeGrant_other {r c r' c' : Nat} (h : (r', c') ≠ (r, c)) (s : State) :
    (writeGrant l out r c s).holder r' c' = s.holder r' c' := by
  unfold writeGrant
  split
  · exact holder_setHolder_ne _ _ h
  · rfl

theorem writeRecord_same {r c : Nat} (hr : r < 12) (hc : c < 3) (s : State) :
    (writeRecord l out r s).holder r c = (s.holder r c).withGrant (writtenGrant l out r c) := by
  have hmem : c ∈ [0, 1, 2] := by simp; omega
  obtain ⟨t, -, hbefore, hafter⟩ := forEach_at (get := fun s c => s.holder r c) (P := fun _ => True)
    (f := writeGrant l out r) (by simp) hmem (s := s) trivial (fun _ _ _ _ => trivial)
    fun i _ hi t _ => writeGrant_other l out (fun h => hi (Prod.mk.inj h).2.symm) t
  rw [writeRecord_eq, hafter, writeGrant_same l out hr hc, hbefore]

theorem writeRecord_other {r r' : Nat} (h : r ≠ r') (c : Nat) (s : State) :
    (writeRecord l out r s).holder r' c = s.holder r' c :=
  forEach_keeps (fun t => t.holder r' c) _ s fun _ _ t =>
    writeGrant_other l out (fun e => h (Prod.mk.inj e).1.symm) t

/-- The grants written, holder by holder. -/
theorem writeRecords_holder {r c : Nat} (hr : r < 12) (hc : c < 3) (s : State) :
    (forEach (List.range 12) (writeRecord l out) s).holder r c =
      (s.holder r c).withGrant (writtenGrant l out r c) := by
  obtain ⟨t, -, hbefore, hafter⟩ := forEach_at (get := fun s r => s.holder r c) (P := fun _ => True)
    (f := writeRecord l out) List.nodup_range (List.mem_range.mpr hr) (s := s) trivial (fun _ _ _ _ => trivial)
    fun i _ hi t _ => writeRecord_other l out hi c t
  rw [hafter, writeRecord_same l out hr hc, hbefore]

end Writes

/-! ## The counts (R113) -/

theorem countPass_count (out : PassOutcome) (s : State) :
    (countPass out s).count .passes = raised (s.count .passes) ∧
      (countPass out s).count .parentCuts =
        (if out.anyCut then raised (s.count .parentCuts) else s.count .parentCuts) ∧
      (countPass out s).count .floorDrops = min 65535 (s.count .floorDrops + out.drops) := by
  unfold countPass
  dsimp only
  split <;> simp [count_countBy]

/-! ## The notices (R112) -/

/-- Notices to several clients, one frame each. -/
theorem forEach_notify (notices : Nat → List Notice) (cs : List Nat) (s : State) :
    forEach cs (fun c x => if notices c = [] then x else notify c (notices c) x) s =
      { s with sent := s.sent ++ cs.flatMap fun c => if notices c = [] then [] else noticeTo s c (notices c) } := by
  induction cs generalizing s with
  | nil => simp
  | cons c cs ih =>
    rw [forEach_cons, ih, List.flatMap_cons]
    by_cases h : notices c = []
    · simp [h]
    · rw [if_neg h, if_neg h, notify_sends]
      have hcongr : ∀ x l, noticeTo { s with sent := s.sent ++ noticeTo s c (notices c) } x l = noticeTo s x l :=
        noticeTo_congr rfl rfl rfl
      simp only [hcongr, List.append_assoc]

/-- The frames of R112, as statements list them. -/
def grantFrames (notices : Nat → List Notice) (s : State) : List TxFrame :=
  [0, 1, 2].filterMap fun c => (s.client c).entry.bind fun e =>
    if notices c = [] ∨ stationFaulty e.station s = true then none
    else some ⟨originRing s.lpu.loop, e.station, .notice 0 true (notices c)⟩

theorem grantFrames_eq (notices : Nat → List Notice) (s : State) :
    grantFrames notices s = [0, 1, 2].flatMap fun c => if notices c = [] then [] else noticeTo s c (notices c) := by
  rw [grantFrames, List.filterMap_eq_flatMap_toList]
  refine List.flatMap_congr fun c _ => ?_
  unfold noticeTo
  cases (s.client c).entry with
  | none => simp
  | some e => by_cases hn : notices c = [] <;> by_cases hf : stationFaulty e.station s = true <;> simp [hn, hf]

theorem sendGrantNotices_sends (b s : State) :
    sendGrantNotices b s = { s with sent := s.sent ++ grantFrames (grantNotices b s) s } := by
  rw [grantFrames_eq]
  exact forEach_notify (grantNotices b s) [0, 1, 2] s

/-- The notices of a client whose holders have been written: one for each grant that differs. -/
theorem grantNotices_written {l : Table 12 LatchedRecord} {out : PassOutcome} {c : Nat}
    (h : ∀ r < 12, t.holder r c = (s.holder r c).withGrant (writtenGrant l out r c)) :
    grantNotices s t c = (List.range 12).filterMap fun r => (writtenGrant l out r c).bind fun g =>
      if g = (s.holder r c).g then none else some ⟨r, .granted (s.holder r c).state.level g⟩ := by
  refine List.filterMap_congr fun r hr => ?_
  rw [h r (List.mem_range.mp hr)]
  cases writtenGrant l out r c with
  | none => simp [Holder.withGrant]
  | some g => by_cases hg : g = (s.holder r c).g <;> simp [Holder.withGrant, hg, eq_comm]

/-! ## The results handed to the CHU (R111, R123) -/

theorem derive_congr (hchu : t.chu = s.chu) (hcau : t.cau = s.cau) (n : Nat) (ch : Channel) :
    ch.derive t n = ch.derive s n := by
  cases t
  cases s
  cases hchu
  cases hcau
  rfl

theorem deriveTarget_chu_congr (hchu : t.chu = s.chu) (hcau : t.cau = s.cau) (n : Nat) :
    (deriveTarget n t).chu = (deriveTarget n s).chu := by
  have hchannel : t.channel n = s.channel n := by rw [State.channel, hchu]; rfl
  simp only [deriveTarget, State.modifyChannel, hchannel, derive_congr hchu hcau]
  split
  · exact hchu
  · simp [State.setChannel, hchu]

theorem chuTakeResults_congr (l : Table 12 LatchedRecord) (out : PassOutcome) (hchu : t.chu = s.chu)
    (hcau : t.cau = s.cau) : (chuTakeResults l out t).chu = (chuTakeResults l out s).chu := by
  have hforEach : ∀ (cs : List Nat) (t s : State), t.chu = s.chu → t.cau = s.cau →
      (forEach cs deriveTarget t).chu = (forEach cs deriveTarget s).chu := by
    intro cs
    induction cs with
    | nil => exact fun _ _ h _ => h
    | cons n cs ih =>
      intro t s hchu hcau
      exact ih _ _ (deriveTarget_chu_congr hchu hcau n) (by simpa using hcau)
  exact hforEach _ _ _ (by simp [newStore, hchu]) hcau

theorem chuTakeResults_store (l : Table 12 LatchedRecord) (out : PassOutcome) (s : State) :
    (chuTakeResults l out s).chu.store = newStore l out s := by
  unfold chuTakeResults
  rw [forEach_keeps (fun t => t.chu.store) _ _ fun n _ t => ?_]
  simp

end Sys2Proof.Machine
end


-- ==== Sys2Proof/Proofs/PassMarks.lean ====
section
/-! SUPPORT. What a pass completion does to ramp marks and PRF entries: the judging of the marks in PASS, then the
reports of the channels that came to rest (R57, R78, R80, R135). -/

namespace Sys2Proof.Machine

variable {s t y : State} {k : Nat} {v w : Revocation}

/-! ## The judging of one mark -/

/-- The judging of one record's mark (R78). -/
def judgeMark (k : Nat) (s : State) : State :=
  match s.record k with
  | some v =>
    if v.ramp = .pass ∧ v.passSeen then
      if channelCondition s v.resource then rampClear k s
      else s.setRecord k (some { v with ramp := .settle })
    else s
  | none => s

theorem judgePassMarks_eq (s : State) : judgePassMarks s = forEach (List.range 8) judgeMark s := rfl

/-- A mark to be cleared or settled: one in SETTLE, or in PASS with a pass start seen. -/
def Revocation.judged (v : Revocation) : Prop := v.ramp = .settle ∨ (v.ramp = .pass ∧ v.passSeen = true)

/-- A property that the clearing and the settling of such marks keep, and the reports to slots and minimums. -/
structure MarkClosed (P : State → Prop) : Prop where
  ramp : ∀ {y k v}, P y → y.record k = some v → v.judged → P (rampClear k y)
  settle : ∀ {y k v}, P y → y.record k = some v → v.ramp = .pass → v.passSeen = true →
    P (y.setRecord k (some { v with ramp := .settle }))
  slot : ∀ {y} k x, P y → P (y.setSlot k x)
  minimum : ∀ {y} n, P y → P (refreshMinimum n y)

namespace MarkClosed

variable {P : State → Prop} (C : MarkClosed P)
include C

theorem judgeMark (h : P y) (k : Nat) : P (judgeMark k y) := by
  unfold Machine.judgeMark
  split
  · next v hv =>
    repeat' split
    · next hj _ => exact C.ramp h hv (.inr hj)
    · next hj _ => exact C.settle h hv hj.1 hj.2
    · exact h
  · exact h

theorem judgePassMarks (h : P y) : P (judgePassMarks y) :=
  forEach_induct _ h fun k _ _ ht => C.judgeMark ht k

theorem reportToGtb (h : P y) (n : Nat) : P (reportToGtb n y) :=
  reportToGtb_induct h (fun _ _ _ ht hv hramp => C.ramp ht hv (.inl hramp)) n

theorem reports : ReportClosed P where
  slot _ k x h := C.slot k x h
  minimum _ n h := C.minimum n h
  gtb _ n h := C.reportToGtb h n

/-- The judging of the marks, and the reports after it. -/
theorem completed (h : P y) (b : State) : P (reportChanges b (Machine.judgePassMarks y)) :=
  C.reports.reportChanges b (C.judgePassMarks h)

/-- What the judging of record `k` brings about in a state where the record stands as at the start, and what follows
keeps. -/
theorem established {Q : State → Prop} (hk : k < 8) (h : Q y)
    (hother : ∀ j ≠ k, ∀ t, Q t → Q (Machine.judgeMark j t)) (hself : ∀ t, Q t → P (Machine.judgeMark k t))
    (b : State) : P (reportChanges b (Machine.judgePassMarks y)) := by
  refine C.reports.reportChanges b ?_
  rw [judgePassMarks_eq]
  exact forEach_establish (List.mem_range.mpr hk) h (fun j _ hj t ht => hother j hj t ht) hself
    fun j _ t ht => C.judgeMark ht j

end MarkClosed

/-! ## The pass stays ended, and frames are only added -/

theorem moveHolder_pass_none (r c : Nat) (st : HolderState) (h : s.ale.pass = none) :
    (moveHolder r c st s).ale.pass = none := by
  unfold moveHolder
  dsimp only
  repeat' split
  · exact h
  · exact markDeparted_none h
  · exact h

theorem completePrf_pass_none (r : Nat) (h : s.ale.pass = none) : (completePrf r s).ale.pass = none := by
  rcases completePrf_cases s r with heq | ⟨e, -, -, heq⟩ <;> rw [heq]
  · exact h
  · simpa using moveHolder_pass_none _ _ _ h

theorem completePrf_sent (r : Nat) (s : State) : s.sent <+: (completePrf r s).sent := by
  rcases completePrf_cases s r with heq | ⟨e, -, -, heq⟩
  · rw [heq]
  · rw [heq, notify_sends]
    simp

/-- The clearing of a ramp mark rewrites its record, and may free it. -/
theorem rampClear_cases (hv : s.record k = some v) :
    (v.notice = true ∧ rampClear k s = s.setRecord k (some { v with ramp := .clear })) ∨
      (v.notice = false ∧ rampClear k s = freeRecord k (s.setRecord k (some { v with ramp := .clear })) ∧
        ∃ r x, freeRecord k (s.setRecord k (some { v with ramp := .clear })) = completePrf r x ∧ x.sent = s.sent ∧
          (s.ale.pass = none → x.ale.pass = none)) := by
  by_cases hn : v.notice = true
  · exact .inl ⟨hn, by simp [rampClear, hv, hn]⟩
  · have hrecord : (s.setRecord k (some { v with ramp := .clear })).record k = some { v with ramp := .clear } := by
      rw [record_setRecord, if_pos ⟨rfl, record_lt s hv⟩]
    exact .inr ⟨by simpa using hn, by simp [rampClear, hv, hn], _, _, freeRecord_eq hrecord, by simp [emptied],
      fun h => moveHolder_pass_none (s := s.setRecord k _) _ _ _ h⟩

theorem passEnded_closed : MarkClosed fun y => y.ale.pass = none where
  ramp h hv _ := by
    rcases rampClear_cases hv with ⟨-, heq⟩ | ⟨-, heq, r, x, hx, -, hpass⟩ <;> rw [heq]
    · exact h
    · rw [hx]; exact completePrf_pass_none r (hpass h)
  settle h _ _ _ := h
  slot _ _ h := h
  minimum _ h := by simpa using h

theorem sentGrows_closed (s : State) : MarkClosed fun y => s.sent <+: y.sent where
  ramp h hv _ := by
    rcases rampClear_cases hv with ⟨-, heq⟩ | ⟨-, heq, r, x, hx, hsent, -⟩ <;> rw [heq]
    · exact h
    · rw [hx]; exact (hsent ▸ h).trans (completePrf_sent r x)
  settle h _ _ _ := h
  slot _ _ h := h
  minimum _ h := by simpa using h

theorem recordsFreed_marks (s : State) : MarkClosed (RecordsFreed s) where
  ramp h _ _ := h.rampClear _
  settle h hv _ _ := h.rewriteRecord hv rfl rfl
  slot _ _ h := (recordsFreed_closed s).slot _ _ _ h
  minimum _ h := (recordsFreed_closed s).minimum _ _ h

/-! ## The record of a judged mark (R78, R80) -/

theorem judgeMark_record_other {j : Nat} (hj : j ≠ k) (y : State) : (judgeMark j y).record k = y.record k := by
  unfold judgeMark
  repeat' split
  · rw [rampClear_record, if_neg hj]
  · rw [record_setRecord, if_neg fun e => hj e.1]
  · rfl
  · rfl

/-- A mark that is not judged stays with its record. -/
theorem unjudged_closed (hw : ¬w.judged) : MarkClosed fun y => y.record k = some w where
  ramp {y j v} h hv hj := by
    rw [rampClear_record, if_neg]
    · exact h
    · rintro rfl
      exact hw (Option.some.inj (h.symm.trans hv) ▸ hj)
  settle {y j v} h hv hp hs := by
    rw [record_setRecord, if_neg]
    · exact h
    · rintro ⟨rfl, -⟩
      exact hw (Option.some.inj (h.symm.trans hv) ▸ .inr ⟨hp, hs⟩)
  slot _ _ h := h
  minimum _ h := by simpa [State.record] using h

/-- The ramp mark of record `k`, once `v`, is CLEAR: with the notice mark set it stays so, otherwise it has freed. -/
def MarkCleared (k : Nat) (v : Revocation) (y : State) : Prop :=
  (v.notice = true ∧ y.record k = some { v with ramp := .clear }) ∨
    (v.notice = false ∧ y.record k = none ∧ y.holder v.resource v.client = {})

/-- The mark is in SETTLE, or CLEAR. -/
def MarkJudged (k : Nat) (v : Revocation) (y : State) : Prop :=
  y.record k = some { v with ramp := .settle } ∨ MarkCleared k v y

/-- Record `k` rewritten with the mark given clears to what `MarkCleared` says. -/
theorem rampClear_markCleared {ramp : RampMark} (hlaw : StandingLaw y)
    (hv : y.record k = some { v with ramp := ramp }) : MarkCleared k v (rampClear k y) := by
  have hk := record_lt y hv
  rcases rampClear_cases hv with ⟨hn, heq⟩ | ⟨hn, heq, -⟩
  · refine .inl ⟨hn, ?_⟩
    rw [heq, record_setRecord, if_pos ⟨rfl, hk⟩]
  · obtain ⟨hgone, -, hholder, -⟩ := freeRecord_recordFreed (w := { v with ramp := .clear }) hlaw hv rfl rfl
    refine .inr ⟨hn, ?_⟩
    rw [heq]
    exact ⟨hgone, hholder⟩

/-- A freed record and its holder stay so through the freeing of others. -/
theorem MarkCleared.kept (h : MarkCleared k v y) (hlaw : RecordsFreed y t)
    (hrecord : ∀ x, y.record k = x → (∀ u, x = some u → u.ramp = .clear) → t.record k = x) :
    MarkCleared k v t := by
  rcases h with ⟨hn, hrec⟩ | ⟨hn, hrec, hholder⟩
  · exact .inl ⟨hn, hrecord _ hrec fun u hu => by cases hu; rfl⟩
  · refine .inr ⟨hn, hrecord _ hrec (fun u hu => by cases hu), ?_⟩
    have hfreed := hlaw.holder v.resource v.client
    rw [hholder] at hfreed
    exact hfreed.eq_of (by simp) rfl

theorem markCleared_closed (k : Nat) (v : Revocation) : MarkClosed fun y => StandingLaw y ∧ MarkCleared k v y where
  ramp {y j x} h hx hj := by
    obtain ⟨hlaw, hcleared⟩ := h
    have hfreed := (RecordsFreed.refl hlaw).rampClear j
    refine ⟨hfreed.law, hcleared.kept hfreed fun z hz hclear => ?_⟩
    rw [rampClear_record, if_neg]
    · exact hz
    · rintro rfl
      have hramp := hclear x (hz.symm.trans hx)
      rcases hj with hs | ⟨hp, -⟩
      · rw [hs] at hramp; cases hramp
      · rw [hp] at hramp; cases hramp
  settle {y j x} h hx hp hs := by
    obtain ⟨hlaw, hcleared⟩ := h
    have hfreed := (RecordsFreed.refl hlaw).rewriteRecord (w := { x with ramp := .settle }) hx rfl rfl
    refine ⟨hfreed.law, hcleared.kept hfreed fun z hz hclear => ?_⟩
    rw [record_setRecord, if_neg]
    · exact hz
    · rintro ⟨rfl, -⟩
      have hramp := hclear x (hz.symm.trans hx)
      rw [hp] at hramp; cases hramp
  slot k x h := h
  minimum n h := by
    obtain ⟨hlaw, hcleared⟩ := h
    have hfreed := (recordsFreed_closed _).minimum _ n (RecordsFreed.refl hlaw)
    exact ⟨hfreed.law, hcleared.kept hfreed fun z hz _ => by simpa [State.record] using hz⟩

theorem markJudged_closed (k : Nat) (v : Revocation) : MarkClosed fun y => StandingLaw y ∧ MarkJudged k v y where
  ramp {y j x} h hx hj := by
    obtain ⟨hlaw, hsettle | hcleared⟩ := h
    · by_cases hk : j = k
      · subst hk
        exact ⟨hlaw.rampClear j, .inr (rampClear_markCleared hlaw hsettle)⟩
      · exact ⟨hlaw.rampClear j, .inl (by rw [rampClear_record, if_neg hk]; exact hsettle)⟩
    · obtain ⟨hlaw', hcleared'⟩ := (markCleared_closed k v).ramp ⟨hlaw, hcleared⟩ hx hj
      exact ⟨hlaw', .inr hcleared'⟩
  settle {y j x} h hx hp hs := by
    obtain ⟨hlaw, hsettle | hcleared⟩ := h
    · refine ⟨hlaw.rewriteRecord hx rfl rfl, .inl ?_⟩
      rw [record_setRecord, if_neg]
      · exact hsettle
      · rintro ⟨rfl, -⟩
        obtain rfl := Option.some.inj (hsettle.symm.trans hx)
        cases hp
    · obtain ⟨hlaw', hcleared'⟩ := (markCleared_closed k v).settle ⟨hlaw, hcleared⟩ hx hp hs
      exact ⟨hlaw', .inr hcleared'⟩
  slot k x h := h
  minimum n h := by
    obtain ⟨hlaw, hsettle | hcleared⟩ := h
    · exact ⟨hlaw.of_eq (by simp) (by simp) (by simp), .inl (by simpa [State.record] using hsettle)⟩
    · obtain ⟨hlaw', hcleared'⟩ := (markCleared_closed k v).minimum n ⟨hlaw, hcleared⟩
      exact ⟨hlaw', .inr hcleared'⟩

end Sys2Proof.Machine
end


-- ==== Sys2Proof/Proofs/PassJudged.lean ====
section
/-! SUPPORT. What becomes of a ramp mark in PASS, and of a PRF entry, from the judging to the end of the reports (R57,
R78, R80). -/

namespace Sys2Proof.Machine

variable {s t y : State} {k : Nat} {v : Revocation}

/-! ## One mark in PASS -/

theorem channelCondition_congr (hchu : t.chu = s.chu) (hcau : t.cau = s.cau) (r : Nat) :
    channelCondition t r = channelCondition s r := by
  simp only [channelCondition, settled, lost, State.resource, State.channel, hchu, hcau]

@[simp] theorem judgeMark_keeps (k : Nat) : OnlyFree s (judgeMark k s) := by
  unfold judgeMark
  repeat' split
  all_goals simp

/-- Record `k` stands as it did in `s`, with the channels by which its mark is judged. -/
structure MarkStands (k : Nat) (v : Revocation) (s y : State) : Prop where
  law : StandingLaw y
  record : y.record k = some v
  chu : y.chu = s.chu
  cau : y.cau = s.cau
  ssu : y.ssu = s.ssu

theorem MarkStands.judgeMark_other {j : Nat} (h : MarkStands k v s y) (hj : j ≠ k) :
    MarkStands k v s (judgeMark j y) := by
  obtain ⟨hlaw, hrecord, hchu, hcau, hssu⟩ := h
  exact ⟨((recordsFreed_marks y).judgeMark (.refl hlaw) j).law, (judgeMark_record_other hj y).trans hrecord,
    by simpa using hchu, by simpa using hcau, by simpa using hssu⟩

theorem MarkStands.condition (h : MarkStands k v s y) (r : Nat) : channelCondition y r = channelCondition s r :=
  channelCondition_congr h.chu h.cau r

section Judged

variable (hlaw : StandingLaw s) (hv : s.record k = some v) (hramp : v.ramp = .pass) (b : State)
include hv hramp

theorem completed_unseen (hseen : v.passSeen = false) :
    (reportChanges b (judgePassMarks s)).record k = some v := by
  refine (unjudged_closed (w := v) ?_).completed hv b
  rintro (hs | ⟨-, hp⟩)
  · rw [hramp] at hs; cases hs
  · rw [hseen] at hp; cases hp

include hlaw

theorem completed_atRest (hseen : v.passSeen = true) (hrest : channelCondition s v.resource = true) :
    MarkCleared k v (reportChanges b (judgePassMarks s)) := by
  refine ((markCleared_closed k v).established (Q := MarkStands k v s) (record_lt s hv) ⟨hlaw, hv, rfl, rfl, rfl⟩
    (fun j hj y hy => hy.judgeMark_other hj) (fun y hy => ?_) b).2
  have hjudge : judgeMark k y = rampClear k y := by
    simp [judgeMark, hy.record, hramp, hseen, hy.condition, hrest]
  rw [hjudge]
  exact ⟨hy.law.rampClear k, rampClear_markCleared (ramp := v.ramp) hy.law hy.record⟩

omit hlaw hv in
theorem judgeMark_settles (hseen : v.passSeen = true) (hrest : channelCondition s v.resource = false)
    (hy : MarkStands k v s y) : judgeMark k y = y.setRecord k (some { v with ramp := .settle }) := by
  simp [judgeMark, hy.record, hramp, hseen, hy.condition, hrest]

theorem completed_notAtRest (hseen : v.passSeen = true) (hrest : channelCondition s v.resource = false) :
    MarkJudged k v (reportChanges b (judgePassMarks s)) := by
  refine ((markJudged_closed k v).established (Q := MarkStands k v s) (record_lt s hv) ⟨hlaw, hv, rfl, rfl, rfl⟩
    (fun j hj y hy => hy.judgeMark_other hj) (fun y hy => ?_) b).2
  rw [judgeMark_settles hramp hseen hrest hy]
  refine ⟨hy.law.rewriteRecord hy.record rfl rfl, .inl ?_⟩
  rw [record_setRecord, if_pos ⟨rfl, record_lt s hv⟩]

end Judged

/-! ## Without a slot in a step the channels stay (R148, R152) -/

theorem reportToSsu_noStep (h : ∀ j, InNoStep (s.slot j)) (n : Nat) : reportToSsu n s = s := by
  have hidle : ∀ j, completeOn s j n = false := fun j => completeOn_inNoStep (h j) n
  simp [reportToSsu, hidle]

/-- Without a slot in a step the reports are those to the GTB. -/
theorem reportChanges_noStep {P : State → Prop} (hstep : ∀ t, P t → ∀ j, InNoStep (t.slot j)) (hs : P s)
    (h : ∀ n t, P t → P (reportToGtb n t)) (b : State) : P (reportChanges b s) := by
  unfold reportChanges
  refine forEach_induct _ (forEach_induct _ hs fun n _ t => h n t) fun n _ t ht => ?_
  rw [reportToSsu_noStep (hstep t ht)]
  exact ht

/-- Record `k` stands in SETTLE, its channels as they were in `s`. -/
structure SettleStands (k : Nat) (v : Revocation) (s y : State) : Prop where
  record : y.record k = some { v with ramp := .settle }
  chu : y.chu = s.chu
  cau : y.cau = s.cau
  ssu : y.ssu = s.ssu

theorem SettleStands.judgeMark (h : SettleStands k v s y) (j : Nat) : SettleStands k v s (judgeMark j y) := by
  obtain ⟨hrecord, hchu, hcau, hssu⟩ := h
  refine ⟨?_, by simpa using hchu, by simpa using hcau, by simpa using hssu⟩
  by_cases hj : j = k
  · subst hj
    simp [Machine.judgeMark, hrecord]
  · exact (judgeMark_record_other hj y).trans hrecord

theorem SettleStands.reportToGtb (hrest : channelCondition s v.resource = false) (h : SettleStands k v s y) (n : Nat) :
    SettleStands k v s (reportToGtb n y) := by
  unfold Machine.reportToGtb
  refine forEach_induct _ h fun j _ x hx => ?_
  obtain ⟨hrecord, hchu, hcau, hssu⟩ := hx
  split
  · next w hw =>
    split
    · next hclears =>
      refine ⟨?_, by simpa using hchu, by simpa using hcau, by simpa using hssu⟩
      rw [rampClear_record, if_neg]
      · exact hrecord
      · rintro rfl
        obtain rfl := Option.some.inj (hrecord.symm.trans hw)
        have hcondition : channelCondition x v.resource = true := hclears.2.2
        rw [channelCondition_congr hchu hcau, hrest] at hcondition
        cases hcondition
    · exact ⟨hrecord, hchu, hcau, hssu⟩
  · exact ⟨hrecord, hchu, hcau, hssu⟩

/-- Where no slot is in a step a mark that settles stays in SETTLE. -/
theorem completed_noStep (hlaw : StandingLaw s) (hv : s.record k = some v) (hramp : v.ramp = .pass)
    (hseen : v.passSeen = true) (hrest : channelCondition s v.resource = false) (hstep : ∀ j, InNoStep (s.slot j))
    (b : State) : (reportChanges b (judgePassMarks s)).record k = some { v with ramp := .settle } := by
  have hstands : SettleStands k v s (judgePassMarks s) := by
    rw [judgePassMarks_eq]
    refine forEach_establish (List.mem_range.mpr (record_lt s hv)) (P := MarkStands k v s) ⟨hlaw, hv, rfl, rfl, rfl⟩
      (fun j _ hj y hy => hy.judgeMark_other hj) (fun y hy => ?_) fun j _ y hy => hy.judgeMark j
    rw [judgeMark_settles hramp hseen hrest hy]
    exact ⟨by rw [record_setRecord, if_pos ⟨rfl, record_lt s hv⟩], hy.chu, hy.cau, hy.ssu⟩
  refine (reportChanges_noStep (P := SettleStands k v s) (fun y hy j => ?_) hstands
    (fun n y hy => hy.reportToGtb hrest n) b).record
  rw [State.slot, hy.ssu]
  exact hstep j

/-! ## One PRF entry (R57) -/

/-- A holder whose entry completes at a level (R57). -/
def Holder.completed (h : Holder) (level : Level) : Holder :=
  { h with state := (match level with | .shared => .shared | .exclusive => .exclusive), target := none }

/-- The entry waits on: records name its resource, and its holder has kept all but the grant written to it. -/
def EntryWaits (s : State) (e : PrfEntry) (y : State) : Prop :=
  RecordNames y e.resource ∧ e ∈ y.din.prf ∧
    { y.holder e.resource e.client with g := (s.holder e.resource e.client).g } = s.holder e.resource e.client

/-- The entry has completed: no record names its resource, its holder has the target level, the entry is gone and its
client has been sent GRANTED with quantity 0. -/
def EntryDone (s : State) (e : PrfEntry) (y : State) : Prop :=
  let h := s.holder e.resource e.client
  ¬RecordNames y e.resource ∧ e ∉ y.din.prf ∧
    { y.holder e.resource e.client with g := h.g } = h.completed (completedLevel h e.target) ∧
    ∀ f ∈ noticeTo s e.client [⟨e.resource, .granted (some (completedLevel h e.target)) 0⟩], f ∈ y.sent

/-- An entry of `s` followed to `y`. -/
structure Followed (s : State) (e : PrfEntry) (y : State) : Prop where
  law : StandingLaw y
  lpu : y.lpu = s.lpu
  stm : y.stm = s.stm
  clients : y.din.clients = s.din.clients
  status : EntryWaits s e y ∨ EntryDone s e y

/-- A state with the records named alike, and the holders, entries and frames. -/
theorem Followed.same {e : PrfEntry} (h : Followed s e y) (hlaw : StandingLaw t) (hlpu : t.lpu = y.lpu)
    (hstm : t.stm = y.stm) (hdin : t.din = y.din) (hnames : RecordNames t e.resource ↔ RecordNames y e.resource)
    (hholder : t.holder e.resource e.client = y.holder e.resource e.client) (hsent : t.sent = y.sent) :
    Followed s e t := by
  obtain ⟨-, hlpu', hstm', hclients, hstatus⟩ := h
  refine ⟨hlaw, hlpu.trans hlpu', hstm.trans hstm', by rw [hdin, hclients], ?_⟩
  rw [EntryWaits, EntryDone, hnames, hdin, hholder, hsent]
  exact hstatus

/-- The two ways a freeing goes on, as statements say it. -/
theorem RecordFreed.goesOn (h : RecordFreed k v y t) :
    ((∀ r c, (r, c) ≠ (v.resource, v.client) → t.holder r c = y.holder r c) ∧ t.din.prf = y.din.prf ∧
        t.sent = y.sent) ∨
      ∃ x ∈ y.din.prf, x.resource = v.resource ∧
        (∀ r c, (r, c) ≠ (v.resource, v.client) → (r, c) ≠ (v.resource, x.client) → t.holder r c = y.holder r c) ∧
        t.din.prf = y.din.prf.filter (fun z => z.resource != v.resource) ∧ ∃ l, t.sent = y.sent ++ l := by
  obtain ⟨-, -, -, -, -, -, -, -, -, hquiet, hcompletes⟩ := h
  by_cases hbeside : NamedBeside k v y
  · obtain ⟨hholder, hprf, -, hsent⟩ := hquiet (.inl hbeside)
    exact .inl ⟨hholder, hprf, hsent⟩
  · by_cases hentry : ∃ x ∈ y.din.prf, x.resource = v.resource
    · obtain ⟨x, hx, hxr⟩ := hentry
      obtain ⟨-, hholder, hprf, -, hsent⟩ := hcompletes hbeside x hx hxr
      exact .inr ⟨x, hx, hxr, hholder, hprf, _, hsent⟩
    · obtain ⟨hholder, hprf, -, hsent⟩ := hquiet (.inr fun x hx hxr => hentry ⟨x, hx, hxr⟩)
      exact .inl ⟨hholder, hprf, hsent⟩

theorem RecordFreed.names (h : RecordFreed k v y t) (hv : y.record k = some v) {r : Nat} (hr : r ≠ v.resource) :
    RecordNames t r ↔ RecordNames y r := by
  obtain ⟨hgone, hrecord, -⟩ := h
  constructor
  · rintro ⟨j, w, hw, hwr⟩
    have hj : j ≠ k := fun hj => by rw [hj, hgone] at hw; cases hw
    exact ⟨j, w, (hrecord j hj).symm.trans hw, hwr⟩
  · rintro ⟨j, w, hw, hwr⟩
    have hj : j ≠ k := fun hj => by
      rw [hj, hv] at hw
      exact hr (hwr.symm.trans (congrArg Revocation.resource (Option.some.inj hw).symm))
    exact ⟨j, w, (hrecord j hj).trans hw, hwr⟩

theorem RecordFreed.names_self (h : RecordFreed k v y t) : RecordNames t v.resource ↔ NamedBeside k v y := by
  obtain ⟨hgone, hrecord, -⟩ := h
  constructor
  · rintro ⟨j, w, hw, hwr⟩
    have hj : j ≠ k := fun hj => by rw [hj, hgone] at hw; cases hw
    exact ⟨j, w, hj, (hrecord j hj).symm.trans hw, hwr⟩
  · rintro ⟨j, w, hj, hw, hwr⟩
    exact ⟨j, w, (hrecord j hj).trans hw, hwr⟩

/-- A record that frees leaves the entries of other resources and their holders, and the frames sent. -/
theorem RecordFreed.elsewhere {e : PrfEntry} (h : RecordFreed k v y t) (hr : e.resource ≠ v.resource) :
    (e ∈ t.din.prf ↔ e ∈ y.din.prf) ∧ t.holder e.resource e.client = y.holder e.resource e.client ∧
      ∀ f ∈ y.sent, f ∈ t.sent := by
  have hne : ∀ c, (e.resource, e.client) ≠ (v.resource, c) := fun c heq => hr (Prod.mk.inj heq).1
  rcases h.goesOn with ⟨hholder, hprf, hsent⟩ | ⟨x, -, -, hholder, hprf, l, hsent⟩
  · exact ⟨by rw [hprf], hholder _ _ (hne _), fun f hf => hsent ▸ hf⟩
  · refine ⟨?_, hholder _ _ (hne _) (hne _), fun f hf => hsent ▸ List.mem_append_left _ hf⟩
    rw [hprf, List.mem_filter]
    simp [hr]

/-- A waiting entry of the resource of a record that frees waits on beside another record, and completes otherwise. -/
theorem EntryWaits.freed {e : PrfEntry} (h : EntryWaits s e y) (hlaw : StandingLaw y) (hv : y.record k = some v)
    (hfreed : RecordFreed k v y t) (hr : e.resource = v.resource)
    (hnotice : ∀ l, noticeTo y e.client l = noticeTo s e.client l) : EntryWaits s e t ∨ EntryDone s e t := by
  obtain ⟨-, hmem, hholder⟩ := h
  obtain ⟨-, hrecords, -, hprf, -⟩ := hlaw
  obtain ⟨-, -, hyielding⟩ := hrecords k v hv
  obtain ⟨-, -, hpends⟩ := hprf e hmem
  have hstate : (y.holder e.resource e.client).state = (s.holder e.resource e.client).state := by
    have hfields := congrArg Holder.state hholder
    exact hfields
  have hne : (e.resource, e.client) ≠ (v.resource, v.client) := fun heq => by
    obtain ⟨hr', hc'⟩ := Prod.mk.inj heq
    rw [hr', hc', hyielding] at hpends
    cases hpends
  have hnames := hfreed.names_self
  obtain ⟨-, -, -, -, -, -, -, -, -, hquiet, hcompletes⟩ := hfreed
  by_cases hbeside : NamedBeside k v y
  · obtain ⟨hkept, hprf', -, -⟩ := hquiet (.inl hbeside)
    exact .inl ⟨hr ▸ hnames.mpr hbeside, hprf' ▸ hmem, by rw [hkept _ _ hne]; exact hholder⟩
  · obtain ⟨hcompleted, -, hprf', -, hsent⟩ := hcompletes hbeside e hmem hr
    refine .inr ⟨fun hx => hbeside (hnames.mp (hr ▸ hx)), ?_, ?_, fun f hf => ?_⟩
    · rw [hprf', List.mem_filter]
      simp [hr]
    · rw [← hr] at hcompleted
      have hlevel : completedLevel (s.holder e.resource e.client) e.target =
          completedLevel (y.holder e.resource e.client) e.target := by simp only [completedLevel, hstate]
      rw [hcompleted, hlevel]
      exact congrArg (Holder.completed · (completedLevel (y.holder e.resource e.client) e.target)) hholder
    · rw [hsent, hnotice]
      refine List.mem_append_right _ ?_
      rw [← hr, hstate]
      exact hf

theorem Followed.freed {e : PrfEntry} (h : Followed s e y) (hv : y.record k = some v) (hfreed : RecordFreed k v y t)
    (hlaw : StandingLaw t) : Followed s e t := by
  obtain ⟨hlaw', hlpu, hstm, hclients, hstatus⟩ := h
  have hframe : { t with gtb := y.gtb, din.prf := y.din.prf, ale.pass := y.ale.pass, sent := y.sent } = y := by
    obtain ⟨-, -, -, -, -, -, -, -, hframe, -⟩ := hfreed
    exact hframe
  refine ⟨hlaw, (congrArg State.lpu hframe).trans hlpu, (congrArg State.stm hframe).trans hstm,
    (congrArg (fun x => x.din.clients) hframe).trans hclients, ?_⟩
  by_cases hr : e.resource = v.resource
  · rcases hstatus with hwaits | ⟨hnames, -⟩
    · exact hwaits.freed hlaw' hv hfreed hr fun l => noticeTo_congr hlpu hstm hclients _ l
    · exact absurd ⟨k, v, hv, hr.symm⟩ hnames
  · obtain ⟨hprf, hholder, hsent⟩ := hfreed.elsewhere hr
    rw [EntryWaits, EntryDone, hfreed.names hv hr, hprf, hholder]
    rcases hstatus with hwaits | ⟨hnames, hgone, hcompleted, hframes⟩
    · exact .inl hwaits
    · exact .inr ⟨hnames, hgone, hcompleted, fun f hf => hsent f (hframes f hf)⟩

/-- A record rewritten with the resource it names. -/
theorem recordNames_rewrite {w : Revocation} (hv : y.record k = some v) (hr : w.resource = v.resource) (r : Nat) :
    RecordNames (y.setRecord k (some w)) r ↔ RecordNames y r := by
  have hk := record_lt y hv
  constructor
  · rintro ⟨j, x, hx, hxr⟩
    rw [record_setRecord] at hx
    split at hx
    · cases hx
      exact ⟨k, v, hv, hr.symm.trans hxr⟩
    · exact ⟨j, x, hx, hxr⟩
  · rintro ⟨j, x, hx, hxr⟩
    by_cases hj : j = k
    · subst hj
      refine ⟨j, w, by rw [record_setRecord, if_pos ⟨rfl, hk⟩], ?_⟩
      obtain rfl := Option.some.inj (hv.symm.trans hx)
      exact hr.trans hxr
    · exact ⟨j, x, by rw [record_setRecord, if_neg fun h => hj h.1.symm]; exact hx, hxr⟩

theorem followed_closed (s : State) (e : PrfEntry) : MarkClosed (Followed s e) where
  ramp {y k v} h hv _ := by
    rcases rampClear_cases hv with ⟨-, heq⟩ | ⟨-, heq, -⟩
    · rw [heq]
      exact h.same (h.law.rewriteRecord hv rfl rfl) rfl rfl rfl (recordNames_rewrite hv (by rfl) _) rfl rfl
    · rw [heq]
      have hlaw := h.law.rampClear k
      rw [heq] at hlaw
      exact h.freed hv (freeRecord_recordFreed h.law hv rfl rfl) hlaw
  settle {y k v} h hv _ _ :=
    h.same (h.law.rewriteRecord hv rfl rfl) rfl rfl rfl (recordNames_rewrite hv (by rfl) _) rfl rfl
  slot k x h := h.same (h.law.of_eq rfl rfl rfl) rfl rfl rfl .rfl rfl rfl
  minimum n h := h.same (h.law.of_eq (by simp) (by simp) (by simp)) (by simp) (by simp) (by simp)
    (by simp [RecordNames, State.record]) (by simp [State.holder]) (by simp)

end Sys2Proof.Machine
end


-- ==== Sys2Proof/Proofs/PassCompletion.lean ====
section
/-! The completion of a pass: the state handed over to the judging of the marks, then what the judging and the reports
leave of it (R57, R78, R80, R109 to R113). -/

namespace Sys2Proof.Machine

variable {s t : State} {l : Table 12 LatchedRecord}

/-! ## The state handed over -/

/-- The state with the pass ended and its grants written. -/
def passWritten (l : Table 12 LatchedRecord) (s : State) : State :=
  forEach (List.range 12) (writeRecord l (computePass l))
    { s with ale.pass := none, ale.results := passResults l (computePass l) }

/-- That state with the pass counted and its grants noticed. -/
def passTold (l : Table 12 LatchedRecord) (s : State) : State :=
  sendGrantNotices s (countPass (computePass l) (passWritten l s))

/-- The state in which the marks are judged: the CHU has taken the results. -/
def passMoved (l : Table 12 LatchedRecord) (s : State) : State := chuTakeResults l (computePass l) (passTold l s)

theorem completePass_eq (l : Table 12 LatchedRecord) (s : State) :
    completePass l s = reportChanges (passTold l s) (judgePassMarks (passMoved l s)) := rfl

@[simp] theorem passWritten_keeps (l : Table 12 LatchedRecord) (s : State) :
    OnlyHolders { s with ale.pass := none, ale.results := passResults l (computePass l) } (passWritten l s) :=
  forEach_induct (P := OnlyHolders _) _ (by simp) fun r _ t h => by simp [h]

/-- The written grants of a client as statements list its notices. -/
def writtenNotices (l : Table 12 LatchedRecord) (s : State) (c : Nat) : List Notice :=
  (List.range 12).filterMap fun r => (writtenGrant l (computePass l) r c).bind fun g =>
    if g = (s.holder r c).g then none else some ⟨r, .granted (s.holder r c).state.level g⟩

theorem grantFrames_congr {notices notices' : Nat → List Notice} (hn : ∀ c < 3, notices c = notices' c)
    (hlpu : t.lpu = s.lpu) (hstm : t.stm = s.stm) (hclients : t.din.clients = s.din.clients) :
    grantFrames notices t = grantFrames notices' s := by
  rw [grantFrames_eq, grantFrames_eq]
  refine List.flatMap_congr fun c hc => ?_
  rw [hn c (by simp at hc; omega), noticeTo_congr hlpu hstm hclients]

/-- What a completion makes of the state before the marks are judged. -/
structure PassHanded (l : Table 12 LatchedRecord) (s t : State) : Prop where
  lpu : t.lpu = s.lpu
  stm : t.stm = s.stm
  cau : t.cau = s.cau
  din : t.din = s.din
  records : t.gtb.records = s.gtb.records
  ssu : t.ssu = s.ssu
  alerts : t.alc.alerts = s.alc.alerts
  passTimer : t.ale.passTimer = s.ale.passTimer
  ended : t.ale.pass = none
  passes : t.count .passes = raised (s.count .passes)
  parentCuts : t.count .parentCuts =
    (if (computePass l).anyCut then raised (s.count .parentCuts) else s.count .parentCuts)
  floorDrops : t.count .floorDrops = min 65535 (s.count .floorDrops + (computePass l).drops)
  holder : ∀ r < 12, ∀ c < 3, t.holder r c = (s.holder r c).withGrant (writtenGrant l (computePass l) r c)
  sent : t.sent = s.sent ++ grantFrames (writtenNotices l s) s
  chu : t.chu = (chuTakeResults l (computePass l) s).chu

theorem passMoved_handed (l : Table 12 LatchedRecord) (s : State) : PassHanded l s (passMoved l s) := by
  obtain ⟨hpasses, hcuts, hdrops⟩ := countPass_count (computePass l) (passWritten l s)
  have hcount : ∀ c, (passWritten l s).count c = s.count c := fun c => by simp [State.count]
  have hmoved : ∀ c, (passMoved l s).count c = (countPass (computePass l) (passWritten l s)).count c := fun c => by
    simp [passMoved, passTold, State.count]
  have hholder : ∀ r < 12, ∀ c < 3,
      (countPass (computePass l) (passWritten l s)).holder r c =
        (s.holder r c).withGrant (writtenGrant l (computePass l) r c) := fun r hr c hc => by
    rw [State.holder, show (countPass (computePass l) (passWritten l s)).gtb = (passWritten l s).gtb by simp]
    exact writeRecords_holder l (computePass l) hr hc _
  have hnotices : ∀ c < 3, grantNotices s (countPass (computePass l) (passWritten l s)) c = writtenNotices l s c :=
    fun c hc => grantNotices_written fun r hr => hholder r hr c hc
  refine ⟨by simp [passMoved, passTold], by simp [passMoved, passTold], by simp [passMoved, passTold],
    by simp [passMoved, passTold], by simp [passMoved, passTold], by simp [passMoved, passTold],
    by simp [passMoved, passTold], by simp [passMoved, passTold], by simp [passMoved, passTold], ?_, ?_, ?_,
    fun r hr c hc => ?_, ?_, ?_⟩
  · rw [hmoved, hpasses, hcount]
  · rw [hmoved, hcuts, hcount]
  · rw [hmoved, hdrops, hcount]
  · rw [← hholder r hr c hc]
    simp [passMoved, passTold, State.holder]
  · have hsent : (passMoved l s).sent = (passTold l s).sent := by simp [passMoved]
    rw [hsent, passTold, sendGrantNotices_sends]
    exact congr (congrArg _ (by simp)) (grantFrames_congr hnotices (by simp) (by simp) (by simp))
  · exact chuTakeResults_congr l _ (by simp [passTold]) (by simp [passTold])

namespace PassHanded

variable (h : PassHanded l s t)
include h

theorem holder_state (r c : Nat) : (t.holder r c).state = (s.holder r c).state := by
  by_cases hrc : r < 12 ∧ c < 3
  · rw [h.holder r hrc.1 c hrc.2, Holder.withGrant_state]
  · rw [holder_beyond _ (by omega), holder_beyond _ (by omega)]

/-- Only the grants differ. -/
theorem holder_grant (r c : Nat) : { t.holder r c with g := (s.holder r c).g } = s.holder r c := by
  by_cases hrc : r < 12 ∧ c < 3
  · rw [h.holder r hrc.1 c hrc.2]
    cases writtenGrant l (computePass l) r c <;> rfl
  · rw [holder_beyond _ (by omega), holder_beyond _ (by omega)]

theorem record (k : Nat) : t.record k = s.record k := by rw [State.record, h.records]; rfl

theorem law (hlaw : StandingLaw s) : StandingLaw t :=
  hlaw.of_same h.holder_state (fun k => by rw [namedBy, h.record]; rfl) (by rw [h.din])

theorem store {r : Nat} (hr : r < 12) : t.chu.store.get r =
    if (l.get r).kind = .unused then s.chu.store.get r else handedResult l (computePass l) r := by
  rw [h.chu, chuTakeResults_store, newStore, Table.get_build _ hr]

theorem names (r : Nat) : RecordNames t r ↔ RecordNames s r := by
  simp only [RecordNames, h.record]

/-- The channels of a record at rest after the CHU has taken the results, as statements say it. -/
theorem condition_iff (r : Nat) : channelCondition t r = true ↔
    ∀ b ∈ (s.resource r).bindings, settled (chuTakeResults l (computePass l) s) b.channel = true ∨
      lost (chuTakeResults l (computePass l) s) b.channel = true := by
  rw [channelCondition_congr h.chu (h.cau.trans (by simp))]
  simp [channelCondition, State.resource]

end PassHanded

/-! ## What the judging and the reports leave -/

/-- The freeing of records leaves the grant of a holder that is not YIELDING. -/
theorem HolderFreed.g_eq {h h' : Holder} (a : HolderFreed h h') (hy : h.state ≠ .yielding) : h'.g = h.g := by
  cases a with
  | same => rfl
  | freed hy' => exact absurd hy' hy
  | completed => rfl

/-- A grant of 0 stays 0. -/
theorem HolderFreed.g_zero {h h' : Holder} (a : HolderFreed h h') (hg : h.g = 0) : h'.g = 0 := by
  cases a with
  | same => exact hg
  | freed => rfl
  | completed => exact hg

theorem inNoStep_of_state
    (h : ∀ j sl, s.slot j = some sl → (∀ i, sl.state ≠ .starting i) ∧ ∀ i, sl.state ≠ .stopping i)
    (j : Nat) : InNoStep (s.slot j) := by
  intro sl hsl
  obtain ⟨hstarting, hstopping⟩ := h j sl hsl
  unfold Slot.currentStep
  split
  · next i hi => exact absurd hi (hstarting i)
  · next i hi => exact absurd hi (hstopping i)
  · rfl

section Completed

variable (hpass : s.ale.pass = some l) (hgrant : GrantLaw s) (hlaw : StandingLaw s)
include hlaw

theorem completePass_freed : RecordsFreed (passMoved l s) (completePass l s) :=
  (recordsFreed_marks _).completed (.refl ((passMoved_handed l s).law hlaw)) _

include hpass hgrant in
/-- The grant computed for a claim that has not departed stands at the end (R109, R110). -/
theorem completePass_granted {r c : Nat} (hr : r < 12) (hc : c < 3) {x : Claim} (hx : (l.get r).claim c = some x)
    (hstays : x.departed = false) : ((completePass l s).holder r c).g = ((computePass l).grants.get r).g c := by
  have hmoved := passMoved_handed l s
  have hleaves := hgrant.2 l hpass r c x hx hstays
  rw [((completePass_freed hlaw).holder r c).g_eq, hmoved.holder r hr c hc, writtenGrant, hx]
  · simp [hstays, Holder.withGrant]
  · rw [hmoved.holder_state]
    intro hy
    rw [hy] at hleaves
    cases hleaves

theorem completePass_ungranted {r c : Nat} (hr : r < 12) (hc : c < 3) (hx : (l.get r).claim c = none)
    (hg : (s.holder r c).g = 0) : ((completePass l s).holder r c).g = 0 := by
  refine ((completePass_freed hlaw).holder r c).g_zero ?_
  rw [(passMoved_handed l s).holder r hr c hc, writtenGrant, hx]
  exact hg

/-- A PRF entry of a resource that records name waits on, or completes (R57). -/
theorem completePass_followed {e : PrfEntry} (he : e ∈ s.din.prf) (hnames : RecordNames s e.resource) :
    Followed s e (completePass l s) := by
  have hmoved := passMoved_handed l s
  have hstart : Followed s e (passMoved l s) := ⟨hmoved.law hlaw, hmoved.lpu, hmoved.stm, by rw [hmoved.din],
    .inl ⟨(hmoved.names _).mpr hnames, by rwa [hmoved.din], hmoved.holder_grant _ _⟩⟩
  exact (followed_closed s e).completed hstart (passTold l s)

end Completed

/-- Settles O44: the stages up to the judging of the marks by `PassHanded`, and each later clause by a property that the
clearing and settling of marks and the reports keep (`MarkClosed`). -/
theorem passCompletionWritesGrants : Obligations.PassCompletionWritesGrants := by
  refine fun s => ⟨fun hpass => by simp [exec, execPassCompletion, hpass], fun l hpass hgrant hlaw => ?_⟩
  intro written notices frames handed atRest noStep
  have hmoved := passMoved_handed l s
  have hlawMoved := hmoved.law hlaw
  have hcount : ∀ c, (completePass l s).count c = (passMoved l s).count c := fun c => by
    simp [completePass_eq, State.count]
  have hstore : (completePass l s).chu.store = (passMoved l s).chu.store := by simp [completePass_eq]
  refine ⟨completePass l s, by simp [exec, execPassCompletion, hpass], passEnded_closed.completed hmoved.ended _,
    by simpa [completePass_eq] using hmoved.passTimer, (hcount _).trans hmoved.passes,
    (hcount _).trans hmoved.parentCuts, (hcount _).trans hmoved.floorDrops,
    by simpa [completePass_eq] using hmoved.cau, by simpa [completePass_eq] using hmoved.stm,
    by simpa [completePass_eq] using hmoved.alerts,
    fun r hr c hc x hx hstays => completePass_granted hpass hgrant hlaw hr hc hx hstays,
    fun r hr c hc hx hg => completePass_ungranted hlaw hr hc hx hg,
    fun r hr => by rw [hstore, hmoved.store hr], ?_, fun k v hv hramp => ?_, fun e he hnames => ?_⟩
  · obtain ⟨later, hlater⟩ := (sentGrows_closed _).completed (List.prefix_refl (passMoved l s).sent) (passTold l s)
    refine ⟨later, hlater.symm.trans ?_⟩
    rw [hmoved.sent]
    rfl
  · have hvMoved := (hmoved.record k).trans hv
    have hrest := hmoved.condition_iff v.resource
    refine ⟨completed_unseen hvMoved hramp _, fun hseen hatRest => ?_, fun hseen hatRest => ?_⟩
    · exact completed_atRest hlawMoved hvMoved hramp _ hseen (hrest.mpr hatRest)
    · have hcondition : channelCondition (passMoved l s) v.resource = false := by
        simpa using mt hrest.mp hatRest
      refine ⟨fun hstep => completed_noStep hlawMoved hvMoved hramp hseen hcondition (fun j => ?_) _,
        completed_notAtRest hlawMoved hvMoved hramp _ hseen hcondition⟩
      rw [State.slot, hmoved.ssu]
      exact inNoStep_of_state hstep j
  · obtain ⟨-, -, -, -, hstatus⟩ := completePass_followed (l := l) hlaw he hnames
    rcases hstatus with ⟨hwaits, hmem, -⟩ | ⟨hgone, hdone⟩
    · exact ⟨fun _ => hmem, fun hnot => absurd hwaits hnot⟩
    · exact ⟨fun hwaits => absurd hwaits hgone, fun _ => hdone⟩

end Sys2Proof.Machine
end


-- ==== Sys2Proof/Proofs/Events.lean ====
section
/-! SUPPORT. One walk through all commands for a law of the events (R84): an event changes the Grant Table in stages that
keep a property `P`, and ends in the test of the head of the probe queue, which from `P` brings about `Q`; a step that is no
such event leaves the Grant Table and the pass alone, or begins anew. -/

namespace Sys2Proof.Machine

variable {s t u : State}

/-! ## What most operations leave -/

/-- From `s` to `t` the Grant Table and the pass are untouched. -/
structure GrantsSame (s t : State) : Prop where
  gtb : t.gtb = s.gtb
  pass : t.ale.pass = s.ale.pass

namespace GrantsSame

theorem refl (s : State) : GrantsSame s s := ⟨rfl, rfl⟩

theorem trans (h : GrantsSame u s) (h' : GrantsSame s t) : GrantsSame u t :=
  ⟨h'.gtb.trans h.gtb, h'.pass.trans h.pass⟩

/-- An operation that leaves the Grant Table and the whole of the ALE. -/
theorem of_ale (hgtb : t.gtb = s.gtb) (hale : t.ale = s.ale) : GrantsSame s t := ⟨hgtb, by rw [hale]⟩

theorem foldl {α : Type} {f : State → α → State} (hf : ∀ t x, GrantsSame t (f t x)) (l : List α) (s : State) :
    GrantsSame s (l.foldl f s) :=
  StepClosed.foldl_keeps (P := GrantsSame s) (fun t x ht => ht.trans (hf t x)) l (.refl s)

theorem expire {x : Timer} (e : expire x s = some t) : GrantsSame s t := by
  obtain ⟨d, -, rfl⟩ := expire_some e
  exact ⟨rfl, rfl⟩

/-! ### Frames, markers and loop states -/

theorem arrive (a : Nat) (s : State) : GrantsSame s (arrive a s) := by
  refine ⟨by simp, ?_⟩
  simp only [Machine.arrive, stationHeard, returnStation, stationReturned_eq]
  repeat' split
  all_goals simp

theorem openFrame (d : DemandCtx) (s : State) : GrantsSame s (openFrame d s) := by
  unfold Machine.openFrame
  split
  · exact (arrive _ s).trans ⟨rfl, rfl⟩
  · exact .refl s

theorem forwardFrame (cls : Nat) (fr : RxFrame) (s : State) : GrantsSame s (forwardFrame cls fr s) := ⟨rfl, rfl⟩

theorem passOn (cls : Nat) (fr : RxFrame) (s : State) : GrantsSame s (passOn cls fr s) := by
  unfold Machine.passOn
  split
  · exact .refl s
  · exact forwardFrame cls fr s

theorem steerPlain (cls : Nat) (fr : RxFrame) (s : State) : GrantsSame s (steerPlain cls fr s) := by
  unfold Machine.steerPlain
  repeat' split
  all_goals exact ⟨rfl, rfl⟩

theorem stripOwn (fr : OwnFrame) (s : State) : GrantsSame s (stripOwn fr s) := by
  unfold Machine.stripOwn
  split
  all_goals exact ⟨rfl, rfl⟩

theorem sampleFrame (fr : RxFrame) (s : State) : GrantsSame s (sampleFrame fr s) :=
  ((arrive _ s).trans (foldl (fun _ _ => .of_ale (by simp) (by simp)) _ _)).trans (passOn _ _ _)

theorem decideRound (f v : Option LoopState) (s : State) : GrantsSame s (decideRound f v s) := by
  unfold Machine.decideRound
  dsimp only
  repeat' split
  all_goals exact .of_ale (by simp) (by simp)

theorem pairedEnd (ring : Ring) (l : Option LoopState) (s : State) : GrantsSame s (pairedEnd ring l s) := by
  unfold Machine.pairedEnd
  split
  · exact .refl s
  · dsimp only
    split
    · exact decideRound _ _ s
    · exact ⟨rfl, rfl⟩

theorem judgeReturn (role : MarkerRole) (ring : Ring) (l : Option LoopState) (s : State) :
    GrantsSame s (judgeReturn role ring l s) := by
  cases role with
  | regular =>
    simp only [Machine.judgeReturn, regularReturn]
    repeat' split
    all_goals exact .of_ale (by simp) (by simp)
  | recovery =>
    simp only [Machine.judgeReturn, recoveryReturn]
    split
    all_goals exact .of_ale (by simp) (by simp)
  | paired => exact pairedEnd _ _ s

theorem setOutstanding (ring : Ring) (x : Option Outstanding) (s : State) : GrantsSame s (setOutstanding ring x s) :=
  .of_ale (by simp) (by simp)

theorem markerHome (input : Ring) (m : MarkerFrame) (s : State) : GrantsSame s (markerHome input m s) := by
  have hreturned : ∀ trip, GrantsSame s (recordReturn trip m (Machine.setOutstanding m.sentOn none s)) := fun _ =>
    (setOutstanding m.sentOn none s).trans ⟨rfl, rfl⟩
  unfold Machine.markerHome
  repeat' split
  · exact .refl s
  · exact (hreturned _).trans (judgeReturn _ _ _ _)
  · exact .refl s

theorem watchMissed (ring : Ring) (role : MarkerRole) (s : State) : GrantsSame s (watchMissed ring role s) := by
  have hcleared := setOutstanding ring none s
  cases role with
  | regular => exact hcleared.trans (t := regularMiss _) (.of_ale (by simp) (by simp))
  | recovery => exact hcleared
  | paired => exact hcleared.trans (pairedEnd _ _ _)

theorem sendMarkers (s : State) : GrantsSame s (sendMarkers s) := by
  unfold Machine.sendMarkers
  dsimp only
  repeat' split
  all_goals exact .of_ale (by simp) (by simp)

theorem ssuHalt (s : State) : GrantsSame s (ssuHalt s) := ⟨rfl, rfl⟩

end GrantsSame

/-- From `s` to `t` every holder has kept its state and its g, and a pass that is latched is latched as it was. -/
structure GrantsKept (s t : State) : Prop where
  state : ∀ r c, (t.holder r c).state = (s.holder r c).state
  grant : ∀ r c, (t.holder r c).g = (s.holder r c).g
  pass : t.ale.pass = s.ale.pass ∨ t.ale.pass = none

namespace GrantsKept

theorem refl (s : State) : GrantsKept s s := ⟨fun _ _ => rfl, fun _ _ => rfl, .inl rfl⟩

theorem trans (h : GrantsKept u s) (h' : GrantsKept s t) : GrantsKept u t where
  state r c := (h'.state r c).trans (h.state r c)
  grant r c := (h'.grant r c).trans (h.grant r c)
  pass := by
    rcases h'.pass with e | e
    · rw [e]; exact h.pass
    · exact .inr e

theorem of_gtb (hgtb : t.gtb = s.gtb) (hpass : t.ale.pass = s.ale.pass ∨ t.ale.pass = none) : GrantsKept s t :=
  ⟨fun r c => by simp only [State.holder, hgtb], fun r c => by simp only [State.holder, hgtb], hpass⟩

theorem of_same (h : GrantsSame s t) : GrantsKept s t := of_gtb h.gtb (.inl h.pass)

theorem mapHolders {f : Holder → Holder} (hstate : ∀ x, (f x).state = x.state) (hgrant : ∀ x, (f x).g = x.g)
    (s : State) : GrantsKept s (mapHolders f s) := by
  have hholder : ∀ r c, (Machine.mapHolders f s).holder r c = f (s.holder r c) ∨
      (Machine.mapHolders f s).holder r c = s.holder r c := fun r c => by
    by_cases hrc : r < 12 ∧ c < 3
    · exact .inl (mapHolders_holder f hrc.1 hrc.2 s)
    · exact .inr (by rw [holder_beyond _ (by omega), holder_beyond _ (by omega)])
  refine ⟨fun r c => ?_, fun r c => ?_, .inl rfl⟩
  · rcases hholder r c with e | e <;> rw [e]
    exact hstate _
  · rcases hholder r c with e | e <;> rw [e]
    exact hgrant _

theorem suspendLeases (s : State) : GrantsKept s (suspendLeases s) :=
  mapHolders (f := fun h => { h with lease := h.lease.suspend s.now }) (fun _ => rfl) (fun _ => rfl) s

theorem resumeLeases (s : State) : GrantsKept s (resumeLeases s) :=
  mapHolders (f := fun h => { h with lease := h.lease.resume s.now }) (fun _ => rfl) (fun _ => rfl) s

/-- The entry into HALTED abandons the pass and suspends the leases (R198). -/
theorem mguStationFault (s : State) : GrantsKept s (mguStationFault s) := by
  unfold Machine.mguStationFault
  split
  · have hleft : GrantsKept s (chuHalt (leaveRun (raiseAlert .halt 0 { s with mgu.part := .halted }))) :=
      of_gtb (by simp [leaveRun]) (.inr (by simp [leaveRun]))
    exact (hleft.trans (suspendLeases _)).trans (of_same (.ssuHalt _))
  · exact refl s

end GrantsKept

/-! ## Laws of the events -/

/-- A law `Q` between events and a property `P` while one is under way. -/
structure EventClosed (P Q : State → Prop) : Prop where
  begins : ∀ {s}, Q s → P s
  ends : ∀ {s}, P s → Q (testHead s)
  idle : ∀ {s t}, Q s → GrantsSame s t → Q t
  cleared : ∀ {t}, t.gtb = State.reset.gtb → t.ale.pass = none → Q t
  kept : ∀ {s t}, P s → GrantsKept s t → P t
  ramp : ∀ {s}, P s → ∀ k, P (rampClear k s)
  notice : ∀ {s}, P s → ∀ k, P (noticeClear k s)
  decided : ∀ {s}, P s → ∀ op r c p, P (decideItem op r c p s).1
  lapsed : ∀ {s}, P s → ∀ r c, P (lapse r c s)
  latched : ∀ {s}, P s → P (latched s)
  completed : ∀ {s l}, P s → s.ale.pass = some l → P (passMoved l s)

namespace EventClosed

variable {P Q : State → Prop} (C : EventClosed P Q)
include C

theorem same (h : P s) (e : GrantsSame s t) : P t := C.kept h (.of_same e)

/-- An operation that leaves the Grant Table and the ALE. -/
theorem same_ale (h : P s) (hgtb : t.gtb = s.gtb) (hale : t.ale = s.ale) : P t := C.same h (.of_ale hgtb hale)

/-! ### Reports and marks -/

theorem marks : MarkClosed P where
  ramp h _ _ := C.ramp h _
  settle h _ _ _ := C.kept h ⟨fun _ _ => rfl, fun _ _ => rfl, .inl rfl⟩
  slot _ _ h := C.same_ale h rfl rfl
  minimum _ h := C.same_ale h (by simp) (by simp)

theorem reports : ReportClosed P := C.marks.reports

/-! ### Demand items (chapter 3) -/

theorem takeClientItem (h : P s) (c : Nat) (op : ItemOp) (it : DemandItem) : P (takeClientItem c op it s).1 := by
  have hcounted : P (countEvent .demandItems s) := C.same_ale h rfl rfl
  have hrefused : ∀ d : Decision, P d.1 → P (countRefusal d).1 := by
    intro d hd
    unfold countRefusal
    split
    · exact C.same_ale hd rfl rfl
    · exact hd
  refine hrefused _ ?_
  split
  · exact hcounted
  · exact C.decided hcounted _ _ _ _

omit C in
theorem answerItem_same (d : DemandCtx) (n : Notice) (s : State) : GrantsSame s (answerItem d n s) := by
  unfold answerItem
  dsimp only
  split
  all_goals exact ⟨rfl, rfl⟩

theorem demandStep (h : Q s) (d : DemandCtx) (op : ItemOp) (it : DemandItem) : Q (demandStep d op it s) := by
  have hopened : Q (openFrame d s) := C.idle h (.openFrame d s)
  unfold Machine.demandStep
  dsimp only
  split
  · exact C.idle hopened ⟨rfl, rfl⟩
  · exact C.ends (C.same (C.takeClientItem (C.begins hopened) _ op it) (answerItem_same _ _ _))

theorem malformedStep (h : Q s) (d : DemandCtx) : Q (malformedStep d s) := by
  have hopened : Q (openFrame d s) := C.idle h (.openFrame d s)
  have hcounted : Q (countEvent .demandsDenied (openFrame d s)) := C.idle hopened ⟨rfl, rfl⟩
  unfold Machine.malformedStep
  dsimp only
  repeat' split
  · exact hcounted
  · exact hopened
  · exact C.idle hcounted (answerItem_same _ _ _)

theorem takeDemandStep (h : Q s) (x : DemandCtx × Option (ItemOp × DemandItem)) : Q (takeDemandStep s x) := by
  unfold Machine.takeDemandStep
  split
  · exact C.demandStep h _ _ _
  · exact C.malformedStep h _

/-! ### Frames (chapter 8) -/

theorem interceptFrame (h : Q s) (x : Intercept) (fr : RxFrame) : Q (interceptFrame x fr s) := by
  have hcounted : Q (countEvent .commandsIntercepted s) := C.idle h ⟨rfl, rfl⟩
  unfold Machine.interceptFrame
  dsimp only
  repeat' split
  · exact hcounted
  · refine C.ends (StepClosed.foldl_keeps (fun t e ht => ?_) _ (C.begins hcounted))
    unfold convertEntry
    split
    · exact C.same_ale ht rfl rfl
    · exact StepClosed.foldl_keeps (P := P) (fun t m ht => C.takeClientItem ht _ _ _) _ ht
  · exact hcounted

theorem statusFrame (h : Q s) (fr : RxFrame) : Q (statusFrame fr s) := by
  refine C.ends (C.same (StepClosed.foldl_keeps (fun t e ht => ?_) _ (C.same (C.begins h) (.arrive _ s)))
    (.passOn _ _ _))
  unfold takeStatus
  repeat' split
  · exact ht
  · exact ht
  · exact C.reports.reportChanges _ (C.same_ale ht (by simp) (by simp))

theorem commandFrame (h : Q s) (fr : RxFrame) : Q (commandFrame fr s) := by
  have harrived : Q (arrive fr.src s) := C.idle h (.arrive _ s)
  unfold Machine.commandFrame
  dsimp only
  split
  · exact C.interceptFrame harrived _ fr
  · exact C.idle harrived (.steerPlain _ _ _)

theorem unlessOwn (h : Q s) (cls : Nat) (fr : RxFrame) {f : State → State} (hf : Q (f s)) : Q (unlessOwn cls fr f s) := by
  unfold Machine.unlessOwn
  split
  · exact C.idle h (.stripOwn _ s)
  · exact hf

end EventClosed

/-! ## Management operations (chapter 11) -/

/-- The state that an operation leaves, by whether the head of the probe queue is tested after it. -/
structure Concludes (P Q : State → Prop) (a : Answer) : Prop where
  tested : a.tests = true → P a.state
  untested : a.tests = false → Q a.state

namespace Concludes

variable {P Q : State → Prop}

theorem of (st : Status) (h : Q s) : Concludes P Q (.of st s) := ⟨nofun, fun _ => h⟩

theorem ofTested (h : P s) : Concludes P Q (.tested s) := ⟨fun _ => h, nofun⟩

/-- An operation that returns contents. -/
theorem done (l : List FieldItem) (h : Q s) :
    Concludes P Q { state := s, status := some .done, contents := l } := ⟨nofun, fun _ => h⟩

end Concludes

namespace EventClosed

variable {P Q : State → Prop} (C : EventClosed P Q)
include C

theorem conclude {a : Answer} (h : Concludes P Q a) (dest seq code : Nat) : Q (conclude dest seq code a) := by
  have hreply : GrantsSame a.state (reply dest seq code a) := by
    unfold reply
    split
    all_goals exact ⟨rfl, rfl⟩
  unfold Machine.conclude
  split
  · next e => exact C.ends (C.same (h.tested e) hreply)
  · next e => exact C.idle (h.untested (Bool.eq_false_of_not_eq_true e)) hreply

theorem manage (h : Q s) (m : ManageCtx) (code : Nat) {take : State → Answer}
    (ht : ∀ t, Q t → Concludes P Q (take t)) : Q (manage m code take s) := by
  have harrived : Q (Machine.arrive m.src s) := C.idle h (.arrive _ s)
  unfold Machine.manage
  dsimp only
  split
  · exact C.conclude (ht _ harrived) _ _ _
  · unfold foreignManage
    split
    · exact harrived
    · exact C.idle harrived ⟨rfl, rfl⟩

theorem takeRestart : Concludes P Q (.of .done (restarted s)) := .of _ (C.cleared rfl rfl)

theorem enterRun (h : P s) : P (enterRun s) := by
  have hrun : GrantsKept s { s with mgu.part := .run, ale.passTimer := Timer.start s.now s.ale.passPeriod } :=
    .of_gtb rfl (.inl rfl)
  refine C.reports.reportChanges _ (C.kept h ((hrun.trans (.resumeLeases _)).trans (.of_gtb ?_ (.inl ?_))))
  all_goals simp [ssuResume]

theorem takeStart (h : Q s) : Concludes P Q (takeStart s) := by
  have hrun := C.enterRun (C.begins h)
  unfold Machine.takeStart
  repeat' split
  · exact .of _ h
  · exact .of _ h
  · exact .ofTested hrun
  · exact .of _ h
  · exact .ofTested hrun

theorem takeHoldChannel (h : Q s) (n : Nat) : Concludes P Q (takeHoldChannel n s) := by
  unfold Machine.takeHoldChannel
  split
  · exact .of _ h
  · exact .ofTested (C.reports.reportChanges _ (C.same_ale (C.begins h) rfl rfl))

theorem takeFreeChannel (h : Q s) (n : Nat) : Concludes P Q (takeFreeChannel n s) := by
  unfold Machine.takeFreeChannel
  repeat' split
  · exact .of _ h
  · exact .of _ h
  · exact .of _ h
  · exact .ofTested (C.reports.reportChanges _ (C.same_ale (C.begins h) (by simp) (by simp)))

theorem takeReturnStation (h : Q s) (a : Nat) : Concludes P Q (takeReturnStation a s) := by
  unfold Machine.takeReturnStation
  repeat' split
  · exact .of _ h
  · exact .of _ h
  · exact .of _ (C.idle h (.of_ale (by simp [returnStation, stationReturned_eq])
      (by simp [returnStation, stationReturned_eq])))
  all_goals exact .of _ h

theorem takeClearSequence (h : Q s) (k : Nat) : Concludes P Q (takeClearSequence k s) := by
  unfold Machine.takeClearSequence
  repeat' split
  · exact .of _ h
  · exact .of _ (C.idle h ⟨rfl, rfl⟩)
  · exact .of _ h

theorem takeClearAlert (h : Q s) (category index : Nat) : Concludes P Q (takeClearAlert category index s) := by
  unfold Machine.takeClearAlert
  repeat' split
  · exact .of _ (C.idle h ⟨rfl, rfl⟩)
  · exact .of _ h
  · exact .of _ h

theorem takeAckOldest (h : Q s) : Concludes P Q (takeAckOldest s) := by
  unfold Machine.takeAckOldest
  split
  · exact .of _ h
  · exact .of _ (C.idle h ⟨rfl, rfl⟩)

theorem takeClearCounts (h : Q s) : Concludes P Q (takeClearCounts s) := by
  unfold Machine.takeClearCounts
  dsimp only
  split
  all_goals exact .of _ (C.idle h ⟨rfl, rfl⟩)

theorem takeClearLoop (h : Q s) : Concludes P Q (takeClearLoop s) := .of _ (C.idle h ⟨rfl, rfl⟩)

theorem takeProbe (h : Q s) (kind r c q seq : Nat) : Concludes P Q (takeProbe kind r c q seq s) := by
  unfold Machine.takeProbe
  repeat' split
  case h_2.isFalse.isFalse.isFalse.isFalse =>
    exact ⟨fun _ => C.kept (C.begins h) ⟨fun _ _ => rfl, fun _ _ => rfl, .inl rfl⟩, nofun⟩
  all_goals exact .of _ h

omit C in
theorem takeRead (h : Q s) (table index : Nat) : Concludes P Q (takeRead table index s) := by
  unfold Machine.takeRead
  repeat' split
  · exact .of _ h
  · exact .of _ h
  · exact .done _ h

omit C in
theorem takeStatusItem (h : Q s) (item index : Nat) : Concludes P Q (takeStatusItem item index s) := by
  unfold Machine.takeStatusItem
  split
  · exact .of _ h
  · exact .done _ h

end EventClosed

end Sys2Proof.Machine
end


-- ==== Sys2Proof/Proofs/EveryEvent.lean ====
section
/-! PROOFS OF OBLIGATIONS. The walk of `EventClosed` through the loads, the events and the commands, and the law that the
head of the probe queue stalls (R84). -/

namespace Sys2Proof.Machine

variable {s t u : State}

namespace EventClosed

variable {P Q : State → Prop} (C : EventClosed P Q)
include C

/-! ### Loads (R200) -/

theorem replaceSlot (h : P s) (k : Nat) (x : Option Slot) : P (replaceSlot k x s) :=
  C.reports.reportChanges _ (C.reports.minimums _ (C.reports.slot _ _ _ h))

theorem endFaults (h : P s) (b : State) : P (endFaults b s) :=
  forEach_induct _ h fun _ _ _ ht => C.same_ale ht (by simp [stationReturned_eq]) (by simp [stationReturned_eq])

theorem loadChannel (h : P s) (c : LoadClass) (n : Nat) (items : List FieldItem) :
    StepClosed.Keeps P (loadChannel c n items s) := by
  have hchannel : ∀ x, P (reportChanges s (s.setChannel n x)) := fun _ =>
    C.reports.reportChanges _ (C.same_ale h rfl rfl)
  unfold Machine.loadChannel
  repeat' split
  · exact StepClosed.keeps_changed (fun _ => hchannel _) _ _ _
  · exact StepClosed.keeps_error _
  · exact StepClosed.keeps_changed (fun _ => hchannel _) _ _ _

theorem loadSlot (h : P s) (c : LoadClass) (k : Nat) (items : List FieldItem) :
    StepClosed.Keeps P (loadSlot c k items s) := by
  have hslot : ∀ x, StepClosed.Keeps P (.ok (Machine.replaceSlot k x s)) := fun x =>
    StepClosed.keeps_ok (C.replaceSlot h k x)
  cases c with
  | structural =>
    refine StepClosed.keeps_withFields (StepClosed.keeps_orBadValue (fun x => ?_) _) _ _
    cases x with
    | none => dsimp only; split; exacts [hslot _, StepClosed.keeps_error _]
    | some sl => dsimp only; split; exacts [hslot _, StepClosed.keeps_error _]
  | tunable =>
    unfold Machine.loadSlot
    dsimp only
    split
    · exact StepClosed.keeps_error _
    · refine StepClosed.keeps_withFields ?_ _ _
      split
      · exact StepClosed.keeps_ok (C.same_ale h rfl rfl)
      · exact StepClosed.keeps_error _

/-- A load whose tables hold neither holders nor a pass. -/
theorem keeps_quietLoad (h : P s) {α : Type} {f : α → State} (hsame : ∀ a, GrantsSame s (f a))
    (items : List FieldItem) (allowed : List Nat) (x : Option α) :
    StepClosed.Keeps P (withFields items allowed (orBadValue x fun a => .ok (f a))) :=
  StepClosed.keeps_changed (fun a => C.same h (hsame a)) items allowed x

theorem loadClient (h : P s) (c : LoadClass) (n : Nat) (items : List FieldItem) :
    StepClosed.Keeps P (loadClient c n items s) := by
  unfold Machine.loadClient
  repeat' split
  · exact C.keeps_quietLoad h (fun _ => by exact ⟨rfl, rfl⟩) _ _ _
  · exact StepClosed.keeps_error _
  · exact C.keeps_quietLoad h (fun _ => by exact ⟨rfl, rfl⟩) _ _ _

theorem loadResource (h : P s) (c : LoadClass) (r : Nat) (items : List FieldItem) :
    StepClosed.Keeps P (loadResource c r items s) := by
  have hresource : ∀ x, P (s.setResource r x) := fun _ => C.kept h ⟨fun _ _ => rfl, fun _ _ => rfl, .inl rfl⟩
  unfold Machine.loadResource
  repeat' split
  · exact StepClosed.keeps_orBadValue (fun _ => StepClosed.keeps_ok (hresource _)) _
  · exact StepClosed.keeps_error _
  · exact StepClosed.keeps_ok (hresource _)
  · exact StepClosed.keeps_error _

theorem ownerLoad (h : P s) (table index : Nat) (c : LoadClass) (items : List FieldItem) :
    StepClosed.Keeps P (ownerLoad table index c items s) := by
  unfold Machine.ownerLoad
  split
  · exact StepClosed.keeps_changed (fun _ => C.endFaults (C.same h (by exact ⟨rfl, rfl⟩)) s) _ _ _
  · exact C.keeps_quietLoad h (fun _ => by exact ⟨rfl, rfl⟩) _ _ _
  · exact C.keeps_quietLoad h (fun _ => by exact ⟨rfl, rfl⟩) _ _ _
  · cases c
    all_goals exact C.keeps_quietLoad h (fun _ => by exact ⟨rfl, rfl⟩) _ _ _
  · exact C.loadClient h c index items
  · exact C.loadResource h c index items
  · exact C.loadChannel h c index items
  · exact C.loadSlot h c index items
  · exact C.keeps_quietLoad h (fun _ => by exact ⟨rfl, rfl⟩) _ _ _
  · exact C.keeps_quietLoad h (fun _ => by exact ⟨rfl, rfl⟩) _ _ _
  · exact C.keeps_quietLoad h (fun _ => by exact ⟨rfl, rfl⟩) _ _ _
  · exact StepClosed.keeps_error _

theorem takeLoad (h : Q s) (table index cls : Nat) (part : PartMark) (contents : List Byte) :
    Concludes P Q (takeLoad table index cls part contents s) := by
  have hheld : ∀ x, Q { s with mgu.held := x } := fun _ => C.idle h ⟨rfl, rfl⟩
  have hdecided : ∀ bytes, StepClosed.Keeps P (decideLoad table index cls bytes { s with mgu.held := none }) := by
    intro bytes
    unfold decideLoad
    repeat' split
    · exact StepClosed.keeps_error _
    · exact StepClosed.keeps_error _
    · exact StepClosed.keeps_orBadValue (fun _ => C.ownerLoad (C.begins (hheld none)) _ _ _ _) _
    · exact StepClosed.keeps_error _
  unfold Machine.takeLoad
  repeat' split
  · exact .of _ (hheld none)
  · dsimp only
    unfold answerLoad
    split
    · next t ht => exact .ofTested (hdecided _ t ht)
    · exact .of _ (hheld none)
  · exact .of _ (hheld _)

/-- A MANAGE operation of any code. -/
theorem operationOf (seq : Nat) (payload : List Byte) {take : State → Answer}
    (e : (operationOf seq payload).2 = take) (h : Q s) : Concludes P Q (take s) := by
  unfold Machine.operationOf at e
  split at e
  · exact e ▸ .of _ h
  · dsimp only at e
    split at e <;> subst e
    · exact C.takeLoad h _ _ _ _ _
    · exact takeRead h _ _
    · exact takeStatusItem h _ _
    · exact C.takeStart h
    · exact C.takeRestart
    · exact C.takeRestart
    · exact C.takeHoldChannel h _
    · exact C.takeFreeChannel h _
    · exact C.takeReturnStation h _
    · exact C.takeClearSequence h _
    · exact C.takeClearAlert h _ _
    · exact C.takeAckOldest h
    · exact C.takeClearCounts h
    · exact C.takeClearLoop h
    · exact C.takeProbe h _ _ _ _ _
    · exact .of _ h

theorem steer (h : Q s) (cls : Nat) (fr : RxFrame) : Q (steer cls fr s) := by
  unfold Machine.steer
  repeat' split
  · exact C.idle h (.sampleFrame fr s)
  · exact C.statusFrame h fr
  · exact C.commandFrame h fr
  · exact StepClosed.foldl_keeps (P := Q) (fun _ x ht => C.takeDemandStep ht x) _ h
  · exact C.manage h _ _ fun _ ht => C.operationOf _ _ rfl ht
  · exact C.idle h ((GrantsSame.arrive _ s).trans (.steerPlain _ _ _))

/-! ### Probes, passes and stations -/

theorem executeHead (h : Q s) (k : ProbeKind) : Q (executeHead k s) := by
  unfold Machine.executeHead
  split
  · exact h
  · next hq =>
    split
    · next hready => exact testHead_ready hq hready.2 ▸ C.ends (C.begins h)
    · exact h

/-- The state at the deadline of a timer that has run down. -/
theorem due (h : Q s) {x : Timer} (he : expire x s = some t) : Q t := C.idle h (.expire he)

theorem channelExpiry (h : Q s) (timer : Channel → Timer) {act : Nat → State → State} (n : Nat)
    (hgtb : ∀ t, (act n t).gtb = t.gtb) (hale : ∀ t, (act n t).ale = t.ale) : Q (channelExpiry timer act n s) := by
  unfold Machine.channelExpiry
  repeat' split
  · exact h
  · exact h
  · next he => exact C.ends (C.reports.reportChanges _ (C.same_ale (C.begins (C.due h he)) (hgtb _) (hale _)))
  · exact h

theorem startPass (h : P s) : P (startPass s) := startPass_eq s ▸ C.reports.slotsPassStart _ (C.latched h)

theorem completePass {l : Table 12 LatchedRecord} (h : P s) (hl : s.ale.pass = some l) : P (completePass l s) :=
  completePass_eq l s ▸ C.marks.completed (C.completed h hl) _

theorem gtbStationFault (h : P s) (a : Nat) : P (gtbStationFault a s) := by
  unfold Machine.gtbStationFault
  refine forEach_induct _ h fun k _ t ht => ?_
  repeat' split
  · exact C.notice ht k
  · exact ht
  · exact ht

theorem declareFaulty (h : Q s) (i : Nat) : Q (declareFaulty i s) := by
  cases hst : s.station i with
  | none => simpa [Machine.declareFaulty, hst] using h
  | some st =>
    have hpoints : P (pointsDeclared i st s) :=
      C.same_ale (C.begins h) (by simp [pointsDeclared]) (by simp [pointsDeclared])
    have hchannels : P (channelsDeclared i st s) :=
      C.reports.reportChanges _ (C.same_ale hpoints (by simp) (by simp))
    have hleases : P (leasesDeclared i st s) := dinStationFault_induct (P := P) st.address hchannels
      (fun r c _ t ht => C.lapsed ht r c) fun c t ht => C.same_ale ht rfl rfl
    rw [declareFaulty_eq hst]
    exact C.ends (C.kept (C.gtbStationFault hleases _) (.mguStationFault _))

theorem silenceExpired (h : Q s) (i : Nat) (st : Station) : Q (silenceExpired i st s) := by
  unfold Machine.silenceExpired
  dsimp only
  split
  · exact C.declareFaulty (C.idle h (by exact ⟨rfl, rfl⟩)) i
  · exact C.idle h ⟨rfl, rfl⟩

theorem pollExpired (h : Q s) (i n : Nat) (st : Station) : Q (pollExpired i n st s) := by
  unfold Machine.pollExpired
  dsimp only
  split
  · exact C.declareFaulty (C.idle h (by exact ⟨rfl, rfl⟩)) i
  · exact C.idle h ⟨rfl, rfl⟩

/-- An alert of a slot leaves the Grant Table and the ALE. -/
theorem alerted (x : State) (c : AlertCategory) (i : Nat) (h : P x) : P (raiseAlert c i x) :=
  C.same_ale h (by simp) (by simp)

/-! ### Commands and steps -/

/-- Every command keeps the law. -/
theorem exec_keeps (i : Instr) (h : Q s) (e : exec i s = .next t) : Q t := by
  have hdemand : ∀ d op it, Q (Machine.demandStep d op it s) := fun d op it => C.demandStep h d op it
  cases i <;> simp only [exec] at e
  case hardReset => cases e; exact C.cleared rfl rfl
  case dropInvalidFrame => cases e; exact C.idle h ⟨rfl, rfl⟩
  case frameForward cls fr => cases e; exact C.unlessOwn h cls fr (C.steer h cls fr)
  case ownFrameStrip fr => cases e; exact C.idle h (.stripOwn fr s)
  case markerReturn input m =>
    unfold execMarkerReturn at e
    split at e <;> cases e
    · exact C.idle h ⟨rfl, rfl⟩
    · exact C.idle h (.markerHome input m s)
  case sample fr => cases e; exact C.unlessOwn h _ fr (C.idle h (.sampleFrame fr s))
  case statusFrame fr => cases e; exact C.unlessOwn h _ fr (C.statusFrame h fr)
  case intercept fr => cases e; exact C.unlessOwn h _ fr (C.commandFrame h fr)
  case acquireShared | acquireExclusive | upgrade | downgrade | refresh | release | yieldDone | reserve | commitIf |
      badItem =>
    cases e; exact hdemand _ _ _
  case malformed d => cases e; exact C.malformedStep h d
  case load m table index cls part contents =>
    cases e; exact C.manage h m _ fun _ ht => C.takeLoad ht table index cls part contents
  case read m table index => cases e; exact C.manage h m _ fun _ ht => takeRead ht table index
  case status m item index => cases e; exact C.manage h m _ fun _ ht => takeStatusItem ht item index
  case start m => cases e; exact C.manage h m _ fun _ ht => C.takeStart ht
  case restart m => cases e; exact C.manage h m _ fun _ _ => C.takeRestart
  case enterConfig m => cases e; exact C.manage h m _ fun _ _ => C.takeRestart
  case holdChannel m n => cases e; exact C.manage h m _ fun _ ht => C.takeHoldChannel ht n
  case freeChannel m n => cases e; exact C.manage h m _ fun _ ht => C.takeFreeChannel ht n
  case returnStation m a => cases e; exact C.manage h m _ fun _ ht => C.takeReturnStation ht a
  case clearSequence m n => cases e; exact C.manage h m _ fun _ ht => C.takeClearSequence ht n
  case clearAlert m category index => cases e; exact C.manage h m _ fun _ ht => C.takeClearAlert ht category index
  case ackOldest m => cases e; exact C.manage h m _ fun _ ht => C.takeAckOldest ht
  case clearCounts m => cases e; exact C.manage h m _ fun _ ht => C.takeClearCounts ht
  case clearLoop m => cases e; exact C.manage h m _ fun _ ht => C.takeClearLoop ht
  case probe m kind r c q => cases e; exact C.manage h m _ fun _ ht => C.takeProbe ht kind r c q m.seq
  case badOperation m op => cases e; exact C.manage h m op fun _ ht => .of _ ht
  case evict | evictAll | demote | freeze | thaw | cap | uncap => cases e; exact C.executeHead h _
  case staleTimerExpiry p =>
    unfold execStaleTimerExpiry at e
    split at e <;> cases e
    · exact h
    · next he => exact C.idle (C.due h he) (.of_ale (by simp) (by simp))
  case leaseExpiry r c =>
    unfold execLeaseExpiry at e
    split at e <;> cases e
    · exact h
    · next he => exact C.ends (C.lapsed (C.begins (C.due h he)) r c)
  case yieldTimerExpiry k =>
    unfold execYieldTimerExpiry at e
    repeat' split at e
    all_goals cases e
    · exact h
    · exact h
    · next he => exact C.ends (C.notice (C.alerted _ _ _ (C.begins (C.due h he))) k)
  case passStart =>
    unfold execPassStart at e
    repeat' split at e
    all_goals cases e
    · exact h
    · next he _ => exact C.ends (C.startPass (C.begins (C.due h he)))
    · exact h
  case passCompletion =>
    unfold execPassCompletion at e
    split at e <;> cases e
    · exact h
    · next hl => exact C.ends (C.completePass (C.begins h) hl)
  case rampExpiry n => cases e; exact C.channelExpiry h _ n (fun _ => by simp) (fun _ => by simp)
  case ackTimeout n => cases e; exact C.channelExpiry h _ n (fun _ => by simp) (fun _ => by simp)
  case refreshTimerExpiry n => cases e; exact C.channelExpiry h _ n (fun _ => by simp) (fun _ => by simp)
  case watchExpiry k =>
    unfold execWatchExpiry at e
    repeat' split at e
    all_goals cases e
    · exact h
    · exact h
    · next he => exact C.ends (C.reports.failSlot C.alerted k (C.begins (C.due h he)))
  case stopDelayExpiry k =>
    unfold execStopDelayExpiry at e
    repeat' split at e
    all_goals cases e
    · exact h
    · exact h
    · next he => exact C.ends (C.reports.stopDelayExpired k (C.begins (C.due h he)))
  case antiCycleExpiry k =>
    unfold execAntiCycleExpiry at e
    repeat' split at e
    all_goals cases e
    · exact h
    · exact h
    · next he => exact C.idle (C.due h he) ⟨rfl, rfl⟩
  case markerTimerExpiry =>
    unfold execMarkerTimerExpiry at e
    split at e <;> cases e
    · exact h
    · next he =>
      have hrestarted : ∀ x : State,
          GrantsSame x { x with lpu.markerTimer := Timer.start x.now x.lpu.markerPeriod } := fun _ => ⟨rfl, rfl⟩
      split
      · exact C.idle (C.due h he) (hrestarted _)
      · exact C.idle (C.due h he) ((hrestarted _).trans (.sendMarkers _))
  case returnWatchExpiry ring =>
    unfold execReturnWatchExpiry at e
    repeat' split at e
    all_goals cases e
    · exact h
    · exact h
    · next he => exact C.idle (C.due h he) (.watchMissed ring _ _)
  case silenceExpiry i =>
    unfold execSilenceExpiry at e
    repeat' split at e
    all_goals cases e
    · exact h
    · exact h
    · next he => exact C.silenceExpired (C.due h he) i _
    · exact h
    · next he => exact C.silenceExpired (C.due h he) i _
    · exact h
    · exact h
  case pollTimeout i =>
    unfold execPollTimeout at e
    repeat' split at e
    all_goals cases e
    · exact h
    · exact h
    · next he => exact C.pollExpired (C.due h he) i _ _
    all_goals exact h

/-- Every step keeps the law: the queued command in front, or the idle step of the clock. -/
theorem step_keeps (h : Q s) (e : step s = .next t) : Q t := by
  unfold step at e
  split at e
  · cases e; exact C.idle h ⟨rfl, rfl⟩
  · next rest _ => exact C.exec_keeps (s := { s with pending := rest }) _ (C.idle h ⟨rfl, rfl⟩) e

end EventClosed

/-- Between events the head of the probe queue stalls, whatever an event does before its test (R84). -/
theorem headLaw_closed : EventClosed (fun _ => True) HeadLaw where
  begins _ := trivial
  ends _ := testHead_law _
  idle h e := h.of_gtb e.gtb
  cleared hgtb _ p rest hp := by rw [hgtb] at hp; cases hp
  kept _ _ := trivial
  ramp _ _ := trivial
  notice _ _ := trivial
  decided _ _ _ _ _ := trivial
  lapsed _ _ _ := trivial
  latched _ := trivial
  completed _ _ := trivial

/-- Settles O56: whatever changes the Grant Table ends in a test of the head, and after a test the head stalls. -/
theorem everyStepKeepsHeadLaw : Obligations.EveryStepKeepsHeadLaw := fun _ _ h e => headLaw_closed.step_keeps h e

end Sys2Proof.Machine
end


-- ==== Sys2Proof/Proofs/GrantLaw.lean ====
section
/-! PROOFS OF OBLIGATIONS. The law of the grants (R63, R96, R109): a holder that has left its standing has g 0, and so has
no latched claim that a completion would write. -/

namespace Sys2Proof.Machine

variable {s t u : State}

/-! ## Rewritten holders and records -/

namespace GrantsKept

theorem setHolder {r c : Nat} {h : Holder} (hstate : h.state = (s.holder r c).state) (hg : h.g = (s.holder r c).g) :
    GrantsKept s (s.setHolder r c h) := by
  refine ⟨fun r' c' => ?_, fun r' c' => ?_, .inl rfl⟩
  all_goals
    rw [holder_setHolder]
    split
    · next e => rw [← e.1, ← e.2.1]; assumption
    · rfl

theorem renew (r c : Nat) (p : Params) (s : State) : GrantsKept s (renew r c p s) := by
  refine ⟨fun r' c' => ?_, fun r' c' => ?_, .inl (by simp)⟩
  all_goals
    rw [renew_holder]
    split
    · next e => rw [e.1, e.2.1]
    · rfl

theorem setRecord (k : Nat) (x : Option Revocation) (s : State) : GrantsKept s (s.setRecord k x) :=
  ⟨fun _ _ => rfl, fun _ _ => rfl, .inl rfl⟩

theorem notify (c : Nat) (l : List Notice) (s : State) : GrantsKept s (notify c l s) :=
  of_same (.of_ale (by simp) (by simp))

end GrantsKept

namespace GrantLaw

theorem kept (h : GrantLaw s) (e : GrantsKept s t) : GrantLaw t := by
  refine ⟨fun r c hleaves => ?_, fun l hl r c x hx hdep => ?_⟩
  · rw [e.grant]
    exact h.1 r c (e.state r c ▸ hleaves)
  · rcases e.pass with hp | hp
    · rw [e.state]
      exact h.2 l (hp ▸ hl) r c x hx hdep
    · rw [hp] at hl; cases hl

theorem same (h : GrantLaw s) (hgtb : t.gtb = s.gtb) (hale : t.ale = s.ale) : GrantLaw t :=
  h.kept (.of_same (.of_ale hgtb hale))

/-! ## Moves -/

/-- A holder that leaves its standing takes g 0, and its latched claim departs (R62, R96). -/
theorem moveHolder (h : GrantLaw s) (r c : Nat) (st : HolderState) : GrantLaw (moveHolder r c st s) := by
  by_cases hst : (s.holder r c).state = st
  · rwa [show Machine.moveHolder r c st s = s by simp [Machine.moveHolder, hst]]
  refine ⟨fun r' c' hleaves => ?_, fun l hl r' c' x hx hdep => ?_⟩
  · rw [moveHolder_holder] at hleaves ⊢
    split at hleaves
    · next e => rw [if_pos e, Holder.enter_g, if_pos (by simpa using hleaves)]
    · next e => rw [if_neg e]; exact h.1 r' c' hleaves
  · by_cases hleaves : st.leaves = true
    · rw [moveHolder_departs hst hleaves] at hl
      obtain ⟨l0, hl0, hclaim⟩ := markDeparted_pass s hl
      rw [moveHolder_holder]
      by_cases e : r = r' ∧ c = c'
      · obtain ⟨rfl, rfl⟩ := e
        rw [markDeparted_departed hl hx] at hdep
        cases hdep
      · rw [if_neg (fun k => e ⟨k.1, k.2.1⟩)]
        rw [hclaim, if_neg e] at hx
        exact h.2 l0 hl0 r' c' x hx hdep
    · have hstays : st.leaves = false := Bool.eq_false_of_not_eq_true hleaves
      rw [moveHolder_pass hstays] at hl
      rw [moveHolder_holder]
      split
      · simpa using hstays
      · exact h.2 l hl r' c' x hx hdep

theorem removePrf (h : GrantLaw s) (r c : Nat) : GrantLaw (removePrf r c s) := h.same rfl rfl

theorem renew (h : GrantLaw s) (r c : Nat) (p : Params) : GrantLaw (renew r c p s) := h.kept (.renew r c p s)

theorem notify (h : GrantLaw s) (c : Nat) (l : List Notice) : GrantLaw (notify c l s) := h.kept (.notify c l s)

/-! ## Records and revocation (R77 to R80) -/

theorem completePrf (h : GrantLaw s) (r : Nat) : GrantLaw (completePrf r s) := by
  rcases completePrf_cases s r with e | ⟨_, -, -, e⟩ <;> rw [e]
  · exact h
  · exact ((h.moveHolder _ _ _).notify _ _).removePrf _ _

theorem freeRecord (h : GrantLaw s) (k : Nat) : GrantLaw (freeRecord k s) := by
  unfold Machine.freeRecord
  split
  · exact h
  · exact ((h.moveHolder _ _ _).kept (.setRecord _ _ _)).completePrf _

theorem rampClear (h : GrantLaw s) (k : Nat) : GrantLaw (rampClear k s) := by
  unfold Machine.rampClear
  dsimp only
  repeat' split
  · exact h
  · exact h.kept (.setRecord _ _ _)
  · exact (h.kept (.setRecord _ _ _)).freeRecord k

theorem noticeClear (h : GrantLaw s) (k : Nat) : GrantLaw (noticeClear k s) := by
  unfold Machine.noticeClear
  dsimp only
  repeat' split
  · exact h
  · exact (h.kept (.setRecord _ _ _)).freeRecord k
  · exact h.kept (.setRecord _ _ _)
  · exact h

theorem revoke (h : GrantLaw s) (cause : Cause) (r c : Nat) : GrantLaw (revoke cause r c s) := by
  unfold Machine.revoke
  exact ((((h.kept (.setRecord _ _ _)).moveHolder r c .yielding).removePrf r c).notify c _).same rfl rfl

theorem revokeAll (h : GrantLaw s) (cause : Cause) (r : Nat) (cs : List Nat) : GrantLaw (revokeAll cause r cs s) :=
  forEach_induct cs h fun c _ _ ht => ht.revoke cause r c

/-! ## Requests (R67 to R75) -/

theorem waitFor (h : GrantLaw s) (level : Level) (r c : Nat) (p : Params) : GrantLaw (waitFor level r c p s) := by
  have htarget := (h.moveHolder r c .waiting).kept
    (.setHolder (r := r) (c := c) (h := { (Machine.moveHolder r c .waiting s).holder r c with target := some level }) rfl
      rfl)
  unfold Machine.waitFor
  exact GrantLaw.renew (htarget.same (by exact rfl) (by exact rfl)) r c p

theorem takeLevel (h : GrantLaw s) (level : Level) (r c : Nat) (p : Params) : GrantLaw (takeLevel level r c p s) :=
  (h.moveHolder r c _).renew r c p

theorem acquireSharedNew (h : GrantLaw s) (r c : Nat) (p : Params) : GrantLaw (acquireSharedNew r c p s).1 := by
  unfold Machine.acquireSharedNew
  dsimp only
  repeat' split
  · exact h
  · exact h
  · exact h.takeLevel _ r c p
  · exact (h.revokeAll _ r _).waitFor _ r c p
  all_goals exact h

theorem acquireExclusiveNew (h : GrantLaw s) (r c : Nat) (p : Params) : GrantLaw (acquireExclusiveNew r c p s).1 := by
  unfold Machine.acquireExclusiveNew
  dsimp only
  repeat' split
  · exact h
  · exact h
  · exact h.waitFor _ r c p
  · exact h
  · exact h.takeLevel _ r c p
  · exact (h.revokeAll _ r _).waitFor _ r c p
  all_goals exact h

theorem decideAcquire (h : GrantLaw s) (level : Level) (r c : Nat) (p : Params) :
    GrantLaw (decideAcquire level r c p s).1 := by
  unfold Machine.decideAcquire
  dsimp only
  repeat' split
  · exact h.acquireSharedNew r c p
  · exact h.acquireExclusiveNew r c p
  · exact h
  · exact h.renew r c p

theorem decideUpgrade (h : GrantLaw s) (r c : Nat) : GrantLaw (decideUpgrade r c s).1 := by
  have hwait : ∀ x, GrantLaw x →
      GrantLaw { Machine.moveHolder r c .upgrading x with
        din.prf := (Machine.moveHolder r c .upgrading x).din.prf ++ [⟨c, r, .exclusive⟩] } := fun x hx =>
    (hx.moveHolder r c .upgrading).same rfl rfl
  unfold Machine.decideUpgrade
  dsimp only
  repeat' split
  · exact h
  · exact h
  · exact h
  · exact hwait _ h
  · exact h
  · exact h.moveHolder r c .exclusive
  · exact hwait _ (h.revokeAll _ r _)
  all_goals exact h

theorem decideYieldDone (h : GrantLaw s) (r c : Nat) : GrantLaw (decideYieldDone r c s).1 := by
  unfold Machine.decideYieldDone
  dsimp only
  repeat' split
  · exact h.noticeClear _
  all_goals exact h

theorem decideRelease (h : GrantLaw s) (r c : Nat) : GrantLaw (decideRelease r c s).1 := by
  unfold Machine.decideRelease
  split
  · exact h
  · exact h.decideYieldDone r c
  · exact (h.removePrf r c).moveHolder r c .none

theorem decideCommitIf (h : GrantLaw s) (level : Level) (generation r c : Nat) (p : Params) :
    GrantLaw (decideCommitIf level generation r c p s).1 := by
  have hconsumed : GrantLaw (s.setClient c { s.client c with reservation := none }) := h.same rfl rfl
  unfold Machine.decideCommitIf
  dsimp only
  split
  · exact hconsumed.decideAcquire level r c p
  · exact hconsumed

theorem decideItem (h : GrantLaw s) (op : ItemOp) (r c : Nat) (p : Params) : GrantLaw (decideItem op r c p s).1 := by
  cases op with
  | acquire level => exact h.decideAcquire level r c p
  | upgrade => exact h.decideUpgrade r c
  | downgrade =>
    simp only [Machine.decideItem, decideDowngrade]
    split
    · exact h.moveHolder r c .shared
    · exact h
  | refresh =>
    simp only [Machine.decideItem, decideRefresh]
    split
    · exact h
    · exact h
    · exact h.renew r c p
  | release => exact h.decideRelease r c
  | yieldDone => exact h.decideYieldDone r c
  | reserve => exact h.same rfl rfl
  | commitIf level generation => exact h.decideCommitIf level generation r c p
  | bad => exact h

/-! ## Leases, probes and passes -/

theorem noteLapse (h : GrantLaw s) (r c : Nat) (kept : Bool) : GrantLaw (noteLapse r c kept s) :=
  h.same (by simp) (by simp)

theorem lapse (h : GrantLaw s) (r c : Nat) : GrantLaw (lapse r c s) := by
  rcases lapse_cases r c s with ⟨-, e⟩ | ⟨-, -, e⟩ | ⟨-, -, -, e⟩ <;> rw [e]
  · exact h
  · exact ((h.removePrf r c).moveHolder r c .none).noteLapse r c false
  · unfold lapseToFallback
    dsimp only
    exact GrantLaw.noteLapse (h.kept (.setHolder (by exact rfl) (by exact rfl))) r c true

theorem evictOne (h : GrantLaw s) (r c : Nat) : GrantLaw (evictOne r c s) := by
  unfold Machine.evictOne
  split
  · exact ((h.removePrf r c).moveHolder r c .none).notify c _
  · exact h.revoke .probe r c
  · exact h.revoke .probe r c
  · exact h.revoke .probe r c
  · exact h
  · exact h

theorem demoteOne (h : GrantLaw s) (r c : Nat) : GrantLaw (demoteOne r c s) := by
  unfold Machine.demoteOne
  split
  · exact (h.moveHolder r c .shared).notify c _
  · exact h

theorem act (h : GrantLaw s) (p : Probe) : GrantLaw (p.act s) := by
  unfold Probe.act
  split
  · unfold doEvict
    split
    · exact h.revoke .probe _ _
    · exact h
  · exact forEach_induct _ h fun c _ _ ht => ht.evictOne _ c
  · exact forEach_induct _ h fun c _ _ ht => ht.demoteOne _ c
  all_goals exact h.kept ⟨fun _ _ => rfl, fun _ _ => rfl, .inl rfl⟩

theorem testHead (h : GrantLaw s) : GrantLaw (testHead s) :=
  testHead_induct h fun t p rest ht _ _ => by
    have hleft : GrantLaw { t with gtb.probes := rest } := ht.kept ⟨fun _ _ => rfl, fun _ _ => rfl, .inl rfl⟩
    exact (hleft.act p).same (by exact rfl) (by exact rfl)

/-- A pass latches the claims of standing holders (R94, R95). -/
theorem latched (h : GrantLaw s) : GrantLaw (latched s) :=
  ⟨h.1, fun l hl r c x hx _ => (latched_claimsStand s l hl r c x hx).2⟩

/-- A completion writes the grants of the claims that have not departed, whose holders stand, and ends the pass (R109). -/
theorem passMoved {l : Table 12 LatchedRecord} (h : GrantLaw s) (hl : s.ale.pass = some l) : GrantLaw (passMoved l s) := by
  have hmoved := passMoved_handed l s
  refine ⟨fun r c hleaves => ?_, fun l' hl' => by rw [hmoved.ended] at hl'; cases hl'⟩
  rw [hmoved.holder_state] at hleaves
  have hzero := h.1 r c hleaves
  by_cases hrc : r < 12 ∧ c < 3
  · rw [hmoved.holder r hrc.1 c hrc.2, writtenGrant]
    split
    · next x hx =>
      split
      · exact hzero
      · next hstays => rw [h.2 l hl r c x hx (Bool.eq_false_of_not_eq_true hstays)] at hleaves; cases hleaves
    · exact hzero
  · rw [holder_beyond _ (by omega)]

theorem of_reset (hgtb : t.gtb = State.reset.gtb) (hpass : t.ale.pass = none) : GrantLaw t :=
  ⟨fun r c _ => by rw [reset_holder t hgtb], fun l hl => by rw [hpass] at hl; cases hl⟩

end GrantLaw

/-- The law of the grants holds at every stage of an event. -/
theorem grantLaw_closed : EventClosed GrantLaw GrantLaw where
  begins h := h
  ends h := h.testHead
  idle h e := h.kept (.of_same e)
  cleared hgtb hpass := .of_reset hgtb hpass
  kept h e := h.kept e
  ramp h k := h.rampClear k
  notice h k := h.noticeClear k
  decided h op r c p := h.decideItem op r c p
  lapsed h r c := h.lapse r c
  latched h := h.latched
  completed h hl := h.passMoved hl

/-- Settles O58: a departure takes g 0 and marks the latched claim, and a completion writes on claims not marked. -/
theorem everyStepKeepsGrantLaw : Obligations.EveryStepKeepsGrantLaw := fun _ _ h e => grantLaw_closed.step_keeps h e

end Sys2Proof.Machine
end


-- ==== Sys2Proof/Proofs/Moves.lean ====
section
/-! SUPPORT. Moves of one holder as statements say them, and the wait of a requester for a level (R54, R55, R62 to R64). -/

namespace Sys2Proof.Machine

variable {s t u : State} {r c : Nat}

/-! ## One holder replaced -/

theorem withHolder_holder (n : Nat) (h : Holder) (hr : r < 12) (hc : c < 3) : (withHolder r c n h s).holder r c = h :=
  holder_setHolder_same s h hr hc

theorem withHolder_other {n r' c' : Nat} {h : Holder} (hne : (r', c') ≠ (r, c)) :
    (withHolder r c n h s).holder r' c' = s.holder r' c' :=
  holder_setHolder_ne s h hne

theorem withHolder_generation (n : Nat) (h : Holder) (r' : Nat) : (withHolder r c n h s).generation r' =
    if r = r' ∧ r' < 12 then (s.generation r + n) % 256 else s.generation r' := Table.get_set _ _ _ _

/-- A holder that moves enters the state, and its claim departs when it leaves its standing (R62, R64, R96). -/
theorem moveHolder_moves {st : HolderState} (hmoves : (s.holder r c).state ≠ st) : moveHolder r c st s =
    if st.leaves then markDeparted r c (withHolder r c 1 ((s.holder r c).enter st) s)
    else withHolder r c 1 ((s.holder r c).enter st) s := by
  simp only [moveHolder, hmoves, if_false]
  rfl

/-- A holder that moves into a standing. -/
theorem moveHolder_stands {st : HolderState} (hmoves : (s.holder r c).state ≠ st) (hst : st.leaves = false) :
    moveHolder r c st s = withHolder r c 1 ((s.holder r c).enter st) s := by
  rw [moveHolder_moves hmoves, hst]
  rfl

/-! ## The pass after a departure (R96) -/

/-- A departure marks in the pass what it marks in any state with that pass. -/
theorem markDeparted_pass_congr (h : t.ale.pass = s.ale.pass) :
    (markDeparted r c t).ale.pass = (markDeparted r c s).ale.pass := by
  unfold markDeparted
  rw [h]
  split
  · next hn => rw [h, hn]
  · rfl

/-! ## A requester that waits -/

/-- Between `s` and `t` the requester's holder has become `h` with a PRF entry for the level at the tail, and its claim, if
it left a standing, has departed (R54, R55, R96). -/
structure Waits (level : Level) (r c : Nat) (h : Holder) (s t : State) : Prop where
  holder : t.holder r c = h
  other : ∀ r' c', (r', c') ≠ (r, c) → t.holder r' c' = s.holder r' c'
  prf : t.din.prf = s.din.prf ++ [⟨c, r, level⟩]
  generation : t.generation r = (s.generation r + 1) % 256
  records : t.gtb.records = s.gtb.records
  sent : t.sent = s.sent
  alc : t.alc = s.alc
  pass : t.ale.pass = s.ale.pass ∨ t.ale.pass = (markDeparted r c s).ale.pass

theorem Holder.renewedBy_congr {h h' : Holder} (it : DemandItem) (e : ClientEntry) (hh : h = h') (hnow : t.now = s.now) :
    h.renewedBy it e t = h'.renewedBy it e s := by
  rw [hh, Holder.renewedBy, Holder.renewedBy, hnow]

/-- The state in which a requester's holder has become `h`, with a PRF entry for the level at the tail. -/
def queuedFor (level : Level) (r c : Nat) (h : Holder) (s : State) : State :=
  { withHolder r c 1 h s with din.prf := s.din.prf ++ [⟨c, r, level⟩] }

theorem queuedFor_waits (level : Level) (h : Holder) (hr : r < 12) (hc : c < 3) :
    Waits level r c h s (queuedFor level r c h s) where
  holder := withHolder_holder 1 h hr hc
  other _ _ hne := withHolder_other hne
  prf := rfl
  generation := (withHolder_generation 1 h r).trans (if_pos ⟨rfl, hr⟩)
  records := rfl
  sent := rfl
  alc := rfl
  pass := .inl rfl

/-- The departure of a claim, and the client's lapse-alert mark, leave what the wait has made. -/
theorem Waits.departed {level : Level} {h : Holder} (w : Waits level r c h s t) (hpass : t.ale.pass = s.ale.pass)
    (c' : Nat) : Waits level r c h s (markRenewed c' (markDeparted r c t)) where
  holder := by simpa [State.holder] using w.holder
  other r' c' hne := by simpa [State.holder] using w.other r' c' hne
  prf := by simpa using w.prf
  generation := by simpa [State.generation] using w.generation
  records := by simpa using w.records
  sent := by simpa using w.sent
  alc := by simpa using w.alc
  pass := .inr (markDeparted_pass_congr hpass)

/-- From NONE a requester waits with the item's parameters and its lease (R67, R68). -/
theorem waitFor_eq {it : DemandItem} {e : ClientEntry} (level : Level) (hr : r < 12) (hc : c < 3)
    (hnone : (s.holder r c).state = .none) (he : (s.client c).entry = some e) :
    waitFor level r c (clampItem it) s = markRenewed c (markDeparted r c (queuedFor level r c
      ({ s.holder r c with state := .waiting, target := some level, g := 0 }.renewedBy it e s) s)) := by
  have hmoves : (s.holder r c).state ≠ .waiting := by simp [hnone]
  unfold waitFor
  dsimp only
  rw [renew_eq (e := e) hr hc, moveHolder_moves hmoves]
  · cases hp : s.ale.pass
    all_goals
      simp only [HolderState.leaves, if_true, markDeparted, queuedFor, withHolder_ale, hp]
      apply State.ext_fields
      simp [markRenewed, withHolder, Holders.get_set, hr, hc, Holder.renewedBy, State.holder, State.client,
        State.setHolder, Holder.enter]
  · simpa [State.client] using he

theorem waitFor_waits {it : DemandItem} {e : ClientEntry} (level : Level) (hr : r < 12) (hc : c < 3)
    (hnone : (s.holder r c).state = .none) (he : (s.client c).entry = some e) :
    Waits level r c ({ s.holder r c with state := .waiting, target := some level, g := 0 }.renewedBy it e s) s
      (waitFor level r c (clampItem it) s) :=
  waitFor_eq level hr hc hnone he ▸ (queuedFor_waits level _ hr hc).departed rfl c

end Sys2Proof.Machine
end


-- ==== Sys2Proof/Proofs/Standings.lean ====
section
/-! PROOFS OF OBLIGATIONS. ACQUIRE_EXCLUSIVE from NONE (R68), UPGRADE (R70), DOWNGRADE (R71), renewals (R69, R72) and RELEASE
(R73). -/

namespace Sys2Proof.Machine

variable {s t : State} {r c : Nat} {d : DemandCtx} {it : DemandItem}

/-! ## The other holders in a state -/

/-- The others in one state, as a request finds them and as statements list them. -/
theorem othersIn_eq (s : State) (r c : Nat) (st : HolderState) :
    ((otherClients c).filter fun c' => (s.holder r c').state == st) = victims s r c [st] := by
  rw [otherClients, List.filter_filter, victims]
  refine List.filter_congr fun c' _ => ?_
  by_cases hc : c' = c <;> simp [hc, beq_eq_decide]

theorem standingOthers_eq (s : State) (r c : Nat) : standingOthers s r c = victims s r c [.shared, .exclusive] := by
  rw [standingOthers, otherClients, List.filter_filter, victims]
  refine List.filter_congr fun c' _ => ?_
  by_cases hc : c' = c <;> simp [hc, beq_eq_decide]

theorem recordNames_false (h : ¬RecordNames s r) : recordNames s r = false :=
  Bool.eq_false_iff.mpr fun hx => h ((recordNames_iff s r).mp hx)

theorem recordNames_true (h : RecordNames s r) : recordNames s r = true := (recordNames_iff s r).mpr h

theorem roomFor_true {n : Nat} (hfree : n ≤ (freeList s).length) (hprf : s.din.prf.length < 8) : roomFor s n = true := by
  have hcount : freeRecords s = (freeList s).length := rfl
  simp [roomFor, hcount, hfree, hprf]

/-! ## ACQUIRE_EXCLUSIVE from NONE (R68), test by test -/

theorem acquireExclusiveNew_frozen (p : Params) (h : s.isFrozen r = true) :
    acquireExclusiveNew r c p s = (s, .denied .frozen) := by simp [acquireExclusiveNew, h]

theorem acquireExclusiveNew_pending (p : Params) (hf : s.isFrozen r = false)
    (h : OtherIn s r c [.waiting, .upgrading]) : acquireExclusiveNew r c p s = (s, .denied .contended) := by
  simp [acquireExclusiveNew, hf, (pendingOther_iff s r c).mpr h]

section Open

variable (hfrozen : s.isFrozen r = false) (hpending : ¬OtherIn s r c [.waiting, .upgrading])
include hfrozen hpending

/-- Past the first two tests the SHARED and EXCLUSIVE others decide, and with none of them the records. -/
theorem acquireExclusiveNew_open (p : Params) : acquireExclusiveNew r c p s =
    if victims s r c [.shared, .exclusive] = [] then
      if recordNames s r then
        if roomFor s 0 then (waitFor .exclusive r c p s, .queued .exclusive) else (s, .busy)
      else (takeLevel .exclusive r c p s, .granted (some .exclusive) 0)
    else if moreUrgent s r p.cls (victims s r c [.shared, .exclusive]) then
      if roomFor s (victims s r c [.shared, .exclusive]).length then
        (waitFor .exclusive r c p (revokeAll .request r (victims s r c [.shared, .exclusive]) s), .queued .exclusive)
      else (s, .busy)
    else (s, .denied .contended) := by
  simp only [acquireExclusiveNew, hfrozen, pendingOther_false_iff.mpr hpending, standingOthers_eq]
  rfl

theorem acquireExclusiveNew_urgent (p : Params) {c' : Nat} (h3 : c' < 3) (hc : c' ≠ c)
    (hx : (s.holder r c').state ∈ [.shared, .exclusive]) (hcls : (s.holder r c').cls ≤ p.cls) :
    acquireExclusiveNew r c p s = (s, .denied .contended) := by
  have hmem : c' ∈ victims s r c [.shared, .exclusive] := mem_victims.mpr ⟨⟨h3, hc⟩, hx⟩
  rw [acquireExclusiveNew_open hfrozen hpending, if_neg (List.ne_nil_of_mem hmem),
    if_neg fun h => absurd (moreUrgent_iff.mp h c' hmem) (Nat.not_lt.mpr hcls)]

theorem acquireExclusiveNew_busy (p : Params) (hv : victims s r c [.shared, .exclusive] ≠ [])
    (hcls : ∀ c' ∈ victims s r c [.shared, .exclusive], p.cls < (s.holder r c').cls)
    (hroom : (freeList s).length < (victims s r c [.shared, .exclusive]).length ∨ 8 ≤ s.din.prf.length) :
    acquireExclusiveNew r c p s = (s, .busy) := by
  rw [acquireExclusiveNew_open hfrozen hpending, if_neg hv, if_pos (moreUrgent_iff.mpr hcls), roomFor_false hroom]
  rfl

theorem acquireExclusiveNew_revokes (p : Params) (hv : victims s r c [.shared, .exclusive] ≠ [])
    (hcls : ∀ c' ∈ victims s r c [.shared, .exclusive], p.cls < (s.holder r c').cls)
    (hfree : (victims s r c [.shared, .exclusive]).length ≤ (freeList s).length) (hprf : s.din.prf.length < 8) :
    acquireExclusiveNew r c p s =
      (waitFor .exclusive r c p (revokeAll .request r (victims s r c [.shared, .exclusive]) s), .queued .exclusive) := by
  rw [acquireExclusiveNew_open hfrozen hpending, if_neg hv, if_pos (moreUrgent_iff.mpr hcls), roomFor_true hfree hprf]
  rfl

section Alone

variable (halone : ¬OtherIn s r c [.shared, .exclusive])
include halone

theorem acquireExclusiveNew_alone (p : Params) (hrec : ¬RecordNames s r) :
    acquireExclusiveNew r c p s = (takeLevel .exclusive r c p s, .granted (some .exclusive) 0) := by
  rw [acquireExclusiveNew_open hfrozen hpending, if_pos (victims_eq_nil.mpr halone), recordNames_false hrec]
  rfl

theorem acquireExclusiveNew_full (p : Params) (hrec : RecordNames s r) (hprf : 8 ≤ s.din.prf.length) :
    acquireExclusiveNew r c p s = (s, .busy) := by
  rw [acquireExclusiveNew_open hfrozen hpending, if_pos (victims_eq_nil.mpr halone), recordNames_true hrec,
    roomFor_false (.inr hprf)]
  rfl

theorem acquireExclusiveNew_waits (p : Params) (hrec : RecordNames s r) (hprf : s.din.prf.length < 8) :
    acquireExclusiveNew r c p s = (waitFor .exclusive r c p s, .queued .exclusive) := by
  rw [acquireExclusiveNew_open hfrozen hpending, if_pos (victims_eq_nil.mpr halone), recordNames_true hrec,
    roomFor_true (Nat.zero_le _) hprf]
  rfl

end Alone

end Open

/-- An item of ACQUIRE_EXCLUSIVE of a holder in NONE is answered as R68 decides it. -/
theorem exec_acquireExclusive_none {x : Decision} (h : ItemPasses d it c s)
    (hnone : ((itemTaken d s).holder it.resource c).state = .none)
    (hx : acquireExclusiveNew it.resource c (clampItem it) (itemTaken d s) = x) :
    exec (.acquireExclusive d it) s = .next (answered d it x) := by
  refine (exec_item (op := .acquire .exclusive) h (by simp)).trans ?_
  rw [decideItem, decideAcquire_exclusive _ hnone, hx]

/-- Settles O15, by the tests of R68 in their order. -/
theorem acquireExclusiveFromNone : Obligations.AcquireExclusiveFromNone := by
  intro d it c e s hitem
  obtain ⟨hpass, hentry⟩ := hitem
  obtain ⟨hr, hc⟩ := hpass.bounds
  intro s0 r hnone
  have hdecided := fun {x} hx => exec_acquireExclusive_none (x := x) hpass hnone hx
  refine ⟨fun hf => hdecided ?_, fun hf => ⟨fun hp => hdecided ?_, fun hp => ⟨fun c' h3 hne hx hcls => hdecided ?_,
    fun hv hcls hroom => hdecided ?_, fun halone => ⟨fun hrec => hdecided ?_, fun hrec hprf => hdecided ?_,
      fun hrec hprf => ?_⟩⟩⟩⟩
  · exact acquireExclusiveNew_frozen _ hf
  · exact acquireExclusiveNew_pending _ hf hp
  · exact acquireExclusiveNew_urgent hf hp _ h3 hne hx hcls
  · exact acquireExclusiveNew_busy hf hp _ hv hcls hroom
  · rw [acquireExclusiveNew_alone hf hp halone _ hrec]
    exact congrArg (·, _) (takeLevel_eq .exclusive hr hc hnone hentry)
  · exact acquireExclusiveNew_full hf hp halone _ hrec hprf
  · have hwaits := waitFor_waits .exclusive hr hc hnone (it := it) hentry
    exact ⟨_, hdecided (acquireExclusiveNew_waits hf hp halone _ hrec hprf), hwaits.holder, hwaits.other, hwaits.prf,
      hwaits.generation, hwaits.records⟩

/-! ## UPGRADE (R70), test by test -/

theorem decideUpgrade_notShared (h : (s.holder r c).state ≠ .shared) : decideUpgrade r c s = (s, .denied .notHeld) := by
  simp [decideUpgrade, h]

theorem decideUpgrade_frozen (h : (s.holder r c).state = .shared) (hf : s.isFrozen r = true) :
    decideUpgrade r c s = (s, .denied .frozen) := by simp [decideUpgrade, h, hf]

theorem decideUpgrade_pending (h : (s.holder r c).state = .shared) (hf : s.isFrozen r = false)
    (hp : OtherIn s r c [.waiting, .upgrading]) : decideUpgrade r c s = (s, .denied .contended) := by
  simp [decideUpgrade, h, hf, (pendingOther_iff s r c).mpr hp]

section Upgrade

variable (hshared : (s.holder r c).state = .shared) (hfrozen : s.isFrozen r = false)
  (hpending : ¬OtherIn s r c [.waiting, .upgrading])
include hshared

/-- A SHARED holder that waits for EXCLUSIVE keeps its parameters and its lease (R70). -/
theorem upgradeWait_eq : { moveHolder r c .upgrading s with
      din.prf := (moveHolder r c .upgrading s).din.prf ++ [⟨c, r, .exclusive⟩] } =
    queuedFor .exclusive r c { s.holder r c with state := .upgrading, target := none } s := by
  rw [moveHolder_stands (by simp [hshared]) rfl]
  rfl

include hfrozen hpending

/-- Past the first three tests the SHARED others decide, and with none of them the records. -/
theorem decideUpgrade_open : decideUpgrade r c s =
    if victims s r c [.shared] = [] then
      if recordNames s r then
        if roomFor s 0 then
          (queuedFor .exclusive r c { s.holder r c with state := .upgrading, target := none } s, .queued .exclusive)
        else (s, .busy)
      else (withHolder r c 1 { s.holder r c with state := .exclusive, target := none } s,
        .granted (some .exclusive) (s.holder r c).g)
    else if moreUrgent s r (s.holder r c).cls (victims s r c [.shared]) then
      if roomFor s (victims s r c [.shared]).length then
        ({ moveHolder r c .upgrading (revokeAll .request r (victims s r c [.shared]) s) with
            din.prf := (moveHolder r c .upgrading (revokeAll .request r (victims s r c [.shared]) s)).din.prf ++
              [⟨c, r, .exclusive⟩] }, .queued .exclusive)
      else (s, .busy)
    else (s, .denied .contended) := by
  have hexclusive : moveHolder r c .exclusive s =
      withHolder r c 1 { s.holder r c with state := .exclusive, target := none } s :=
    moveHolder_stands (by simp [hshared]) rfl
  simp only [decideUpgrade, hshared, hfrozen, pendingOther_false_iff.mpr hpending, othersIn_eq, hexclusive,
    upgradeWait_eq hshared]
  rfl

theorem decideUpgrade_urgent {c' : Nat} (h3 : c' < 3) (hc : c' ≠ c) (hx : (s.holder r c').state = .shared)
    (hcls : (s.holder r c').cls ≤ (s.holder r c).cls) : decideUpgrade r c s = (s, .denied .contended) := by
  have hmem : c' ∈ victims s r c [.shared] := mem_victims.mpr ⟨⟨h3, hc⟩, by simp [hx]⟩
  rw [decideUpgrade_open hshared hfrozen hpending, if_neg (List.ne_nil_of_mem hmem),
    if_neg fun h => absurd (moreUrgent_iff.mp h c' hmem) (Nat.not_lt.mpr hcls)]

theorem decideUpgrade_busy (hv : victims s r c [.shared] ≠ [])
    (hcls : ∀ c' ∈ victims s r c [.shared], (s.holder r c).cls < (s.holder r c').cls)
    (hroom : (freeList s).length < (victims s r c [.shared]).length ∨ 8 ≤ s.din.prf.length) :
    decideUpgrade r c s = (s, .busy) := by
  rw [decideUpgrade_open hshared hfrozen hpending, if_neg hv, if_pos (moreUrgent_iff.mpr hcls), roomFor_false hroom]
  rfl

theorem decideUpgrade_alone (halone : ¬OtherIn s r c [.shared]) (hrec : ¬RecordNames s r) : decideUpgrade r c s =
    (withHolder r c 1 { s.holder r c with state := .exclusive, target := none } s,
      .granted (some .exclusive) (s.holder r c).g) := by
  rw [decideUpgrade_open hshared hfrozen hpending, if_pos (victims_eq_nil.mpr halone), recordNames_false hrec]
  rfl

theorem decideUpgrade_full (halone : ¬OtherIn s r c [.shared]) (hrec : RecordNames s r) (hprf : 8 ≤ s.din.prf.length) :
    decideUpgrade r c s = (s, .busy) := by
  rw [decideUpgrade_open hshared hfrozen hpending, if_pos (victims_eq_nil.mpr halone), recordNames_true hrec,
    roomFor_false (.inr hprf)]
  rfl

theorem decideUpgrade_waits (halone : ¬OtherIn s r c [.shared]) (hrec : RecordNames s r)
    (hprf : s.din.prf.length < 8) : decideUpgrade r c s =
    (queuedFor .exclusive r c { s.holder r c with state := .upgrading, target := none } s, .queued .exclusive) := by
  rw [decideUpgrade_open hshared hfrozen hpending, if_pos (victims_eq_nil.mpr halone), recordNames_true hrec,
    roomFor_true (Nat.zero_le _) hprf]
  rfl

end Upgrade

theorem exec_upgrade {x : Decision} (h : ItemPasses d it c s) (hx : decideUpgrade it.resource c (itemTaken d s) = x) :
    exec (.upgrade d it) s = .next (answered d it x) :=
  hx ▸ exec_item (op := .upgrade) h (by simp)

/-- Settles O17, by the tests of R70 in their order. -/
theorem upgradeDecided : Obligations.UpgradeDecided := by
  intro d it c s hpass s0 r h
  have hdecided := fun {x} hx => exec_upgrade (x := x) hpass hx
  refine ⟨fun hn => hdecided (decideUpgrade_notShared hn), fun hs hf => hdecided (decideUpgrade_frozen hs hf),
    fun hs hf => ⟨fun hp => hdecided (decideUpgrade_pending hs hf hp), fun hp =>
      ⟨fun c' h3 hne hx hcls => hdecided ?_, fun hv hcls hroom => hdecided ?_, fun halone =>
        ⟨fun hrec => hdecided ?_, fun hrec hprf => hdecided ?_, fun hrec hprf => hdecided ?_⟩⟩⟩⟩
  · exact decideUpgrade_urgent hs hf hp h3 hne hx hcls
  · exact decideUpgrade_busy hs hf hp hv hcls hroom
  · exact decideUpgrade_alone hs hf hp halone hrec
  · exact decideUpgrade_full hs hf hp halone hrec hprf
  · exact decideUpgrade_waits hs hf hp halone hrec hprf

/-! ## DOWNGRADE and renewals (R69, R71, R72) -/

theorem decideDowngrade_eq (r c : Nat) (s : State) : decideDowngrade r c s =
    if (s.holder r c).state = .exclusive then
      (withHolder r c 1 { s.holder r c with state := .shared, target := none } s,
        .granted (some .shared) (s.holder r c).g)
    else (s, .denied .notHeld) := by
  unfold decideDowngrade
  dsimp only
  split
  · next h =>
    rw [moveHolder_stands (by simp [h]) rfl]
    rfl
  · rfl

section Renewal

variable {op : ItemOp} (hop : op ∈ [ItemOp.refresh, .acquire .shared, .acquire .exclusive])
include hop

/-- A request of a standing holder renews it (R69, R72). -/
theorem decideItem_renews (p : Params) (h : (s.holder r c).state ∈ [.shared, .exclusive, .upgrading, .waiting]) :
    decideItem op r c p s = (renew r c p s, renewNotice (s.holder r c)) := by
  simp only [List.mem_cons, List.not_mem_nil, or_false] at hop h
  rcases hop with rfl | rfl | rfl
  all_goals rcases h with h | h | h | h <;> simp [decideItem, decideRefresh, decideAcquire, h]

/-- A request of a YIELDING holder is denied (R69, R72). -/
theorem decideItem_yielding (p : Params) (h : (s.holder r c).state = .yielding) :
    decideItem op r c p s = (s, .denied (if op = .refresh then .notHeld else .yielding)) := by
  simp only [List.mem_cons, List.not_mem_nil, or_false] at hop
  rcases hop with rfl | rfl | rfl <;> simp [decideItem, decideRefresh, decideAcquire, h]

end Renewal

/-- Settles O18: `decideDowngrade_eq`, and the renewals by `renew_eq`. -/
theorem standingRenewedOrDowngraded : Obligations.StandingRenewedOrDowngraded := by
  refine ⟨fun d it c s hpass => ?_, fun d it op c e s hitem => ?_⟩
  · intro s0 h
    refine (exec_item (op := .downgrade) hpass (by simp)).trans ?_
    rw [decideItem, decideDowngrade_eq]
  · obtain ⟨hpass, hentry⟩ := hitem
    obtain ⟨hr, hc⟩ := hpass.bounds
    intro s0 r h i hop
    have hbad : op ≠ .bad := by rintro rfl; simp at hop
    have hexec : exec i s = _ := exec_item (op := op) hpass hbad
    refine ⟨fun hs => ?_, fun hs => ?_, fun hs hrefresh => ?_⟩
    · rw [hexec, decideItem_renews hop _ hs, renew_eq (s := s0) (r := r) hr hc hentry]
      refine congrArg (fun n => Host.Outcome.next (answered d it (_, n))) ?_
      change renewNotice h = _
      simp only [List.mem_cons, List.not_mem_nil, or_false] at hs
      rcases hs with hs | hs | hs | hs <;> simp [hs, renewNotice, HolderState.level]
    · rw [hexec, decideItem_yielding hop _ hs]
    · subst hrefresh
      rw [hexec, decideItem, decideRefresh]
      simp only [show ((itemTaken d s).holder it.resource c).state = .none from hs]
      rfl

/-! ## RELEASE (R73) -/

theorem markDeparted_holder (r c r' c' : Nat) (s : State) : (markDeparted r c s).holder r' c' = s.holder r' c' := by
  simp [State.holder]

theorem markDeparted_generation (r c r' : Nat) (s : State) :
    (markDeparted r c s).generation r' = s.generation r' := by simp [State.generation]

theorem LatchedRecord.setClaim_rest (l : LatchedRecord) (c : Nat) (x : Option Claim) :
    { l.setClaim c x with drive := none, pack := none, cab := none } =
      { l with drive := none, pack := none, cab := none } := by
  match c with
  | 0 | 1 | 2 | _ + 3 => rfl

/-- The pass after a departure, record by record (R96). -/
theorem markDeparted_latched {l : Table 12 LatchedRecord} (hl : s.ale.pass = some l) :
    ∃ l', (markDeparted r c s).ale.pass = some l' ∧ ∀ r' c',
      { l'.get r' with drive := none, pack := none, cab := none } =
          { l.get r' with drive := none, pack := none, cab := none } ∧
        (l'.get r').claim c' =
          if r' = r ∧ c' = c then ((l.get r).claim c).map fun x => { x with departed := true }
          else (l.get r').claim c' := by
  have hl' : (markDeparted r c s).ale.pass = some
      (l.set r ((l.get r).setClaim c (((l.get r).claim c).map fun x => { x with departed := true }))) := by
    simp [markDeparted, hl]
  obtain ⟨l0, hl0, hclaim⟩ := markDeparted_pass s hl'
  obtain rfl : l = l0 := Option.some.inj (hl.symm.trans hl0)
  refine ⟨_, hl', fun r' c' => ⟨?_, ?_⟩⟩
  · rw [Table.get_set]
    split
    · next e => rw [LatchedRecord.setClaim_rest, e.1]
    · rfl
  · rw [hclaim]
    by_cases e : r' = r ∧ c' = c
    · rw [if_pos ⟨e.1.symm, e.2.symm⟩, if_pos e, e.1, e.2]
    · rw [if_neg fun x => e ⟨x.1.symm, x.2.symm⟩, if_neg e]

/-- The state in which a holder has been released: NONE, without its PRF entry, its latched claim departed. -/
def released (r c : Nat) (s : State) : State := markDeparted r c (withHolder r c 1 {} (removePrf r c s))

theorem moveHolder_released (h : (s.holder r c).state ≠ .none) :
    moveHolder r c .none (removePrf r c s) = released r c s := moveHolder_moves h

theorem released_holder (hr : r < 12) (hc : c < 3) : (released r c s).holder r c = {} := by
  rw [released, markDeparted_holder, withHolder_holder 1 {} hr hc]

theorem released_other {r' c' : Nat} (hne : (r', c') ≠ (r, c)) : (released r c s).holder r' c' = s.holder r' c' := by
  rw [released, markDeparted_holder, withHolder_other hne]
  rfl

theorem released_generation (r c r' : Nat) (s : State) : (released r c s).generation r' =
    if r = r' ∧ r' < 12 then (s.generation r + 1) % 256 else s.generation r' := by
  rw [released, markDeparted_generation, withHolder_generation]
  rfl

theorem released_pass (r c : Nat) (s : State) : (released r c s).ale.pass = (markDeparted r c s).ale.pass :=
  markDeparted_pass_congr rfl

/-- A release leaves everything but the holder, its generation, the PRF and the pass. -/
@[simp] theorem released_keeps (r c : Nat) (s : State) :
    OnlyRevoke s (released r c s) ∧ (released r c s).sent = s.sent ∧ (released r c s).alc = s.alc ∧
      (released r c s).gtb.records = s.gtb.records ∧
      (released r c s).din.prf = s.din.prf.filter fun x => !(x.client == c && x.resource == r) := by
  simp [released, removePrf]

theorem decideRelease_standing (h : (s.holder r c).state ∈ [.shared, .exclusive, .upgrading, .waiting]) :
    decideRelease r c s = (released r c s, .granted none 0) := by
  rw [← moveHolder_released (by rintro hn; simp [hn] at h)]
  simp only [List.mem_cons, List.not_mem_nil, or_false] at h
  rcases h with h | h | h | h <;> simp [decideRelease, h]

/-- Settles O19: the released state is `decideRelease_standing`'s. -/
theorem releaseEndsStanding : Obligations.ReleaseEndsStanding := by
  intro d it c s hpass s0 r h
  obtain ⟨hr, hc⟩ := hpass.bounds
  have hexec := exec_item (op := .release) hpass (by simp)
  refine ⟨fun hn => hexec.trans ?_, fun hs => ?_⟩
  · rw [decideItem, decideRelease]
    simp only [show ((itemTaken d s).holder it.resource c).state = .none from hn]
    rfl
  · have hreleased : exec (.release d it) s = .next (answered d it (released r c s0, .granted none 0)) :=
      hexec.trans (by rw [decideItem, decideRelease_standing hs])
    change r < 12 at hr
    clear_value s0 r
    refine ⟨_, hreleased, released_holder hr hc, fun r' c' => released_other, ?_, fun r' hne => ?_, by simp,
      fun hnone => ?_, fun l hl => ?_, ?_⟩
    · rw [released_generation, if_pos ⟨rfl, hr⟩]
    · rw [released_generation, if_neg fun e => hne e.1.symm]
    · rw [released_pass, markDeparted_none hnone]
    · rw [released_pass]
      exact markDeparted_latched hl
    · apply State.ext_fields
      simp

end Sys2Proof.Machine
end


-- ==== Sys2Proof/Proofs/Withdrawals.lean ====
section
/-! SUPPORT. Several holders of one resource withdrawn one after another: revoked, each into the lowest record then free
(R77), or cancelled while they wait (R85). -/

namespace Sys2Proof.Machine

variable {s t u : State} {r c : Nat} {cause : Cause}

/-! ## The free records -/

theorem freeRecordNo_eq (s : State) : freeRecordNo s = (freeList s).head? := (List.head?_filter).symm

theorem freeList_nodup (s : State) : (freeList s).Nodup := List.nodup_range.filter _

theorem freeList_congr (h : t.gtb.records = s.gtb.records) : freeList t = freeList s := by
  simp only [freeList, State.record, h]

/-- A revocation takes the lowest free record. -/
theorem revoke_freeList {k : Nat} {rest : List Nat} (h : freeList t = k :: rest) :
    freeList (revoke cause r c t) = rest := by
  have hk : k ∉ rest := (List.nodup_cons.mp (h ▸ freeList_nodup t)).1
  have hno : freeRecordNo t = some k := by rw [freeRecordNo_eq, h]; rfl
  have hleft : ∀ j, ((revoke cause r c t).record j).isNone = ((t.record j).isNone && decide (j ≠ k)) := fun j => by
    rw [revoke_record, hno]
    by_cases hj : k = j
    · simp [hj]
    · simp [hj, Ne.symm hj]
  calc freeList (revoke cause r c t)
      = (List.range 8).filter fun j => (t.record j).isNone && decide (j ≠ k) := by simp only [freeList, hleft]
    _ = (freeList t).filter fun j => decide (j ≠ k) := by
        rw [freeList, List.filter_filter]
        simp only [Bool.and_comm]
    _ = rest := by
        rw [h, List.filter_cons_of_neg (by simp)]
        exact List.filter_eq_self.mpr fun j hj => by
          rw [decide_eq_true_eq]
          rintro rfl
          exact hk hj

/-! ## Departed claims -/

/-- The claims latched for the clients listed have departed. -/
def ClaimsDeparted (r : Nat) (cs : List Nat) (t : State) : Prop :=
  ∀ l, t.ale.pass = some l → ∀ c ∈ cs, ∀ x, (l.get r).claim c = some x → x.departed = true

theorem ClaimsDeparted.of_pass {cs : List Nat} (h : ClaimsDeparted r cs t) (hpass : u.ale.pass = t.ale.pass) :
    ClaimsDeparted r cs u := fun l hl => h l (hpass ▸ hl)

/-- One more departure. -/
theorem ClaimsDeparted.markDeparted {cs : List Nat} (h : ClaimsDeparted r cs t)
    (hpass : u.ale.pass = (markDeparted r c t).ale.pass) : ClaimsDeparted r (cs ++ [c]) u := by
  intro l hl c' hc' x hx
  rw [hpass] at hl
  by_cases e : c' = c
  · rw [e] at hx
    exact markDeparted_departed hl hx
  · obtain ⟨l0, hl0, hclaim⟩ := markDeparted_pass t hl
    rw [hclaim, if_neg fun k => e k.2.symm] at hx
    exact h l0 hl0 c' (by simpa [e] using hc') x hx

theorem ClaimsDeparted.subset {cs cs' : List Nat} (h : ClaimsDeparted r cs t) (hsub : cs' ⊆ cs) :
    ClaimsDeparted r cs' t := fun l hl c hc => h l hl c (hsub hc)

theorem revoke_departs (h : (t.holder r c).state ≠ .yielding) :
    (revoke cause r c t).ale.pass = (markDeparted r c t).ale.pass := by
  have hmoved : ∀ x : State, (∀ r c, x.holder r c = t.holder r c) → x.ale.pass = t.ale.pass →
      (moveHolder r c .yielding x).ale.pass = (markDeparted r c t).ale.pass := fun x hx hpass =>
    (moveHolder_departs (by rw [hx]; exact h) rfl).trans (markDeparted_pass_congr hpass)
  simp only [revoke, countEvent_ale, notify_keeps, removePrf_ale]
  exact hmoved _ (fun _ _ => rfl) rfl

theorem revoke_sent (cause : Cause) (r c : Nat) (t : State) :
    (revoke cause r c t).sent = t.sent ++ revokedFrames t cause r c := by
  simp only [revoke, notify_sends, countEvent_sent, revokedFrames]
  rw [noticeTo_congr (s := t)]
  all_goals simp

/-! ## A withdrawal -/

/-- Between `s` and `t` the holders `rs` of the resource have been revoked in this order and the holders `ws` cancelled,
which has sent the frames `fs`. -/
structure Withdrawn (cause : Cause) (r : Nat) (rs ws : List Nat) (fs : List TxFrame) (s t : State) : Prop where
  only : OnlyRevoke s t
  revoked : HoldersRevoked cause r rs s t
  free : freeList t = (freeList s).drop rs.length
  cancelled : ∀ c ∈ ws, t.holder r c = {}
  other : ∀ r' c', r' ≠ r ∨ (c' ∉ rs ∧ c' ∉ ws) → t.holder r' c' = s.holder r' c'
  prf : t.din.prf = s.din.prf.filter fun y => !(y.resource == r && (rs ++ ws).contains y.client)
  generation : t.generation r =
    if rs.length + ws.length = 0 then s.generation r else (s.generation r + (rs.length + ws.length)) % 256
  generations : ∀ r' ≠ r, t.generation r' = s.generation r'
  sent : t.sent = s.sent ++ fs

theorem Withdrawn.refl (cause : Cause) (r : Nat) (s : State) : Withdrawn cause r [] [] [] s s where
  only := by simp
  revoked := ⟨fun j k c h => by simp at h, fun _ _ => rfl, fun _ h => by simp at h,
    fun h => by simpa using h, fun _ _ _ h => by simp at h⟩
  free := rfl
  cancelled _ h := by simp at h
  other _ _ _ := rfl
  prf := by simp
  generation := rfl
  generations _ _ := rfl
  sent := (List.append_nil _).symm

/-- A generation that moves on once more (R64). -/
theorem generation_succ {g g' n : Nat} (h : g' = if n = 0 then g else (g + n) % 256) :
    (g' + 1) % 256 = if n + 1 = 0 then g else (g + (n + 1)) % 256 := by
  rw [h, if_neg (Nat.succ_ne_zero n)]
  split <;> omega

/-- The PRF without the entry of one more holder. -/
theorem filter_entries (l : List PrfEntry) (cs : List Nat) :
    ((l.filter fun y => !(y.resource == r && cs.contains y.client)).filter fun y => !(y.client == c && y.resource == r)) =
      l.filter fun y => !(y.resource == r && (c :: cs).contains y.client) := by
  rw [List.filter_filter]
  refine List.filter_congr fun y _ => ?_
  by_cases hr : y.resource = r <;> by_cases hc : y.client = c <;> simp [hr, hc]

theorem contains_perm {l l' : List Nat} (h : l.Perm l') (n : Nat) : l.contains n = l'.contains n := by
  simp [h.mem_iff]

namespace Withdrawn

variable {rs ws : List Nat} {fs : List TxFrame}

section Step

variable (w : Withdrawn cause r rs ws fs s t) (hr : r < 12) (hc : c < 3) (hrs : c ∉ rs) (hws : c ∉ ws)
include w

theorem noticeTo_eq (c : Nat) (l : List Notice) : noticeTo t c l = noticeTo s c l := by
  obtain ⟨-, hlpu, -, hstm, -, -, hclients, -⟩ := w.only
  exact noticeTo_congr hlpu hstm hclients c l

include hrs hws

theorem holder_eq : t.holder r c = s.holder r c := w.other r c (.inr ⟨hrs, hws⟩)

theorem revocationOf_eq : revocationOf t cause r c = revocationOf s cause r c := by
  obtain ⟨hnow, -, -, -, -, hcau, -⟩ := w.only
  simp only [revocationOf, w.holder_eq hrs hws, State.resource, hcau, hnow]

theorem revokedFrames_eq : revokedFrames t cause r c = revokedFrames s cause r c := by
  obtain ⟨-, -, -, -, -, hcau, -⟩ := w.only
  simp only [revokedFrames, w.noticeTo_eq, w.holder_eq hrs hws, State.resource, hcau]

include hr hc

/-- One more holder revoked, into the lowest record then free. -/
theorem revoke (hstands : (s.holder r c).state.revocable = true) (hfree : rs.length < (freeList s).length) :
    Withdrawn cause r (rs ++ [c]) ws (fs ++ revokedFrames s cause r c) s (Machine.revoke cause r c t) := by
  have hholder := w.holder_eq hrs hws
  have hyielding : (t.holder r c).state ≠ .yielding := by
    rw [hholder]
    intro h
    rw [h] at hstands
    cases hstands
  have hlist : freeList t = (freeList s)[rs.length] :: (freeList s).drop (rs.length + 1) := by
    rw [w.free, List.drop_eq_getElem_cons hfree]
  have hno : freeRecordNo t = some (freeList s)[rs.length] := by rw [freeRecordNo_eq, hlist]; rfl
  have hrecord : ∀ k, (Machine.revoke cause r c t).record k =
      if (freeList s)[rs.length] = k then some (revocationOf s cause r c) else t.record k := fun k => by
    rw [revoke_record, hno, ← w.revocationOf_eq hrs hws]
    simp only [Option.some.injEq]
    rfl
  have hother : ∀ r' c', (r', c') ≠ (r, c) → (Machine.revoke cause r c t).holder r' c' = t.holder r' c' :=
    fun r' c' hne => by
      rw [revoke_holder, if_neg]
      rintro ⟨rfl, rfl, -⟩
      exact hne rfl
  obtain ⟨hrecords, hrest, hholders, hcount, hclaims⟩ := w.revoked
  refine ⟨?_, ⟨fun j k c' hj hk => ?_, fun k hk => ?_, fun c' hc' => ?_, fun hle => ?_, ?_⟩, ?_, fun c' hc' => ?_,
    fun r' c' hne => ?_, ?_, ?_, fun r' hne => ?_, ?_⟩
  · simpa using w.only
  · rw [hrecord]
    rcases Nat.lt_or_ge j rs.length with hlt | hge
    · rw [List.getElem?_append_left hlt] at hj
      rw [if_neg, hrecords j k c' hj hk]
      rintro rfl
      exact hlt.ne ((List.getElem?_inj (hlt.trans hfree) (freeList_nodup s)).mp
        (hk.trans (List.getElem?_eq_getElem hfree).symm))
    · have hlen : j = rs.length := by
        have := (List.getElem?_eq_some_iff.mp hj).1
        simp at this
        omega
      subst hlen
      rw [List.getElem?_eq_getElem hfree] at hk
      rw [if_pos (Option.some.inj hk)]
      simp at hj
      rw [hj]
  · rw [List.length_append, List.length_singleton, List.take_add_one, List.getElem?_eq_getElem hfree] at hk
    simp only [Option.toList_some, List.mem_append, List.mem_singleton, not_or] at hk
    rw [hrecord, if_neg (Ne.symm hk.2), hrest k hk.1]
  · rcases List.mem_append.mp hc' with hc' | hc'
    · rw [hother r c' (by rintro ⟨⟩; exact hrs hc'), hholders c' hc']
    · obtain rfl := List.mem_singleton.mp hc'
      rw [revoke_holder, if_pos ⟨rfl, rfl, hr, hc, hyielding⟩, hholder]
      rfl
  · rw [revoke_count, if_pos rfl, raised, hcount hle, List.length_append, List.length_singleton]
    omega
  · exact ClaimsDeparted.markDeparted hclaims (revoke_departs hyielding)
  · rw [revoke_freeList hlist]
    simp
  · rw [hother r c' (by rintro ⟨⟩; exact hws hc')]
    exact w.cancelled c' hc'
  · rw [hother r' c', w.other r' c' (by simp at hne; tauto)]
    rintro ⟨⟩
    simp at hne
  · rw [revoke_prf, w.prf, filter_entries]
    have hperm : (c :: (rs ++ ws)).Perm (rs ++ [c] ++ ws) := by simpa using List.perm_middle.symm
    simp only [contains_perm hperm]
  · rw [revoke_generation, if_pos ⟨rfl, hr, hyielding⟩, generation_succ w.generation]
    simp [Nat.add_right_comm]
  · rw [revoke_generation, if_neg fun e => hne e.1.symm, w.generations r' hne]
  · rw [revoke_sent, w.sent, w.revokedFrames_eq hrs hws, List.append_assoc]

/-- One more holder cancelled in its wait (R85). -/
theorem cancel (hwaits : (s.holder r c).state = .waiting) (l : List Notice) :
    Withdrawn cause r rs (ws ++ [c]) (fs ++ noticeTo s c l) s
      (notify c l (moveHolder r c .none (removePrf r c t))) := by
  have hholder := w.holder_eq hrs hws
  have hstays : (t.holder r c).state ≠ .none := by
    rw [hholder, hwaits]
    decide
  have hother : ∀ c' ≠ c, (released r c t).holder r c' = t.holder r c' := fun c' hne =>
    released_other (by simpa using hne)
  obtain ⟨hrecords, hrest, hholders, hcount, hclaims⟩ := w.revoked
  have hnotice : noticeTo (released r c t) c l = noticeTo s c l :=
    (noticeTo_congr (by simp) (by simp) (by simp) c l).trans (w.noticeTo_eq c l)
  rw [moveHolder_released hstays, notify_sends, hnotice]
  refine ⟨?_, ⟨fun j k c' hj hk => ?_, fun k hk => ?_, fun c' hc' => ?_, fun hle => ?_, ?_⟩, ?_, fun c' hc' => ?_,
    fun r' c' hne => ?_, ?_, ?_, fun r' hne => ?_, ?_⟩
  · simpa using w.only
  · simpa [State.record] using hrecords j k c' hj hk
  · simpa [State.record] using hrest k hk
  · exact (hother c' (ne_of_mem_of_not_mem hc' hrs)).trans (hholders c' hc')
  · simpa [State.count] using hcount hle
  · have hdeparted : ClaimsDeparted r (rs ++ [c]) (released r c t) :=
      ClaimsDeparted.markDeparted hclaims (released_pass r c t)
    exact hdeparted.subset (List.subset_append_left rs [c])
  · exact (freeList_congr (by simp)).trans w.free
  · rcases List.mem_append.mp hc' with hc' | hc'
    · exact (hother c' (ne_of_mem_of_not_mem hc' hws)).trans (w.cancelled c' hc')
    · obtain rfl := List.mem_singleton.mp hc'
      exact released_holder hr hc
  · refine (released_other ?_).trans (w.other r' c' (by simp at hne; tauto))
    rintro ⟨⟩
    simp at hne
  · have hperm : (c :: (rs ++ ws)).Perm (rs ++ (ws ++ [c])) := by
      simpa using (List.perm_append_singleton c (rs ++ ws)).symm
    simp only [released_keeps, w.prf, filter_entries, contains_perm hperm]
  · rw [List.length_append, List.length_singleton, ← Nat.add_assoc, ← generation_succ w.generation]
    exact (released_generation r c r t).trans (if_pos ⟨rfl, hr⟩)
  · refine (released_generation r c r' t).trans ?_
    rw [if_neg fun e => hne e.1.symm, w.generations r' hne]
  · simp [w.sent]

end Step

end Withdrawn

/-- Holders of standing revoked in their order (R77). -/
theorem revokeAll_withdrawn (cause : Cause) (hr : r < 12) {cs : List Nat} (hnodup : cs.Nodup)
    (hstand : ∀ c ∈ cs, c < 3 ∧ (s.holder r c).state.revocable = true) (hfree : cs.length ≤ (freeList s).length) :
    Withdrawn cause r cs [] (cs.flatMap (revokedFrames s cause r)) s (revokeAll cause r cs s) := by
  induction cs using List.reverseRecOn with
  | nil => exact .refl cause r s
  | append_singleton cs c ih =>
    have hnew : c ∉ cs := fun h => (List.nodup_append.mp hnodup).2.2 c h c (List.mem_singleton_self c) rfl
    obtain ⟨h3, hrevocable⟩ := hstand c (by simp)
    have hlen : cs.length < (freeList s).length := by simpa using hfree
    have w := ih (List.nodup_append.mp hnodup).1 (fun c' hc' => hstand c' (by simp [hc'])) hlen.le
    have hlast : revokeAll cause r (cs ++ [c]) s = revoke cause r c (revokeAll cause r cs s) := by
      simp [revokeAll, forEach]
    rw [hlast, List.flatMap_append, List.flatMap_singleton]
    exact w.revoke hr h3 hnew (by simp) hrevocable hlen

/-- What EVICT_ALL sends for one holder (R77, R82, R85). -/
def evictedFrames (s : State) (r c : Nat) : List TxFrame :=
  if (s.holder r c).state = .waiting then noticeTo s c [⟨r, .denied .evicted⟩]
  else if (s.holder r c).state.revocable then revokedFrames s .probe r c else []

/-- The holders of clients revoked and cancelled in their order (R85). -/
theorem evictOne_withdrawn (hr : r < 12) {l : List Nat} (hnodup : l.Nodup) (h3 : ∀ c ∈ l, c < 3)
    (hfree : (l.filter fun c => (s.holder r c).state.revocable).length ≤ (freeList s).length) :
    Withdrawn .probe r (l.filter fun c => (s.holder r c).state.revocable)
      (l.filter fun c => decide ((s.holder r c).state = .waiting)) (l.flatMap (evictedFrames s r)) s
      (forEach l (evictOne r) s) := by
  induction l using List.reverseRecOn with
  | nil => exact .refl .probe r s
  | append_singleton l c ih =>
    have hnew : c ∉ l := fun h => (List.nodup_append.mp hnodup).2.2 c h c (List.mem_singleton_self c) rfl
    have hrs : ∀ p : Nat → Bool, c ∉ l.filter p := fun p h => hnew (List.mem_filter.mp h).1
    rw [List.filter_append] at hfree
    have w := ih (List.nodup_append.mp hnodup).1 (fun c' hc' => h3 c' (by simp [hc']))
      ((Nat.le_add_right _ _).trans (List.length_append ▸ hfree))
    have hholder := w.holder_eq (hrs _) (hrs _)
    have hlast : forEach (l ++ [c]) (evictOne r) s = evictOne r c (forEach l (evictOne r) s) := by simp [forEach]
    rw [hlast, List.flatMap_append, List.flatMap_singleton, List.filter_append, List.filter_append, evictOne, hholder,
      evictedFrames]
    have hc3 := h3 c (by simp)
    cases hst : (s.holder r c).state with
    | waiting => simpa [hst, HolderState.revocable] using w.cancel hr hc3 (hrs _) (hrs _) hst _
    | none => simpa [hst, HolderState.revocable] using w
    | yielding => simpa [hst, HolderState.revocable] using w
    | shared | upgrading | exclusive =>
      have hlen : (l.filter fun c => (s.holder r c).state.revocable).length < (freeList s).length := by
        simpa [hst, HolderState.revocable] using hfree
      simpa [hst, HolderState.revocable] using w.revoke hr hc3 (hrs _) (hrs _) (by rw [hst]; rfl) hlen

end Sys2Proof.Machine
end


-- ==== Sys2Proof/Proofs/Revocations.lean ====
section
/-! PROOFS OF OBLIGATIONS. The requests that revoke less urgent holders (R67, R68, R70, R76, R77). -/

namespace Sys2Proof.Machine

variable {s t u : State} {r c : Nat}

/-! ## The holders revoked for a request -/

theorem victims_nodup (s : State) (r c : Nat) (states : List HolderState) : (victims s r c states).Nodup :=
  List.Nodup.filter _ (by decide)

theorem not_mem_victims (s : State) (r c : Nat) (states : List HolderState) : c ∉ victims s r c states := fun h =>
  (mem_victims.mp h).1.2 rfl

/-- The others in a standing are revoked for a request (R77). -/
theorem victims_withdrawn {states : List HolderState} (hr : r < 12) (hstates : ∀ st ∈ states, st.revocable = true)
    (hfree : (victims s r c states).length ≤ (freeList s).length) :
    Withdrawn .request r (victims s r c states) []
      ((victims s r c states).flatMap (revokedFrames s .request r)) s
      (revokeAll .request r (victims s r c states) s) :=
  revokeAll_withdrawn .request hr (victims_nodup s r c states)
    (fun _ hc' => ⟨(mem_victims.mp hc').1.1, hstates _ (mem_victims.mp hc').2⟩) hfree

/-! ## A request that revokes and waits -/

/-- The requester's wait leaves the revocations as they were made. -/
theorem HoldersRevoked.waits {cause : Cause} {cs : List Nat} {level : Level} {h : Holder}
    (a : HoldersRevoked cause r cs s t) (w : Waits level r c h t u) (hc : c ∉ cs) : HoldersRevoked cause r cs s u := by
  obtain ⟨hrecords, hrest, hholders, hcount, hclaims⟩ := a
  have hrecord : ∀ k, u.record k = t.record k := fun k => by simp only [State.record, w.records]
  refine ⟨fun j k c' hj hk => ?_, fun k hk => ?_, fun c' hc' => ?_, fun hle => ?_, ?_⟩
  · rw [hrecord, hrecords j k c' hj hk]
  · rw [hrecord, hrest k hk]
  · rw [w.other r c' (by rintro ⟨⟩; exact hc hc'), hholders c' hc']
  · rw [← hcount hle, State.count, State.count, w.alc]
  · change ClaimsDeparted r cs u
    rcases w.pass with hpass | hpass
    · exact ClaimsDeparted.of_pass hclaims hpass
    · exact (ClaimsDeparted.markDeparted hclaims hpass).subset (List.subset_append_left cs [c])

/-- What a request that revokes `others` and waits for a level as `h` leaves. -/
structure RequestRevokes (level : Level) (r c : Nat) (others : List Nat) (h : Holder) (s t : State) : Prop where
  revoked : HoldersRevoked .request r others s t
  sent : t.sent = s.sent ++ others.flatMap (revokedFrames s .request r)
  holder : t.holder r c = h
  other : ∀ r' c', r' ≠ r ∨ (c' ≠ c ∧ c' ∉ others) → t.holder r' c' = s.holder r' c'
  generation : t.generation r = (s.generation r + others.length + 1) % 256
  prf : t.din.prf = s.din.prf.filter (fun y => !(y.resource == r && others.contains y.client)) ++ [⟨c, r, level⟩]

theorem Withdrawn.waits {others : List Nat} {level : Level} {h : Holder}
    (a : Withdrawn .request r others [] (others.flatMap (revokedFrames s .request r)) s t) (hc : c ∉ others)
    (w : Waits level r c h t u) : RequestRevokes level r c others h s u where
  revoked := a.revoked.waits w hc
  sent := w.sent.trans a.sent
  holder := w.holder
  other r' c' hne := by
    rw [w.other r' c' (by rintro ⟨⟩; simp at hne), a.other r' c' (by simp; tauto)]
  generation := by
    rw [w.generation, generation_succ a.generation, if_neg (Nat.succ_ne_zero _)]
    simp [Nat.add_assoc]
  prf := by simpa [a.prf] using w.prf

section Request

variable {states : List HolderState} (hr : r < 12) (hc : c < 3) (hstates : ∀ st ∈ states, st.revocable = true)
  (hfree : (victims s r c states).length ≤ (freeList s).length)
include hr hc hstates hfree

/-- An acquisition from NONE (R67, R68). -/
theorem acquire_revokes {it : DemandItem} {e : ClientEntry} (level : Level) (hnone : (s.holder r c).state = .none)
    (he : (s.client c).entry = some e) :
    RequestRevokes level r c (victims s r c states)
      ({ s.holder r c with state := .waiting, target := some level, g := 0 }.renewedBy it e s) s
      (waitFor level r c (clampItem it) (revokeAll .request r (victims s r c states) s)) := by
  have a := victims_withdrawn (c := c) hr hstates hfree
  have hown := not_mem_victims s r c states
  have hholder := a.holder_eq hown (by simp)
  obtain ⟨hnow, -, -, -, -, -, hclients, -⟩ := a.only
  have hwaits := waitFor_waits (it := it) level hr hc (hholder ▸ hnone) (by rw [State.client, hclients]; exact he)
  rw [hholder, Holder.renewedBy_congr it e rfl hnow] at hwaits
  exact a.waits hown hwaits

/-- An upgrade (R70). -/
theorem upgrade_revokes (hshared : (s.holder r c).state = .shared) :
    RequestRevokes .exclusive r c (victims s r c states) { s.holder r c with state := .upgrading, target := none } s
      { moveHolder r c .upgrading (revokeAll .request r (victims s r c states) s) with
        din.prf := (moveHolder r c .upgrading (revokeAll .request r (victims s r c states) s)).din.prf ++
          [⟨c, r, .exclusive⟩] } := by
  have a := victims_withdrawn (c := c) hr hstates hfree
  have hown := not_mem_victims s r c states
  have hholder := a.holder_eq hown (by simp)
  rw [upgradeWait_eq (hholder ▸ hshared), hholder]
  exact a.waits hown (queuedFor_waits _ _ hr hc)

end Request

theorem acquireSharedNew_revokes (p : Params) (hf : s.isFrozen r = false) (hp : ¬OtherIn s r c [.waiting, .upgrading])
    (hv : victims s r c [.exclusive] ≠ []) (hcls : ∀ c' ∈ victims s r c [.exclusive], p.cls < (s.holder r c').cls)
    (hfree : (victims s r c [.exclusive]).length ≤ (freeList s).length) (hprf : s.din.prf.length < 8) :
    acquireSharedNew r c p s =
      (waitFor .shared r c p (revokeAll .request r (victims s r c [.exclusive]) s), .queued .shared) := by
  rw [acquireSharedNew_open hf hp, if_neg hv, if_pos (moreUrgent_iff.mpr hcls), roomFor_true hfree hprf]
  rfl

theorem decideUpgrade_revokes (hs : (s.holder r c).state = .shared) (hf : s.isFrozen r = false)
    (hp : ¬OtherIn s r c [.waiting, .upgrading]) (hv : victims s r c [.shared] ≠ [])
    (hcls : ∀ c' ∈ victims s r c [.shared], (s.holder r c).cls < (s.holder r c').cls)
    (hfree : (victims s r c [.shared]).length ≤ (freeList s).length) (hprf : s.din.prf.length < 8) :
    decideUpgrade r c s =
      ({ moveHolder r c .upgrading (revokeAll .request r (victims s r c [.shared]) s) with
          din.prf := (moveHolder r c .upgrading (revokeAll .request r (victims s r c [.shared]) s)).din.prf ++
            [⟨c, r, .exclusive⟩] }, .queued .exclusive) := by
  rw [decideUpgrade_open hs hf hp, if_neg hv, if_pos (moreUrgent_iff.mpr hcls), roomFor_true hfree hprf]
  rfl

/-- Settles O16: each form of request revokes its victims and waits. -/
theorem requestRevokesLessUrgent : Obligations.RequestRevokesLessUrgent := by
  intro d it c e s hitem
  obtain ⟨hpass, hentry⟩ := hitem
  obtain ⟨hr, hc⟩ := hpass.bounds
  intro s0 r h x hx
  simp only [List.mem_cons, List.not_mem_nil, or_false] at hx
  rcases hx with rfl | rfl | rfl <;> intro others urgency level hst hf hp hv hcls hfree hprf
  · have hexec := exec_acquireShared_none hpass hst (acquireSharedNew_revokes _ hf hp hv hcls hfree hprf)
    obtain ⟨h1, h2, h3, h4, h5, h6⟩ := acquire_revokes (it := it) hr hc (by decide) hfree .shared hst hentry
    exact ⟨_, hexec, h1, h2, h3, h4, h5, h6⟩
  · have hexec := exec_acquireExclusive_none hpass hst (acquireExclusiveNew_revokes hf hp _ hv hcls hfree hprf)
    obtain ⟨h1, h2, h3, h4, h5, h6⟩ := acquire_revokes (it := it) hr hc (by decide) hfree .exclusive hst hentry
    exact ⟨_, hexec, h1, h2, h3, h4, h5, h6⟩
  · have hexec := exec_upgrade hpass (decideUpgrade_revokes hst hf hp hv hcls hfree hprf)
    obtain ⟨h1, h2, h3, h4, h5, h6⟩ := upgrade_revokes hr hc (by decide) hfree hst
    exact ⟨_, hexec, h1, h2, h3, h4, h5, h6⟩

end Sys2Proof.Machine
end


-- ==== Sys2Proof/Proofs/Probes.lean ====
section
/-! PROOFS OF OBLIGATIONS. PROBE operations (R83) and the test of the head of the probe queue (R80, R84). -/

namespace Sys2Proof.Machine

variable {s t : State} {r c : Nat}

/-! ## The checks of R83 -/

theorem probeKind_none {kind : Nat} (h : kind = 0 ∨ 7 < kind) : probeKind kind = none := by
  rcases h with rfl | h
  · rfl
  · obtain ⟨n, rfl⟩ := Nat.exists_eq_add_of_le' (show 8 ≤ kind from h)
    rfl

/-- The seven codes of R83. -/
theorem probeKind_some {kind : Nat} (h : ¬(kind = 0 ∨ 7 < kind)) : ∃ k, probeKind kind = some k ∧
    (k = .evict ↔ kind = 1) ∧ (k = .cap ↔ kind = 6) ∧ (k = .uncap ↔ kind = 7) := by
  have hcodes : ∀ n < 8, n ≠ 0 → ∃ k, probeKind n = some k ∧
      (k = .evict ↔ n = 1) ∧ (k = .cap ↔ n = 6) ∧ (k = .uncap ↔ n = 7) := by decide
  exact hcodes kind (by omega) (by omega)

/-- The kinds of resource that admit a probe (R83 check 4). -/
theorem probeKindFits_false {k : ProbeKind} {x : ResKind} : probeKindFits k x = false ↔
    ¬(x = .plain ∨ x = .child ∨ (x = .parent ∧ (k = .cap ∨ k = .uncap))) := by
  cases x <;> simp [probeKindFits]

/-- Settles O35, by the checks of R83 in their order. -/
theorem probesQueuedOrRefused : Obligations.ProbesQueuedOrRefused := by
  intro m kind r c q s hfrom s0 i
  refine ⟨congrArg Host.Outcome.next (manage_from hfrom kind (.of .badValue)), ?_⟩
  refine congrArg Host.Outcome.next ((manage_from hfrom 15 (takeProbe kind r c q m.seq)).trans ?_)
  change conclude m.src m.seq 15 (takeProbe kind r c q m.seq s0) = _
  by_cases hkind : kind = 0 ∨ 7 < kind
  · simp only [takeProbe, probeKind_none hkind, if_pos hkind]
    split
    all_goals rfl
  · obtain ⟨k, hk, hevict, hcap, huncap⟩ := probeKind_some hkind
    simp only [takeProbe, hk, if_neg hkind, hevict, probeKindFits_false, hcap, huncap, Option.getD_some]
    repeat' split
    all_goals rfl

/-! ## The test of the head (R84) -/

/-- The states of a standing, as statements list them. -/
theorem revocable_iff {st : HolderState} :
    st.revocable = true ↔ st ∈ [HolderState.shared, .upgrading, .exclusive] := by cases st <;> decide

theorem revocable_eq (st : HolderState) :
    st.revocable = decide (st ∈ [HolderState.shared, .upgrading, .exclusive]) := by
  rw [Bool.eq_iff_iff, revocable_iff, decide_eq_true_eq]

/-- A live record of the resource has its notice mark set. -/
theorem noticeMarkSet_iff :
    noticeMarkSet s r = true ↔ ∃ k v, s.record k = some v ∧ v.resource = r ∧ v.notice = true := by
  simp only [noticeMarkSet, List.any_eq_true, List.mem_range]
  constructor
  · rintro ⟨k, -, hk⟩
    cases hv : s.record k with
    | none => simp [hv] at hk
    | some v => exact ⟨k, v, hv, by simpa [hv] using hk⟩
  · rintro ⟨k, v, hv, hr, hn⟩
    exact ⟨k, record_lt s hv, by simp [hv, hr, hn]⟩

theorem probeReady_iff {p : Probe} : probeReady s p = true ↔
    (∀ k v, s.record k = some v → v.resource = p.resource → v.notice = false) ∧
      revocationsNeeded s p ≤ (freeList s).length := by
  have hclear : (∀ k v, s.record k = some v → v.resource = p.resource → v.notice = false) ↔
      noticeMarkSet s p.resource = false := by
    rw [← Bool.not_eq_true, noticeMarkSet_iff]
    push Not
    simp only [ne_eq, Bool.not_eq_true]
  have hcount : freeRecords s = (freeList s).length := rfl
  rw [hclear, ← hcount]
  simp [probeReady]

theorem notify_prefix (c : Nat) (l : List Notice) (s : State) : s.sent <+: (notify c l s).sent := by
  rw [notify_sends]
  exact List.prefix_append _ _

theorem revoke_prefix (cause : Cause) (r c : Nat) (s : State) : s.sent <+: (revoke cause r c s).sent := by
  rw [revoke_sent]
  exact List.prefix_append _ _

theorem evictOne_prefix (r c : Nat) (s : State) : s.sent <+: (evictOne r c s).sent := by
  unfold evictOne
  split
  · exact List.IsPrefix.trans (by simp [removePrf]) (notify_prefix c _ (moveHolder r c .none (removePrf r c s)))
  · exact revoke_prefix .probe r c s
  · exact revoke_prefix .probe r c s
  · exact revoke_prefix .probe r c s
  · exact List.prefix_refl _
  · exact List.prefix_refl _

theorem demoteOne_prefix (r c : Nat) (s : State) : s.sent <+: (demoteOne r c s).sent := by
  unfold demoteOne
  split
  · exact List.IsPrefix.trans (by simp) (notify_prefix c _ (moveHolder r c .shared s))
  · exact List.prefix_refl _

/-- What a probe does only adds frames. -/
theorem act_prefix (p : Probe) (s : State) : s.sent <+: (p.act s).sent := by
  unfold Probe.act
  split
  · unfold doEvict
    split
    · exact revoke_prefix .probe _ _ s
    · exact List.prefix_refl _
  · exact forEach_induct (P := fun t => s.sent <+: t.sent) _ (List.prefix_refl _) fun c _ t ht =>
      ht.trans (evictOne_prefix _ c t)
  · exact forEach_induct (P := fun t => s.sent <+: t.sent) _ (List.prefix_refl _) fun c _ t ht =>
      ht.trans (demoteOne_prefix _ c t)
  all_goals exact List.prefix_refl _

/-- The test of the head only adds frames. -/
theorem testHead_prefix (s : State) : s.sent <+: (testHead s).sent :=
  testHead_induct (P := fun t => s.sent <+: t.sent) (List.prefix_refl _) fun t p rest ht _ _ =>
    (ht.trans (act_prefix p { t with gtb.probes := rest })).trans (List.prefix_append _ _)

/-- Settles O36: readiness by `probeReady_iff`, the tests by `testHead_ready` and `testHead_of_law`. -/
theorem headOfProbeQueueTested : Obligations.HeadOfProbeQueueTested := by
  intro s
  refine ⟨testHead_law s, testHead_of_law, fun p rest hq => ?_, testHead_probes s, testHead_resource s, ?_, ?_⟩
  · intro standing needed
    have hneeded : revocationsNeeded s p = needed := by
      simp only [revocationsNeeded, needed, standing, revocable_eq]
    exact ⟨hneeded ▸ probeReady_iff, testHead_ready hq⟩
  · obtain ⟨frames, h⟩ := testHead_prefix s
    exact ⟨frames, h.symm⟩
  · apply State.ext_fields
    simp

end Sys2Proof.Machine
end


-- ==== Sys2Proof/Proofs/ProbeKinds.lean ====
section
/-! PROOFS OF OBLIGATIONS. What the probes of each kind do at the head of the queue (R84 to R87). -/

namespace Sys2Proof.Machine

variable {s t u : State} {r c : Nat} {p : Probe} {rest : List Probe}

/-! ## The execution of the head -/

/-- The head that executes leaves the queue, acts, and is answered DONE. -/
theorem runHead_eq (p : Probe) (rest : List Probe) (s : State) :
    runHead p rest s = { p.act { s with gtb.probes := rest } with
      sent := (p.act { s with gtb.probes := rest }).sent ++
        [⟨originRing s.lpu.loop, s.mgu.manager, .reply p.seq { op := 15, status := .done }⟩] } := by
  obtain ⟨-, hlpu, -, -, -, -, -, -, -, -, -, -, -, -, -, hmgu, -⟩ := act_keeps { s with gtb.probes := rest } p
  simp only [runHead, originate, sendOn, hlpu, hmgu]

theorem executeHead_ready (hq : s.gtb.probes = p :: rest) (hready : probeReady s p = true) :
    executeHead p.kind s = testHead (runHead p rest s) := by simp [executeHead, hq, hready]

theorem executeHead_stalled {k : ProbeKind} (hq : s.gtb.probes = p :: rest)
    (h : p.kind ≠ k ∨ probeReady s p = false) : executeHead k s = s := by
  unfold executeHead
  rw [hq]
  dsimp only
  rw [if_neg]
  rintro ⟨hk, hready⟩
  rcases h with h | h
  · exact h hk
  · rw [h] at hready; cases hready

/-- Each command executes a head of its kind. -/
theorem exec_probeKind (s : State) : ∀ x ∈ [(ProbeKind.freeze, Instr.freeze), (.thaw, .thaw), (.cap, .cap),
    (.uncap, .uncap), (.evict, .evict), (.evictAll, .evictAll), (.demote, .demote)],
      exec x.2 s = .next (executeHead x.1 s) := by
  intro x hx
  simp only [List.mem_cons, List.not_mem_nil, or_false] at hx
  rcases hx with rfl | rfl | rfl | rfl | rfl | rfl | rfl <;> rfl

theorem probeReady_false (h : (∃ k v, s.record k = some v ∧ v.resource = p.resource ∧ v.notice = true) ∨
    freeRecords s < revocationsNeeded s p) : probeReady s p = false := by
  rcases h with h | h
  · simp [probeReady, noticeMarkSet_iff.mpr h]
  · simp [probeReady, h]

theorem probeReady_true (hmarked : ¬∃ k v, s.record k = some v ∧ v.resource = p.resource ∧ v.notice = true)
    (hfree : revocationsNeeded s p ≤ freeRecords s) : probeReady s p = true := by
  have hclear : noticeMarkSet s p.resource = false := by rwa [← Bool.not_eq_true, noticeMarkSet_iff]
  simp [probeReady, hclear, hfree]

/-! ## EVICT (R85) -/

/-- EVICT of a standing holder revokes it. -/
theorem doEvict_withdrawn (hr : p.resource < 12) (hc : p.client < 3)
    (hstands : (s.holder p.resource p.client).state.revocable = true) (hfree : 1 ≤ (freeList s).length) :
    Withdrawn .probe p.resource [p.client] [] (revokedFrames s .probe p.resource p.client) s (doEvict p s) := by
  have w := revokeAll_withdrawn (s := s) .probe hr (List.nodup_singleton p.client) (by simp [hc, hstands]) hfree
  rw [List.flatMap_singleton] at w
  rw [doEvict, if_pos hstands]
  exact w

/-! ## EVICT_ALL (R85) -/

/-- Whether EVICT_ALL changes a holder: it stands, or it waits. -/
theorem evicted_eq (st : HolderState) : decide (st ∈ [HolderState.waiting, .shared, .upgrading, .exclusive]) =
    (st.revocable || decide (st = .waiting)) := by cases st <;> rfl

theorem evicted_length (s : State) (r : Nat) (l : List Nat) :
    (l.filter fun c => decide ((s.holder r c).state ∈ [.waiting, .shared, .upgrading, .exclusive])).length =
      (l.filter fun c => (s.holder r c).state.revocable).length +
        (l.filter fun c => decide ((s.holder r c).state = .waiting)).length := by
  induction l with
  | nil => rfl
  | cons c l ih =>
    simp only [evicted_eq, List.filter_cons] at ih ⊢
    by_cases hs : (s.holder r c).state.revocable = true
    · have hw : (s.holder r c).state ≠ .waiting := by
        intro h
        rw [h] at hs
        cases hs
      simp [hs, hw, ih, Nat.add_right_comm]
    · have hwaiting : HolderState.waiting.revocable = false := rfl
      by_cases hw : (s.holder r c).state = .waiting
      · simp [hw, hwaiting, ih, Nat.add_assoc]
      · simp [hs, hw, ih]

/-- EVICT_ALL revokes the standing holders and cancels a waiting one. -/
theorem doEvictAll_withdrawn (hr : p.resource < 12)
    (hfree : ([0, 1, 2].filter fun c => (s.holder p.resource c).state.revocable).length ≤ (freeList s).length) :
    Withdrawn .probe p.resource ([0, 1, 2].filter fun c => (s.holder p.resource c).state.revocable)
      ([0, 1, 2].filter fun c => decide ((s.holder p.resource c).state = .waiting))
      ([0, 1, 2].flatMap (evictedFrames s p.resource)) s (doEvictAll p s) :=
  evictOne_withdrawn hr (by decide) (by decide) hfree

theorem mem_clients {c : Nat} : c ∈ [0, 1, 2] ↔ c < 3 := by
  simp only [List.mem_cons, List.not_mem_nil, or_false]
  omega

/-- The clients whose holders EVICT_ALL changes. -/
theorem evicted_contains (s : State) (r c : Nat) :
    (([0, 1, 2].filter fun c => (s.holder r c).state.revocable) ++
      [0, 1, 2].filter fun c => decide ((s.holder r c).state = .waiting)).contains c =
      (decide (c < 3) && decide ((s.holder r c).state ∈ [.waiting, .shared, .upgrading, .exclusive])) := by
  rw [Bool.eq_iff_iff, evicted_eq]
  simp only [List.contains_iff_mem, List.mem_append, List.mem_filter, mem_clients, Bool.and_eq_true, Bool.or_eq_true,
    decide_eq_true_eq]
  tauto

theorem evictedFrames_eq (s : State) (r : Nat) : [0, 1, 2].flatMap (evictedFrames s r) = [0, 1, 2].flatMap fun c =>
    if (s.holder r c).state = .waiting then noticeTo s c [⟨r, .denied .evicted⟩]
    else if ([0, 1, 2].filter fun c => (s.holder r c).state.revocable).contains c then revokedFrames s .probe r c
    else [] := by
  refine List.flatMap_congr fun c hc => ?_
  have hmem : ([0, 1, 2].filter fun c => (s.holder r c).state.revocable).contains c = (s.holder r c).state.revocable := by
    rw [Bool.eq_iff_iff, List.contains_iff_mem, List.mem_filter]
    exact and_iff_right hc
  rw [evictedFrames, hmem]

/-- EVICT_ALL as statements say it. -/
theorem doEvictAll_evicts (hr : p.resource < 12)
    (hfree : ([0, 1, 2].filter fun c => (s.holder p.resource c).state.revocable).length ≤ (freeList s).length)
    {revoked : List Nat} (hrevoked : revoked = [0, 1, 2].filter fun c => (s.holder p.resource c).state.revocable) :
    HoldersRevoked .probe p.resource revoked s (doEvictAll p s) ∧
      (∀ c < 3, ((s.holder p.resource c).state = .waiting → (doEvictAll p s).holder p.resource c = {}) ∧
        ((s.holder p.resource c).state ∈ [.none, .yielding] →
          (doEvictAll p s).holder p.resource c = s.holder p.resource c)) ∧
      (doEvictAll p s).din.prf = s.din.prf.filter (fun y => !(y.resource == p.resource && decide (y.client < 3) &&
        decide ((s.holder p.resource y.client).state ∈ [.waiting, .shared, .upgrading, .exclusive]))) ∧
      ((doEvictAll p s).generation p.resource =
        if ([0, 1, 2].filter fun c =>
          decide ((s.holder p.resource c).state ∈ [.waiting, .shared, .upgrading, .exclusive])).length = 0
        then s.generation p.resource
        else (s.generation p.resource + ([0, 1, 2].filter fun c =>
          decide ((s.holder p.resource c).state ∈ [.waiting, .shared, .upgrading, .exclusive])).length) % 256) ∧
      (doEvictAll p s).sent = s.sent ++ [0, 1, 2].flatMap fun c =>
        if (s.holder p.resource c).state = .waiting then noticeTo s c [⟨p.resource, .denied .evicted⟩]
        else if revoked.contains c then revokedFrames s .probe p.resource c else [] := by
  subst hrevoked
  have w := doEvictAll_withdrawn hr hfree
  refine ⟨w.revoked, fun c hc => ⟨fun hs => w.cancelled c ?_, fun hs => w.other _ c (.inr ⟨?_, ?_⟩)⟩, ?_, ?_, ?_⟩
  · exact List.mem_filter.mpr ⟨mem_clients.mpr hc, decide_eq_true hs⟩
  · simp only [List.mem_cons, List.not_mem_nil, or_false] at hs
    rcases hs with hs | hs <;> simp [hs, HolderState.revocable]
  · simp only [List.mem_cons, List.not_mem_nil, or_false] at hs
    rcases hs with hs | hs <;> simp [hs]
  · rw [w.prf]
    simp only [evicted_contains, Bool.and_assoc]
  · rw [w.generation, evicted_length]
  · rw [w.sent, evictedFrames_eq]

/-! ## DEMOTE (R86) -/

/-- Between `s` and `t` the EXCLUSIVE holders `ds` of the resource have become SHARED, each with its notice. -/
structure Demoted (r : Nat) (ds : List Nat) (s t : State) : Prop where
  only : OnlyDemote s t
  ale : t.ale = s.ale
  demoted : ∀ c ∈ ds, t.holder r c = { s.holder r c with state := .shared, target := none }
  other : ∀ r' c', r' ≠ r ∨ c' ∉ ds → t.holder r' c' = s.holder r' c'
  generation : t.generation r = if ds.length = 0 then s.generation r else (s.generation r + ds.length) % 256
  generations : ∀ r' ≠ r, t.generation r' = s.generation r'
  sent : t.sent = s.sent ++ ds.flatMap fun c => noticeTo s c [⟨r, .granted (some .shared) (s.holder r c).g⟩]

theorem Demoted.refl (r : Nat) (s : State) : Demoted r [] s s where
  only := by simp
  ale := rfl
  demoted _ h := by simp at h
  other _ _ _ := rfl
  generation := rfl
  generations _ _ := rfl
  sent := (List.append_nil _).symm

/-- One more holder demoted. -/
theorem Demoted.demoteOne {ds : List Nat} (a : Demoted r ds s t) (hr : r < 12) (hc : c < 3) (hnew : c ∉ ds)
    (hst : (s.holder r c).state = .exclusive) : Demoted r (ds ++ [c]) s (demoteOne r c t) := by
  have hholder := a.other r c (.inr hnew)
  obtain ⟨-, hlpu, -, hstm, -, -, hdin, -⟩ := a.only
  have hnotice : ∀ h l, noticeTo (withHolder r c 1 h t) c l = noticeTo s c l := fun h l =>
    noticeTo_congr hlpu hstm (congrArg Din.clients hdin) c l
  have heq : Machine.demoteOne r c t = { withHolder r c 1 { s.holder r c with state := .shared, target := none } t with
      sent := t.sent ++ noticeTo s c [⟨r, .granted (some .shared) (s.holder r c).g⟩] } := by
    unfold Machine.demoteOne
    rw [if_pos (hholder ▸ hst), moveHolder_stands (by rw [hholder, hst]; decide) rfl, notify_sends,
      hnotice, hholder]
    rfl
  rw [heq]
  refine ⟨a.only, a.ale, fun c' hc' => ?_, fun r' c' hne => ?_, ?_, fun r' hne => ?_, ?_⟩
  · rcases List.mem_append.mp hc' with hc' | hc'
    · refine (withHolder_other ?_).trans (a.demoted c' hc')
      rintro ⟨⟩
      exact hnew hc'
    · obtain rfl := List.mem_singleton.mp hc'
      exact withHolder_holder 1 _ hr hc
  · refine (withHolder_other ?_).trans (a.other r' c' (by simp at hne; tauto))
    rintro ⟨⟩
    simp at hne
  · rw [List.length_append, List.length_singleton, ← generation_succ a.generation]
    exact (withHolder_generation _ _ _).trans (if_pos ⟨rfl, hr⟩)
  · refine (withHolder_generation _ _ _).trans ((if_neg fun e => hne e.1.symm).trans (a.generations r' hne))
  · simp [a.sent]

/-- The holders of clients demoted in their order. -/
theorem demoteOne_demoted (hr : r < 12) {l : List Nat} (hnodup : l.Nodup) (h3 : ∀ c ∈ l, c < 3) :
    Demoted r (l.filter fun c => decide ((s.holder r c).state = .exclusive)) s (forEach l (demoteOne r) s) := by
  induction l using List.reverseRecOn with
  | nil => exact .refl r s
  | append_singleton l c ih =>
    have hnew : c ∉ l := fun h => (List.nodup_append.mp hnodup).2.2 c h c (List.mem_singleton_self c) rfl
    have hds : c ∉ l.filter fun c => decide ((s.holder r c).state = .exclusive) := fun h =>
      hnew (List.mem_filter.mp h).1
    have a := ih (List.nodup_append.mp hnodup).1 fun c' hc' => h3 c' (by simp [hc'])
    have hlast : forEach (l ++ [c]) (demoteOne r) s = demoteOne r c (forEach l (demoteOne r) s) := by simp [forEach]
    rw [hlast, List.filter_append]
    by_cases hst : (s.holder r c).state = .exclusive
    · simpa [hst] using a.demoteOne hr (h3 c (by simp)) hds hst
    · have hstays : demoteOne r c (forEach l (demoteOne r) s) = forEach l (demoteOne r) s := by
        rw [demoteOne, a.other r c (.inr hds), if_neg hst]
      simpa [hst, hstays] using a

/-- DEMOTE makes the EXCLUSIVE holders SHARED. -/
theorem doDemote_demoted (hr : p.resource < 12) :
    Demoted p.resource ([0, 1, 2].filter fun c => decide ((s.holder p.resource c).state = .exclusive)) s
      (doDemote p s) :=
  demoteOne_demoted hr (by decide) (by decide)

/-- DEMOTE as statements say it. -/
theorem doDemote_demotes (hr : p.resource < 12) {demoted : List Nat}
    (hdemoted : demoted = [0, 1, 2].filter fun c => decide ((s.holder p.resource c).state = .exclusive)) :
    (doDemote p s).gtb.records = s.gtb.records ∧ (doDemote p s).din.prf = s.din.prf ∧ (doDemote p s).ale = s.ale ∧
      (doDemote p s).alc = s.alc ∧
      ((doDemote p s).generation p.resource = if demoted.length = 0 then s.generation p.resource
        else (s.generation p.resource + demoted.length) % 256) ∧
      ((doDemote p s).sent = s.sent ++ demoted.flatMap fun c =>
        noticeTo s c [⟨p.resource, .granted (some .shared) (s.holder p.resource c).g⟩]) ∧
      ∀ c < 3, (doDemote p s).holder p.resource c =
        if (s.holder p.resource c).state = .exclusive then
          { s.holder p.resource c with state := .shared, target := none } else s.holder p.resource c := by
  subst hdemoted
  have a := doDemote_demoted (s := s) hr
  refine ⟨by simp, by simp, a.ale, by simp, a.generation, a.sent, fun c hc => ?_⟩
  split
  · next hs => exact a.demoted c (List.mem_filter.mpr ⟨mem_clients.mpr hc, decide_eq_true hs⟩)
  · next hs => exact a.other _ c (.inr (by simp [hs]))

/-! ## The commands -/

/-- What a probe that acts on the holders of resource `r` leaves (R85, R86). -/
structure ActsOn (r : Nat) (s t : State) : Prop where
  probes : t.gtb.probes = s.gtb.probes
  cau : t.cau = s.cau
  frozen : t.gtb.frozen = s.gtb.frozen
  other : ∀ r' c, r' ≠ r → t.holder r' c = s.holder r' c ∧ t.generation r' = s.generation r'

theorem Withdrawn.actsOn {cause : Cause} {rs ws : List Nat} {fs : List TxFrame} (w : Withdrawn cause r rs ws fs s t) :
    ActsOn r s t := by
  obtain ⟨-, -, -, -, -, hcau, -, -, hfrozen, hprobes, -⟩ := w.only
  exact ⟨hprobes, hcau, hfrozen, fun r' c hne => ⟨w.other r' c (.inl hne), w.generations r' hne⟩⟩

theorem Demoted.actsOn {ds : List Nat} (a : Demoted r ds s t) : ActsOn r s t := by
  obtain ⟨-, -, -, -, -, hcau, -, hfrozen, -, hprobes, -⟩ := a.only
  exact ⟨hprobes, hcau, hfrozen, fun r' c hne => ⟨a.other r' c (.inl hne), a.generations r' hne⟩⟩

theorem revoke_actsOn (cause : Cause) (r c : Nat) (s : State) : ActsOn r s (revoke cause r c s) where
  probes := by simp
  cau := by simp
  frozen := by simp
  other r' c' hne := by
    rw [revoke_holder, revoke_generation, if_neg fun e => hne e.1.symm, if_neg fun e => hne e.1.symm]
    exact ⟨rfl, rfl⟩

theorem doEvict_actsOn (p : Probe) (s : State) : ActsOn p.resource s (doEvict p s) := by
  unfold doEvict
  split
  · exact revoke_actsOn _ _ _ s
  · exact ⟨rfl, rfl, rfl, fun _ _ _ => ⟨rfl, rfl⟩⟩

/-- EVICT leaves the other holders of its resource (R85). -/
theorem doEvict_holders (p : Probe) (s : State) (c : Nat) (hne : c ≠ p.client) :
    (doEvict p s).holder p.resource c = s.holder p.resource c := by
  unfold doEvict
  split
  · rw [revoke_holder, if_neg fun e => hne e.2.1.symm]
  · rfl

/-- The command of a head's kind executes it (R84). -/
theorem exec_head {x : ProbeKind × Instr} (hx : x ∈ [(ProbeKind.freeze, Instr.freeze), (.thaw, .thaw), (.cap, .cap),
    (.uncap, .uncap), (.evict, .evict), (.evictAll, .evictAll), (.demote, .demote)]) (hq : s.gtb.probes = p :: rest)
    (hkind : p.kind = x.1) (hready : probeReady s p = true) (hact : p.act { s with gtb.probes := rest } = t) :
    exec x.2 s = .next (testHead { t with
      sent := t.sent ++ [⟨originRing s.lpu.loop, s.mgu.manager, .reply p.seq { op := 15, status := .done }⟩] }) := by
  rw [exec_probeKind s x hx, ← hkind, executeHead_ready hq hready, runHead_eq, hact]

/-- The kinds that need no record (R86, R87). -/
theorem exec_head_free {x : ProbeKind × Instr} (hq : s.gtb.probes = p :: rest)
    (hmarked : ¬∃ k v, s.record k = some v ∧ v.resource = p.resource ∧ v.notice = true) (hkind : p.kind = x.1)
    (hx : x ∈ [(ProbeKind.freeze, Instr.freeze), (.thaw, .thaw), (.cap, .cap), (.uncap, .uncap)])
    (hact : p.act { s with gtb.probes := rest } = t) : exec x.2 s = .next (testHead { t with
      sent := t.sent ++ [⟨originRing s.lpu.loop, s.mgu.manager, .reply p.seq { op := 15, status := .done }⟩] }) := by
  refine exec_head (List.mem_append_left [_, _, _] hx) hq hkind (probeReady_true hmarked ?_) hact
  simp only [List.mem_cons, List.not_mem_nil, or_false] at hx
  rcases hx with rfl | rfl | rfl | rfl <;> simp [revocationsNeeded, hkind]

/-- Settles O37: FREEZE to UNCAP by `exec_head_free`, and the changes of holders by `Withdrawn` and `Demoted`. -/
theorem probesExecute : Obligations.ProbesExecute := by
  intro p rest s hq s0 finished marked standing
  refine ⟨fun x hx h => ?_, fun hmarked => ⟨fun hk => ?_, fun hk => ?_, fun hk => ?_, fun hk => ?_⟩, ?_⟩
  · rw [exec_probeKind s x hx, executeHead_stalled hq (h.imp_right probeReady_false)]
  · exact exec_head_free (x := (.freeze, .freeze)) hq hmarked hk (by simp) (by rw [Probe.act, hk]; rfl)
  · exact exec_head_free (x := (.thaw, .thaw)) hq hmarked hk (by simp) (by rw [Probe.act, hk]; rfl)
  · exact exec_head_free (x := (.cap, .cap)) hq hmarked hk (by simp) (by rw [Probe.act, hk]; rfl)
  · exact exec_head_free (x := (.uncap, .uncap)) hq hmarked hk (by simp) (by rw [Probe.act, hk]; rfl)
  intro changed revoked demoted moved hmarked hfree hr x hx hk
  have hready := probeReady_true hmarked hfree
  have hexec := fun {t} => exec_head (t := t) (List.mem_append_right [_, _, _, _] hx) hq hk hready
  simp only [List.mem_cons, List.not_mem_nil, or_false] at hx
  rcases hx with rfl | rfl | rfl
  · have hacts := doEvict_actsOn p s0
    refine ⟨doEvict p s0, hexec (by rw [Probe.act, hk]), hacts.probes, hacts.cau, hacts.frozen, hacts.other,
      fun _ hc => ⟨fun hs => ?_, fun hs => ?_, fun c _ hne => doEvict_holders p s0 c hne⟩, nofun, nofun⟩
    · have hstands := revocable_iff.mpr hs
      have hone : 1 ≤ freeRecords s := by simpa [revocationsNeeded, hk, hstands] using hfree
      have w := doEvict_withdrawn (s := s0) hr hc hstands hone
      refine ⟨w.revoked, w.prf.trans ?_, w.generation, w.sent⟩
      refine List.filter_congr fun y _ => ?_
      simp [beq_eq_decide]
    · exact if_neg (revocable_iff.not.mpr hs)
  · have hneeded : ([0, 1, 2].filter fun c => (s.holder p.resource c).state.revocable).length ≤ freeRecords s := by
      simpa only [revocationsNeeded, hk] using hfree
    have hrevoked : revoked = [0, 1, 2].filter fun c => (s.holder p.resource c).state.revocable := by
      simp only [revoked, revocable_eq]
    have hacts := (doEvictAll_withdrawn (s := s0) hr hneeded).actsOn
    exact ⟨doEvictAll p s0, hexec (by rw [Probe.act, hk]), hacts.probes, hacts.cau, hacts.frozen, hacts.other, nofun,
      fun _ => doEvictAll_evicts (s := s0) hr hneeded hrevoked, nofun⟩
  · have hacts := (doDemote_demoted (s := s0) hr).actsOn
    exact ⟨doDemote p s0, hexec (by rw [Probe.act, hk]), hacts.probes, hacts.cau, hacts.frozen, hacts.other, nofun,
      nofun, fun _ => doDemote_demotes (s := s0) hr rfl⟩

end Sys2Proof.Machine
end


-- ==== Sys2Proof/Proofs/Idle.lean ====
section
/-! SUPPORT. No operation on the holders, records and probes begins a pass, and no operation on the channels makes one
ACTIVE but the entry into ACTIVE (R92, R136). -/

namespace Sys2Proof.Machine

variable {s t : State}

/-! ## Without a pass none begins -/

theorem freeRecord_pass_none (k : Nat) (h : s.ale.pass = none) : (freeRecord k s).ale.pass = none := by
  unfold freeRecord
  split
  · exact h
  · exact completePrf_pass_none _ (moveHolder_pass_none (s := s) _ _ _ h)

theorem rampClear_pass_none (k : Nat) (h : s.ale.pass = none) : (rampClear k s).ale.pass = none := by
  unfold rampClear
  dsimp only
  repeat' split
  · exact h
  · exact h
  · exact freeRecord_pass_none k h

theorem noticeClear_pass_none (k : Nat) (h : s.ale.pass = none) : (noticeClear k s).ale.pass = none := by
  unfold noticeClear
  dsimp only
  repeat' split
  · exact h
  · exact freeRecord_pass_none k h
  · exact h
  · exact h

theorem revoke_pass_none (cause : Cause) (r c : Nat) (h : s.ale.pass = none) :
    (revoke cause r c s).ale.pass = none := by
  unfold revoke
  simpa using moveHolder_pass_none (s := s.setRecord _ _) r c .yielding h

theorem lapse_pass_none (r c : Nat) (h : s.ale.pass = none) : (lapse r c s).ale.pass = none := by
  rcases lapse_cases r c s with ⟨-, e⟩ | ⟨-, -, e⟩ | ⟨-, -, -, e⟩ <;> rw [e]
  · exact h
  · simpa [lapseToNone] using moveHolder_pass_none (s := removePrf r c s) r c .none h
  · simpa [lapseToFallback] using h

theorem evictOne_pass_none (r c : Nat) (h : s.ale.pass = none) : (evictOne r c s).ale.pass = none := by
  unfold evictOne
  split
  · simpa using moveHolder_pass_none (s := removePrf r c s) r c .none h
  · exact revoke_pass_none .probe r c h
  · exact revoke_pass_none .probe r c h
  · exact revoke_pass_none .probe r c h
  · exact h
  · exact h

theorem demoteOne_pass_none (r c : Nat) (h : s.ale.pass = none) : (demoteOne r c s).ale.pass = none := by
  unfold demoteOne
  split
  · simpa using moveHolder_pass_none r c .shared h
  · exact h

theorem act_pass_none (p : Probe) (h : s.ale.pass = none) : (p.act s).ale.pass = none := by
  have hall {f : Nat → State → State} (hf : ∀ c t, t.ale.pass = none → (f c t).ale.pass = none) :
      (forEach [0, 1, 2] f s).ale.pass = none :=
    forEach_induct (P := fun t => t.ale.pass = none) _ h fun c _ => hf c
  unfold Probe.act
  split
  · unfold doEvict
    split
    · exact revoke_pass_none .probe _ _ h
    · exact h
  · exact hall fun c t => evictOne_pass_none _ c
  · exact hall fun c t => demoteOne_pass_none _ c
  all_goals exact h

theorem testHead_pass_none (h : s.ale.pass = none) : (testHead s).ale.pass = none :=
  testHead_induct (P := fun t => t.ale.pass = none) h fun t p rest ht _ _ => by
    simpa [runHead] using act_pass_none (s := { t with gtb.probes := rest }) p ht

/-! ## Channels out of service -/

/-- No channel is ACTIVE. -/
def Idle (s : State) : Prop := ∀ n ch, s.channel n = some ch → ch.state ≠ .active

theorem QuietLaw.idle (h : QuietLaw s) (hpart : s.mgu.part ≠ .run) : Idle s := (h hpart).2.2

namespace Idle

theorem of_cores (h : Idle s) (hcores : cores t = cores s) : Idle t := by
  intro n ch hch
  obtain ⟨ch', hch', hcore⟩ := channel_of_cores hcores.symm hch
  obtain ⟨-, -, -, -, -, -, hstate, -⟩ := core_fields hcore
  exact hstate ▸ h n ch' hch'

theorem of_chu (h : Idle s) (hchu : t.chu = s.chu) : Idle t := h.of_cores (cores_congr (by rw [hchu]))

theorem setChannel (h : Idle s) {x : Option Channel} (hx : ∀ ch, x = some ch → ch.state ≠ .active) (n : Nat) :
    Idle (s.setChannel n x) := by
  intro m ch hch
  rw [State.channel, setChannel_chu, Table.get_set] at hch
  split at hch
  · exact hx ch hch
  · exact h m ch hch

theorem modifyChannel (h : Idle s) {f : Channel → Channel} (hf : ∀ ch, ch.state ≠ .active → (f ch).state ≠ .active)
    (n : Nat) : Idle (s.modifyChannel n f) := by
  unfold State.modifyChannel
  split
  · exact h
  · next ch hch => exact h.setChannel (by rintro _ ⟨⟩; exact hf ch (h n ch hch)) n

theorem transmit (h : Idle s) {ch : Channel} (hch : ch.state ≠ .active) (n seq setting : Nat) :
    Idle (transmit n ch seq setting s) := by
  unfold Machine.transmit
  exact Idle.setChannel (h.of_chu rfl) (by rintro _ ⟨⟩; exact hch) n

theorem sendNew (h : Idle s) (n setting : Nat) : Idle (sendNew n setting s) := by
  unfold Machine.sendNew
  split
  · exact h
  · next ch hch =>
    dsimp only
    exact h.transmit (by exact h n ch hch) _ _ _

theorem resend (h : Idle s) (n retries : Nat) : Idle (resend n retries s) := by
  intro m ch hch
  obtain ⟨f, hmap, hf⟩ := resend_channel s n retries m
  rw [hmap, Option.map_eq_some_iff] at hch
  obtain ⟨ch', hch', rfl⟩ := hch
  exact (hf ch').1 ▸ h m ch' hch'

theorem channelLoopChange (h : Idle s) (b : Bool) (n : Nat) : Idle (channelLoopChange b n s) := by
  unfold Machine.channelLoopChange
  repeat' split
  · exact h
  · exact h.resend _ _
  · exact h.sendNew _ _
  · exact h
  · exact h

theorem changeLoop (h : Idle s) (new : LoopState) : Idle (changeLoop new s) := by
  unfold Machine.changeLoop chuLoopChange
  exact forEach_induct _ (h.of_chu (by simp)) fun n _ t ht => ht.channelLoopChange _ n

theorem faultChannel (h : Idle s) (n : Nat) (cause : FaultCause) : Idle (faultChannel n cause s) :=
  (h.modifyChannel (f := (·.enterFaulted cause)) (fun _ _ => by simp [Channel.enterFaulted]) n).of_chu
    (by simp [Machine.faultChannel])

theorem chuStationFault (h : Idle s) (a : Nat) : Idle (chuStationFault a s) :=
  forEach_induct _ h fun n _ t ht => ht.modifyChannel (fun ch hch => by
    split
    · simp [Channel.enterFaulted]
    · exact hch) n

/-- Out of RUN no channel returns to ACTIVE (R138, R139). -/
theorem returnChannel (h : Idle s) (n : Nat) : Idle (returnChannel n false s) := by
  unfold Machine.returnChannel
  exact (h.modifyChannel (fun _ _ => by simp) n).modifyChannel (fun _ _ => by simp [Channel.enterHeld]) n

theorem chuStationReturn (h : Idle s) (hpart : s.mgu.part ≠ .run) (a : Nat) : Idle (chuStationReturn a s) := by
  suffices Idle (Machine.chuStationReturn a s) ∧ (Machine.chuStationReturn a s).mgu.part ≠ .run from this.1
  unfold Machine.chuStationReturn
  refine forEach_induct (P := fun t => Idle t ∧ t.mgu.part ≠ .run) _ ⟨h, hpart⟩ fun n _ t ht => ?_
  obtain ⟨hi, hp⟩ := ht
  repeat' split
  · exact ⟨hi, hp⟩
  · have hrun (b : Bool) : (t.mgu.part == .run && b) = false := by rw [beq_eq_false_iff_ne.mpr hp, Bool.false_and]
    rw [hrun]
    exact ⟨hi.returnChannel n, by simpa using hp⟩
  · exact ⟨hi, hp⟩

theorem returnStation (h : Idle s) (hpart : s.mgu.part ≠ .run) (i : Nat) (st : Station) :
    Idle (returnStation i st s) := by
  have hset : Idle (s.setStation i (some (st.goOnline s.now))) := h.of_chu rfl
  rw [Machine.returnStation, stationReturned_eq]
  exact hset.chuStationReturn (by simpa using hpart) _

theorem stationHeard (h : Idle s) (hpart : s.mgu.part ≠ .run) (a : Nat) : Idle (stationHeard a s) := by
  unfold Machine.stationHeard
  repeat' split
  · exact h
  · exact h
  · exact h.returnStation hpart _ _
  all_goals exact h.of_chu rfl

theorem rampExpiry (h : Idle s) (n : Nat) : Idle (rampExpiry n s) := by
  unfold Machine.rampExpiry
  split
  · exact h
  · next ch hch =>
    have hset : Idle (s.setChannel n (some { ch with
        rampTimer := Timer.start s.now ch.rampInterval, current := some (rampStep ch) })) :=
      h.setChannel (by rintro _ ⟨⟩; exact h n ch hch) n
    dsimp only
    split
    · exact hset.sendNew _ _
    · exact hset

theorem refreshExpiry (h : Idle s) (n : Nat) : Idle (refreshExpiry n s) := by
  unfold Machine.refreshExpiry
  split
  · exact h
  · next ch hch =>
    split
    · exact h.sendNew _ _
    · exact h.setChannel (by rintro _ ⟨⟩; exact h n ch hch) n

theorem ackExpiry (h : Idle s) (n : Nat) : Idle (ackExpiry n s) := by
  have hcounted : Idle (countEvent .ackTimeouts s) := h.of_chu rfl
  unfold Machine.ackExpiry
  repeat' split
  · exact h
  · exact h
  · exact hcounted.resend _ _
  · exact hcounted.faultChannel _ _

theorem acknowledge (h : Idle s) {ch : Channel} (hch : ch.state ≠ .active) (n sent : Nat) (e : StatusEntry) :
    Idle (acknowledge n ch sent e s) := by
  have hset : Idle (s.setChannel n
      (some { ch with handshake := .clear, ackTimer := .stopped, lastActual := some (min e.actual 1023) })) :=
    h.setChannel (by rintro _ ⟨⟩; exact hch) n
  unfold Machine.acknowledge
  dsimp only
  repeat' split
  · exact hset.faultChannel _ _
  · exact hset.sendNew _ _
  · exact hset
  · exact hset

theorem takeStatusEntry (h : Idle s) (n : Nat) (e : StatusEntry) : Idle (takeStatusEntry n e s) := by
  unfold Machine.takeStatusEntry
  split
  · exact h
  · next ch hch =>
    repeat' split
    · exact h
    · exact h.acknowledge (h n ch hch) _ _ _
    · exact h.of_chu rfl

end Idle

end Sys2Proof.Machine
end


-- ==== Sys2Proof/Proofs/QuietLaw.lean ====
section
/-! PROOFS OF OBLIGATIONS. The law of the rest (R91, R93, R136): out of RUN no pass runs, the pass timer is stopped
and no channel is ACTIVE. -/

namespace Sys2Proof.Machine

variable {s t : State}

namespace QuietLaw

/-! ## What keeps the law -/

theorem of_run (hpart : t.mgu.part = .run) : QuietLaw t := fun hne => absurd hpart hne

theorem kept (h : QuietLaw s) (hpart : t.mgu.part = s.mgu.part) (htimer : t.ale.passTimer = s.ale.passTimer)
    (hpass : s.ale.pass = none → t.ale.pass = none) (hidle : s.mgu.part ≠ .run → Idle s → Idle t) : QuietLaw t := by
  intro hne
  rw [hpart] at hne
  obtain ⟨hnone, hstopped, hactive⟩ := h hne
  exact ⟨hpass hnone, htimer.trans hstopped, hidle hne hactive⟩

/-- An operation that leaves the ALE. -/
theorem same_ale (h : QuietLaw s) (hpart : t.mgu.part = s.mgu.part) (hale : t.ale = s.ale)
    (hidle : s.mgu.part ≠ .run → Idle s → Idle t) : QuietLaw t :=
  h.kept hpart (by rw [hale]) (fun e => by rw [hale, e]) hidle

/-- An operation that leaves the ALE and the channels. -/
theorem same (h : QuietLaw s) (hpart : t.mgu.part = s.mgu.part) (hale : t.ale = s.ale) (hchu : t.chu = s.chu) :
    QuietLaw t :=
  h.same_ale hpart hale fun _ hi => hi.of_chu hchu

/-- An operation that leaves the channels. -/
theorem same_chu (h : QuietLaw s) (hpart : t.mgu.part = s.mgu.part) (htimer : t.ale.passTimer = s.ale.passTimer)
    (hpass : s.ale.pass = none → t.ale.pass = none) (hchu : t.chu = s.chu) : QuietLaw t :=
  h.kept hpart htimer hpass fun _ hi => hi.of_chu hchu

theorem countEvent (h : QuietLaw s) (c : Count) : QuietLaw (countEvent c s) := h.same rfl rfl rfl

theorem setChannel (h : QuietLaw s) {x : Option Channel} (n : Nat)
    (hx : s.mgu.part ≠ .run → ∀ ch, x = some ch → ch.state ≠ .active) : QuietLaw (s.setChannel n x) :=
  h.same_ale rfl rfl fun hne hi => hi.setChannel (hx hne) n

theorem raiseAlert (h : QuietLaw s) (c : AlertCategory) (i : Nat) : QuietLaw (raiseAlert c i s) :=
  h.same (by simp) (by simp) (by simp)

theorem expire (h : QuietLaw s) {x : Timer} (e : expire x s = some t) : QuietLaw t := by
  obtain ⟨d, -, rfl⟩ := expire_some e
  exact h.same rfl rfl rfl

/-! ## Records, probes and reports -/

theorem rampClear (h : QuietLaw s) (k : Nat) : QuietLaw (rampClear k s) :=
  h.same_chu (by simp) (by simp) (rampClear_pass_none k) (by simp)

theorem noticeClear (h : QuietLaw s) (k : Nat) : QuietLaw (noticeClear k s) :=
  h.same_chu (by simp) (by simp) (noticeClear_pass_none k) (by simp)

theorem lapse (h : QuietLaw s) (r c : Nat) : QuietLaw (lapse r c s) :=
  h.same_chu (by simp) (by simp) (lapse_pass_none r c) (by simp)

theorem testHead (h : QuietLaw s) : QuietLaw (testHead s) :=
  h.same_chu (by simp) (by simp) testHead_pass_none (by simp)

theorem marks : MarkClosed QuietLaw where
  ramp h _ _ := h.rampClear _
  settle h _ _ _ := h.same rfl rfl rfl
  slot _ _ h := h.same rfl rfl rfl
  minimum _ h := h.same_ale (by simp) (by simp) fun _ hi => hi.of_cores (by simp)

theorem reportChanges (h : QuietLaw s) (b : State) : QuietLaw (reportChanges b s) := marks.reports.reportChanges b h

/-! ## Demand items (chapter 3) -/

/-- Out of RUN an item is refused (R44). -/
theorem takeClientItem (h : QuietLaw s) (c : Nat) (op : ItemOp) (it : DemandItem) :
    QuietLaw (takeClientItem c op it s).1 := by
  by_cases hrun : s.mgu.part = .run
  · exact of_run (by simpa using hrun)
  have hrefused : ∃ reason, itemRefusal op it (Machine.countEvent .demandItems s) = some reason := by
    unfold itemRefusal
    split
    · exact ⟨_, rfl⟩
    · split
      · exact ⟨_, rfl⟩
      · exact ⟨_, rfl⟩
      · next hpart => exact absurd hpart hrun
  obtain ⟨reason, hreason⟩ := hrefused
  simp only [Machine.takeClientItem, hreason, countRefusal, NoticeKind.refuses, if_true]
  exact (h.countEvent _).countEvent _

theorem answerItem (h : QuietLaw s) (d : DemandCtx) (n : Notice) : QuietLaw (answerItem d n s) := by
  unfold Machine.answerItem
  dsimp only
  split
  all_goals exact h.same rfl rfl rfl

/-! ## Stations (chapter 9) -/

theorem arrive (h : QuietLaw s) (a : Nat) : QuietLaw (arrive a s) := by
  have hheard : QuietLaw (stationHeard a s) := by
    refine h.same_ale (by simp) ?_ fun hne hi => hi.stationHeard hne a
    unfold stationHeard
    repeat' split
    all_goals simp [returnStation, stationReturned_eq]
  unfold Machine.arrive
  dsimp only
  repeat' split
  · exact h
  · exact hheard.countEvent _
  · exact hheard

theorem openFrame (h : QuietLaw s) (d : DemandCtx) : QuietLaw (openFrame d s) := by
  unfold Machine.openFrame
  split
  · exact (h.arrive _).same rfl rfl rfl
  · exact h

theorem demandStep (h : QuietLaw s) (d : DemandCtx) (op : ItemOp) (it : DemandItem) :
    QuietLaw (demandStep d op it s) := by
  have hopened := h.openFrame d
  unfold Machine.demandStep
  dsimp only
  split
  · exact hopened.countEvent _
  · exact ((hopened.takeClientItem _ op it).answerItem _ _).testHead

theorem malformedStep (h : QuietLaw s) (d : DemandCtx) : QuietLaw (malformedStep d s) := by
  have hopened := h.openFrame d
  have hcounted := hopened.countEvent .demandsDenied
  unfold Machine.malformedStep
  dsimp only
  repeat' split
  · exact hcounted
  · exact hopened
  · exact hcounted.answerItem _ _

theorem takeDemandStep (h : QuietLaw s) (x : DemandCtx × Option (ItemOp × DemandItem)) :
    QuietLaw (takeDemandStep s x) := by
  unfold Machine.takeDemandStep
  split
  · exact h.demandStep _ _ _
  · exact h.malformedStep _

/-! ## Frames (chapter 8) -/

theorem foldl {α : Type} {f : State → α → State} (hf : ∀ t x, QuietLaw t → QuietLaw (f t x)) (l : List α)
    (h : QuietLaw s) : QuietLaw (l.foldl f s) := StepClosed.foldl_keeps hf l h

theorem interceptFrame (h : QuietLaw s) (x : Intercept) (fr : RxFrame) : QuietLaw (interceptFrame x fr s) := by
  have hcounted := h.countEvent .commandsIntercepted
  unfold Machine.interceptFrame
  dsimp only
  repeat' split
  · exact hcounted
  · refine QuietLaw.testHead (foldl (fun t e ht => ?_) _ hcounted)
    unfold convertEntry
    split
    · exact ht.countEvent _
    · exact foldl (fun t m ht => ht.takeClientItem _ _ _) _ ht
  · exact hcounted

theorem passOn (h : QuietLaw s) (cls : Nat) (fr : RxFrame) : QuietLaw (passOn cls fr s) := by
  unfold Machine.passOn
  split
  · exact h
  · exact h.same rfl rfl rfl

theorem steerPlain (h : QuietLaw s) (cls : Nat) (fr : RxFrame) : QuietLaw (steerPlain cls fr s) := by
  unfold Machine.steerPlain
  repeat' split
  all_goals exact h.same rfl rfl rfl

theorem stripOwn (h : QuietLaw s) (fr : OwnFrame) : QuietLaw (stripOwn fr s) := by
  unfold Machine.stripOwn
  split
  all_goals exact h.same rfl rfl rfl

theorem unlessOwn (h : QuietLaw s) (cls : Nat) (fr : RxFrame) {f : State → State} (hf : QuietLaw (f s)) :
    QuietLaw (unlessOwn cls fr f s) := by
  unfold Machine.unlessOwn
  split
  · exact h.stripOwn _
  · exact hf

theorem sampleFrame (h : QuietLaw s) (fr : RxFrame) : QuietLaw (sampleFrame fr s) :=
  (foldl (fun _ _ ht => ht.same (by simp) (by simp) (by simp)) _ (h.arrive _)).passOn _ _

theorem statusFrame (h : QuietLaw s) (fr : RxFrame) : QuietLaw (statusFrame fr s) := by
  refine ((foldl (fun t e ht => ?_) _ (h.arrive _)).passOn _ _).testHead
  unfold takeStatus
  repeat' split
  · exact ht
  · exact ht
  · exact (ht.same_ale (by simp) (by simp) fun _ hi => hi.takeStatusEntry _ e).reportChanges _

theorem commandFrame (h : QuietLaw s) (fr : RxFrame) : QuietLaw (commandFrame fr s) := by
  unfold Machine.commandFrame
  dsimp only
  split
  · exact (h.arrive _).interceptFrame _ fr
  · exact (h.arrive _).steerPlain _ fr

/-! ## Markers and loop states (chapter 8) -/

theorem changeLoop (h : QuietLaw s) (new : LoopState) : QuietLaw (changeLoop new s) :=
  h.same_ale (by simp) (by simp) fun _ hi => hi.changeLoop new

theorem regularMiss (h : QuietLaw s) : QuietLaw (regularMiss s) := by
  have hmissed : QuietLaw { s with lpu.missCount := min 3 (s.lpu.missCount + 1) } := h.same rfl rfl rfl
  unfold Machine.regularMiss
  dsimp only
  repeat' split
  · exact hmissed
  · exact hmissed.changeLoop _
  · exact hmissed.same (by simp) (by simp) (by simp)
  · exact hmissed.changeLoop _
  · exact hmissed.changeLoop _
  · exact hmissed.changeLoop _
  · exact hmissed

theorem decideRound (h : QuietLaw s) (f v : Option LoopState) : QuietLaw (decideRound f v s) := by
  have hended : QuietLaw { s with lpu.round := none } := h.same rfl rfl rfl
  unfold Machine.decideRound
  dsimp only
  repeat' split
  · exact hended.same rfl rfl rfl
  · exact hended
  · exact hended.changeLoop _

theorem pairedEnd (h : QuietLaw s) (ring : Ring) (l : Option LoopState) : QuietLaw (pairedEnd ring l s) := by
  unfold Machine.pairedEnd
  split
  · exact h
  · dsimp only
    split
    · exact h.decideRound _ _
    · exact h.same rfl rfl rfl

theorem judgeReturn (h : QuietLaw s) (role : MarkerRole) (ring : Ring) (l : Option LoopState) :
    QuietLaw (judgeReturn role ring l s) := by
  cases role with
  | regular =>
    simp only [Machine.judgeReturn, regularReturn]
    repeat' split
    · exact h.regularMiss
    · exact h.same rfl rfl rfl
    · exact h.changeLoop _
  | recovery =>
    simp only [Machine.judgeReturn, recoveryReturn]
    split
    · exact h.changeLoop _
    · exact h
  | paired => exact h.pairedEnd _ _

theorem setOutstanding (h : QuietLaw s) (ring : Ring) (x : Option Outstanding) : QuietLaw (setOutstanding ring x s) :=
  h.same (by simp) (by simp) (by simp)

theorem markerHome (h : QuietLaw s) (input : Ring) (m : MarkerFrame) : QuietLaw (markerHome input m s) := by
  have hreturned : ∀ trip, QuietLaw (recordReturn trip m (Machine.setOutstanding m.sentOn none s)) := fun _ =>
    (h.setOutstanding _ _).same rfl rfl rfl
  unfold Machine.markerHome
  repeat' split
  · exact h
  · exact (hreturned _).judgeReturn _ _ _
  · exact h

theorem watchMissed (h : QuietLaw s) (ring : Ring) (role : MarkerRole) : QuietLaw (watchMissed ring role s) := by
  cases role with
  | regular => exact (h.setOutstanding _ _).regularMiss
  | recovery => exact h.setOutstanding _ _
  | paired => exact (h.setOutstanding _ _).pairedEnd _ _

theorem sendMarkers (h : QuietLaw s) : QuietLaw (sendMarkers s) := by
  unfold Machine.sendMarkers
  dsimp only
  repeat' split
  all_goals exact h.same (by simp) (by simp) (by simp)

/-! ## Management operations (chapter 11) -/

theorem manage (h : QuietLaw s) (m : ManageCtx) (code : Nat) {take : State → Answer}
    (ht : ∀ t, QuietLaw t → QuietLaw (take t).state) : QuietLaw (manage m code take s) := by
  have hreply : ∀ a : Answer, QuietLaw a.state → QuietLaw (reply m.src m.seq code a) := by
    intro a ha
    unfold reply
    split
    · exact ha
    · exact ha.same rfl rfl rfl
  have harrived := h.arrive m.src
  unfold Machine.manage
  dsimp only
  split
  · unfold conclude
    split
    · exact (hreply _ (ht _ harrived)).testHead
    · exact hreply _ (ht _ harrived)
  · unfold foreignManage
    split
    · exact harrived
    · exact harrived.countEvent _

/-- RESTART and ENTER-CONFIG leave every channel HELD, the pass abandoned and its timer stopped (R202). -/
theorem restarted (s : State) : QuietLaw (restarted s) := by
  refine fun _ => ⟨rfl, rfl, fun n ch hch => ?_⟩
  have hmap : (Machine.restarted s).channel n = (s.channel n).map Channel.afterRestart :=
    Table.get_mapOption _ _ n
  rw [hmap, Option.map_eq_some_iff] at hch
  obtain ⟨ch', -, rfl⟩ := hch
  simp [Channel.afterRestart]

theorem enterRun (s : State) : QuietLaw (enterRun s) := of_run (by simp [Machine.enterRun])

theorem takeStart (h : QuietLaw s) : QuietLaw (takeStart s).state := by
  unfold Machine.takeStart
  repeat' split
  · exact h
  · exact h
  · exact enterRun s
  · exact h
  · exact enterRun s

theorem takeHoldChannel (h : QuietLaw s) (n : Nat) : QuietLaw (takeHoldChannel n s).state := by
  unfold Machine.takeHoldChannel
  split
  · exact h
  · next ch hch =>
    refine QuietLaw.reportChanges (h.setChannel n fun hne ch' hch' => ?_) _
    cases hch'
    dsimp only
    rw [if_neg (h.idle hne n ch hch)]
    exact h.idle hne n ch hch

theorem takeFreeChannel (h : QuietLaw s) (n : Nat) : QuietLaw (takeFreeChannel n s).state := by
  unfold Machine.takeFreeChannel
  repeat' split
  · exact h
  · exact h
  · exact h
  · next ch _ hch _ =>
    refine QuietLaw.reportChanges (h.same_ale (by simp) (by simp) fun hne hi => ?_) _
    rw [beq_eq_false_iff_ne.mpr hne]
    exact (hi.setChannel (by rintro _ ⟨⟩; exact hch) n).returnChannel n

theorem takeReturnStation (h : QuietLaw s) (a : Nat) : QuietLaw (takeReturnStation a s).state := by
  unfold Machine.takeReturnStation
  repeat' split
  · exact h
  · exact h
  · have hreturned (i : Nat) (st : Station) : QuietLaw (returnStation i st s) :=
      h.same_ale (by simp [returnStation, stationReturned_eq]) (by simp [returnStation, stationReturned_eq])
        fun hne hi => hi.returnStation hne i st
    exact hreturned _ _
  all_goals exact h

theorem takeClearSequence (h : QuietLaw s) (k : Nat) : QuietLaw (takeClearSequence k s).state := by
  unfold Machine.takeClearSequence
  repeat' split
  all_goals exact h.same rfl rfl rfl

theorem takeClearAlert (h : QuietLaw s) (category index : Nat) : QuietLaw (takeClearAlert category index s).state := by
  unfold Machine.takeClearAlert
  repeat' split
  all_goals exact h.same rfl rfl rfl

theorem takeAckOldest (h : QuietLaw s) : QuietLaw (takeAckOldest s).state := by
  unfold Machine.takeAckOldest
  split
  all_goals exact h.same rfl rfl rfl

theorem takeClearCounts (h : QuietLaw s) : QuietLaw (takeClearCounts s).state := by
  unfold Machine.takeClearCounts
  dsimp only
  split
  all_goals exact h.same rfl rfl rfl

theorem takeClearLoop (h : QuietLaw s) : QuietLaw (takeClearLoop s).state := h.same rfl rfl rfl

theorem takeProbe (h : QuietLaw s) (kind r c q seq : Nat) : QuietLaw (takeProbe kind r c q seq s).state := by
  unfold Machine.takeProbe
  repeat' split
  all_goals exact h.same rfl rfl rfl

end QuietLaw

/-! ## Loads (R200) -/

/-- A loaded channel enters HELD (R121). -/
theorem readChannel_held {items : List FieldItem} {ch : Channel} (h : readChannel items = some (some ch)) :
    ch.state = .held := by
  simp only [readChannel, readChannelTunables, Option.bind_eq_bind, Option.bind_eq_some_iff, Option.pure_def] at h
  obtain ⟨kind, -, station, -, output, -, shape, -, minRun, -, tuned, htuned, h⟩ := h
  obtain ⟨slew, -, ramp, -, tolerance, -, ack, -, refresh, -, htuned⟩ := htuned
  cases htuned
  cases kind with
  | none => cases h
  | some k =>
    simp only [Option.bind_eq_some_iff] at h
    obtain ⟨a, -, curve, -, h⟩ := h
    cases h
    rfl

theorem readChannelTunables_state {items : List FieldItem} {ch x : Channel}
    (h : readChannelTunables items ch = some x) : x.state = ch.state := by
  simp only [readChannelTunables, Option.bind_eq_bind, Option.bind_eq_some_iff, Option.pure_def] at h
  obtain ⟨slew, -, ramp, -, tolerance, -, ack, -, refresh, -, h⟩ := h
  cases h
  rfl

namespace QuietLaw

open StepClosed (Keeps keeps_error keeps_ok keeps_orBadValue keeps_withFields keeps_changed)

theorem replaceSlot (h : QuietLaw s) (k : Nat) (x : Option Slot) : QuietLaw (replaceSlot k x s) :=
  QuietLaw.reportChanges (marks.reports.minimums _ (marks.reports.slot _ _ _ h)) _

theorem endFaults (h : QuietLaw s) (b : State) : QuietLaw (endFaults b s) :=
  forEach_induct _ h fun _ _ t ht => by
    rw [stationReturned_eq]
    exact ht.same_ale (by simp) (by simp) fun hne hi => hi.chuStationReturn hne _

theorem loadChannel (h : QuietLaw s) (c : LoadClass) (n : Nat) (items : List FieldItem) :
    Keeps QuietLaw (loadChannel c n items s) := by
  unfold Machine.loadChannel
  split
  · refine keeps_withFields (fun t ht => ?_) _ _
    unfold orBadValue at ht
    split at ht <;> cases ht
    next x hx =>
    refine QuietLaw.reportChanges (h.setChannel n fun _ ch hch => ?_) _
    obtain ⟨ch', rfl, rfl⟩ := Option.map_eq_some_iff.mp hch
    unfold placeChannel
    split
    · simp [Channel.enterFaulted]
    · simp [readChannel_held hx]
  · split
    · exact keeps_error _
    · next ch hch =>
      refine keeps_withFields (fun t ht => ?_) _ _
      unfold orBadValue at ht
      split at ht <;> cases ht
      next x hx =>
      refine QuietLaw.reportChanges (h.setChannel n fun hne y hy => ?_) _
      cases hy
      exact readChannelTunables_state hx ▸ h.idle hne n ch hch

theorem loadSlot (h : QuietLaw s) (c : LoadClass) (k : Nat) (items : List FieldItem) :
    Keeps QuietLaw (loadSlot c k items s) := by
  have hslot : ∀ x, Keeps QuietLaw (.ok (Machine.replaceSlot k x s)) := fun x => keeps_ok (h.replaceSlot k x)
  cases c with
  | structural =>
    refine keeps_withFields (keeps_orBadValue (fun x => ?_) _) _ _
    cases x with
    | none => dsimp only; split; exacts [hslot _, keeps_error _]
    | some sl => dsimp only; split; exacts [hslot _, keeps_error _]
  | tunable =>
    unfold Machine.loadSlot
    dsimp only
    split
    · exact keeps_error _
    · refine keeps_withFields ?_ _ _
      split
      · exact keeps_ok (h.same rfl rfl rfl)
      · exact keeps_error _

theorem loadClient (h : QuietLaw s) (c : LoadClass) (n : Nat) (items : List FieldItem) :
    Keeps QuietLaw (loadClient c n items s) := by
  unfold Machine.loadClient
  repeat' split
  · exact keeps_changed (fun _ => h.same (by exact rfl) (by exact rfl) (by exact rfl)) _ _ _
  · exact keeps_error _
  · exact keeps_changed (fun _ => h.same (by exact rfl) (by exact rfl) (by exact rfl)) _ _ _

theorem loadResource (h : QuietLaw s) (c : LoadClass) (r : Nat) (items : List FieldItem) :
    Keeps QuietLaw (loadResource c r items s) := by
  have hresource : ∀ x, QuietLaw (s.setResource r x) := fun _ => h.same rfl rfl rfl
  unfold Machine.loadResource
  repeat' split
  · exact keeps_orBadValue (fun _ => keeps_ok (hresource _)) _
  · exact keeps_error _
  · exact keeps_ok (hresource _)
  · exact keeps_error _

theorem ownerLoad (h : QuietLaw s) (table index : Nat) (c : LoadClass) (items : List FieldItem) :
    Keeps QuietLaw (ownerLoad table index c items s) := by
  unfold Machine.ownerLoad
  split
  · exact keeps_changed (fun _ => endFaults (h.same (by exact rfl) (by exact rfl) (by exact rfl)) s) _ _ _
  · exact keeps_changed (fun _ => h.same (by exact rfl) (by exact rfl) (by exact rfl)) _ _ _
  · exact keeps_changed (fun _ => h.same (by exact rfl) (by exact rfl) (by exact rfl)) _ _ _
  · cases c
    all_goals exact keeps_changed (fun _ => h.same (by exact rfl) (by exact rfl) (by exact rfl)) _ _ _
  · exact h.loadClient c index items
  · exact h.loadResource c index items
  · exact h.loadChannel c index items
  · exact h.loadSlot c index items
  · exact keeps_changed (fun _ => h.same (by exact rfl) (by exact rfl) (by exact rfl)) _ _ _
  · exact keeps_changed (fun _ => h.same_chu (by exact rfl) (by exact rfl) (by exact fun e => e) (by exact rfl)) _ _ _
  · exact keeps_changed (fun _ => h.same (by exact rfl) (by exact rfl) (by exact rfl)) _ _ _
  · exact keeps_error _

theorem takeLoad (h : QuietLaw s) (table index cls : Nat) (part : PartMark) (contents : List Byte) :
    QuietLaw (takeLoad table index cls part contents s).state := by
  have hheld : ∀ x, QuietLaw { s with mgu.held := x } := fun _ => h.same rfl rfl rfl
  have hdecided : ∀ bytes, Keeps QuietLaw (decideLoad table index cls bytes { s with mgu.held := none }) := by
    intro bytes
    unfold decideLoad
    repeat' split
    · exact keeps_error _
    · exact keeps_error _
    · exact keeps_orBadValue (fun _ => (hheld none).ownerLoad _ _ _ _) _
    · exact keeps_error _
  unfold Machine.takeLoad
  repeat' split
  · exact hheld none
  · dsimp only
    unfold answerLoad
    split
    · next t ht => exact hdecided _ t ht
    · exact hheld none
  · exact hheld _

/-- A MANAGE operation of any code. -/
theorem operationOf (h : QuietLaw s) (seq : Nat) (payload : List Byte) {take : State → Answer}
    (e : (operationOf seq payload).2 = take) : QuietLaw (take s).state := by
  unfold Machine.operationOf at e
  split at e
  · exact e ▸ h
  · dsimp only at e
    split at e <;> subst e
    · exact h.takeLoad _ _ _ _ _
    · exact StepClosed.takeRead h _ _
    · exact StepClosed.takeStatusItem h _ _
    · exact h.takeStart
    · exact restarted s
    · exact restarted s
    · exact h.takeHoldChannel _
    · exact h.takeFreeChannel _
    · exact h.takeReturnStation _
    · exact h.takeClearSequence _
    · exact h.takeClearAlert _ _
    · exact h.takeAckOldest
    · exact h.takeClearCounts
    · exact h.takeClearLoop
    · exact h.takeProbe _ _ _ _ _
    · exact h

theorem steer (h : QuietLaw s) (cls : Nat) (fr : RxFrame) : QuietLaw (steer cls fr s) := by
  unfold Machine.steer
  repeat' split
  · exact h.sampleFrame fr
  · exact h.statusFrame fr
  · exact h.commandFrame fr
  · exact foldl (fun _ x ht => ht.takeDemandStep x) _ h
  · exact h.manage _ _ fun _ ht => ht.operationOf _ _ rfl
  · exact (h.arrive _).steerPlain _ _

/-! ## Passes, channels and declarations -/

theorem executeHead (h : QuietLaw s) (k : ProbeKind) : QuietLaw (executeHead k s) := by
  unfold Machine.executeHead
  split
  · exact h
  · next hq =>
    split
    · next hready => exact testHead_ready hq hready.2 ▸ h.testHead
    · exact h

theorem channelExpiry (h : QuietLaw s) (timer : Channel → Timer) {act : Nat → State → State} (n : Nat)
    (hact : ∀ t, QuietLaw t → QuietLaw (act n t)) : QuietLaw (channelExpiry timer act n s) := by
  unfold Machine.channelExpiry
  repeat' split
  · exact h
  · exact h
  · next he => exact ((hact _ (h.expire he)).reportChanges _).testHead
  · exact h

/-- A completion leaves no pass, and the channels in their states (R92, R126). -/
theorem completePass (h : QuietLaw s) (l : Table 12 LatchedRecord) : QuietLaw (completePass l s) := by
  have hhanded := passMoved_handed l s
  have hmoved : QuietLaw (passMoved l s) :=
    h.kept (by simp [passMoved, passTold]) hhanded.passTimer (fun _ => hhanded.ended) fun _ hi =>
      (hi.of_cores (t := chuTakeResults l (computePass l) s) (by simp)).of_chu hhanded.chu
  exact completePass_eq l s ▸ marks.completed hmoved _

theorem gtbStationFault (h : QuietLaw s) (a : Nat) : QuietLaw (gtbStationFault a s) := by
  unfold Machine.gtbStationFault
  refine forEach_induct _ h fun k _ t ht => ?_
  repeat' split
  · exact ht.noticeClear k
  · exact ht
  · exact ht

/-- The entry into HALTED abandons the pass, stops its timer and holds every ACTIVE channel (R91, R93, R136). -/
theorem enterHalted (s : State) : QuietLaw (enterHalted s) := by
  obtain ⟨-, -, hpass, htimer, hchannel, -⟩ := enterHalted_spec s
  refine fun _ => ⟨hpass, htimer, fun n ch hch => ?_⟩
  rw [hchannel, Option.map_eq_some_iff] at hch
  obtain ⟨ch', -, rfl⟩ := hch
  split
  · simp [Channel.enterHeld]
  · assumption

theorem mguStationFault (h : QuietLaw s) : QuietLaw (mguStationFault s) := by
  unfold Machine.mguStationFault
  split
  · exact enterHalted s
  · exact h

theorem declareFaulty (h : QuietLaw s) (i : Nat) : QuietLaw (declareFaulty i s) := by
  cases hst : s.station i with
  | none => simpa [Machine.declareFaulty, hst] using h
  | some st =>
    have hpoints : QuietLaw (pointsDeclared i st s) :=
      h.same (by simp [pointsDeclared]) (by simp [pointsDeclared]) (by simp [pointsDeclared])
    have hchannels : QuietLaw (channelsDeclared i st s) :=
      QuietLaw.reportChanges (hpoints.same_ale (by simp) (by simp) fun _ hi => hi.chuStationFault st.address) _
    have hleases : QuietLaw (leasesDeclared i st s) := dinStationFault_induct st.address hchannels
      (fun r c _ t ht => ht.lapse r c) fun c t ht => ht.same rfl rfl rfl
    rw [declareFaulty_eq hst]
    exact (hleases.gtbStationFault _).mguStationFault.testHead

theorem silenceExpired (h : QuietLaw s) (i : Nat) (st : Station) : QuietLaw (silenceExpired i st s) := by
  unfold Machine.silenceExpired
  dsimp only
  split
  · exact declareFaulty (h.same (by exact rfl) (by exact rfl) (by exact rfl)) i
  · exact h.same rfl rfl rfl

theorem pollExpired (h : QuietLaw s) (i n : Nat) (st : Station) : QuietLaw (pollExpired i n st s) := by
  unfold Machine.pollExpired
  dsimp only
  split
  · exact declareFaulty (h.same (by exact rfl) (by exact rfl) (by exact rfl)) i
  · exact h.same rfl rfl rfl

/-! ## Commands and steps -/

/-- Every command keeps the law. -/
theorem exec_keeps (i : Instr) (h : QuietLaw s) (e : exec i s = .next t) : QuietLaw t := by
  cases i <;> simp only [exec] at e
  case hardReset =>
    cases e
    refine fun _ => ⟨rfl, rfl, fun n ch hch => ?_⟩
    have hnone : State.reset.channel n = none := by
      by_cases hn : n < 16
      · exact Table.get_all none hn
      · exact Table.get_beyond _ n (Nat.le_of_not_lt hn)
    exact absurd (hnone.symm.trans hch) nofun
  case dropInvalidFrame => cases e; exact h.countEvent _
  case frameForward cls fr => cases e; exact h.unlessOwn cls fr (h.steer cls fr)
  case ownFrameStrip fr => cases e; exact h.stripOwn fr
  case markerReturn input m =>
    unfold execMarkerReturn at e
    split at e <;> cases e
    · exact h.same rfl rfl rfl
    · exact h.markerHome input m
  case sample fr => cases e; exact h.unlessOwn _ fr (h.sampleFrame fr)
  case statusFrame fr => cases e; exact h.unlessOwn _ fr (h.statusFrame fr)
  case intercept fr => cases e; exact h.unlessOwn _ fr (h.commandFrame fr)
  case acquireShared | acquireExclusive | upgrade | downgrade | refresh | release | yieldDone | reserve | commitIf |
      badItem =>
    cases e; exact h.demandStep _ _ _
  case malformed d => cases e; exact h.malformedStep d
  case load m table index cls part contents =>
    cases e; exact h.manage m _ fun _ ht => ht.takeLoad table index cls part contents
  case read m table index => cases e; exact h.manage m _ fun _ ht => StepClosed.takeRead ht table index
  case status m item index => cases e; exact h.manage m _ fun _ ht => StepClosed.takeStatusItem ht item index
  case start m => cases e; exact h.manage m _ fun _ ht => ht.takeStart
  case restart m => cases e; exact h.manage m _ fun _ _ => restarted _
  case enterConfig m => cases e; exact h.manage m _ fun _ _ => restarted _
  case holdChannel m n => cases e; exact h.manage m _ fun _ ht => ht.takeHoldChannel n
  case freeChannel m n => cases e; exact h.manage m _ fun _ ht => ht.takeFreeChannel n
  case returnStation m a => cases e; exact h.manage m _ fun _ ht => ht.takeReturnStation a
  case clearSequence m n => cases e; exact h.manage m _ fun _ ht => ht.takeClearSequence n
  case clearAlert m category index => cases e; exact h.manage m _ fun _ ht => ht.takeClearAlert category index
  case ackOldest m => cases e; exact h.manage m _ fun _ ht => ht.takeAckOldest
  case clearCounts m => cases e; exact h.manage m _ fun _ ht => ht.takeClearCounts
  case clearLoop m => cases e; exact h.manage m _ fun _ ht => ht.takeClearLoop
  case probe m kind r c q => cases e; exact h.manage m _ fun _ ht => ht.takeProbe kind r c q m.seq
  case badOperation m op => cases e; exact h.manage m op fun _ ht => ht
  case evict | evictAll | demote | freeze | thaw | cap | uncap => cases e; exact h.executeHead _
  case staleTimerExpiry p =>
    unfold execStaleTimerExpiry at e
    split at e <;> cases e
    · exact h
    · next he => exact (h.expire he).same (by simp) (by simp) (by simp)
  case leaseExpiry r c =>
    unfold execLeaseExpiry at e
    split at e <;> cases e
    · exact h
    · next he => exact ((h.expire he).lapse r c).testHead
  case yieldTimerExpiry k =>
    unfold execYieldTimerExpiry at e
    repeat' split at e
    all_goals cases e
    · exact h
    · exact h
    · next he => exact (((h.expire he).raiseAlert _ _).noticeClear k).testHead
  case passStart =>
    unfold execPassStart at e
    repeat' split at e
    all_goals cases e
    · exact h
    · next he hrun =>
      obtain ⟨d, -, rfl⟩ := expire_some he
      exact of_run (by simpa [startPass] using hrun)
    · exact h
  case passCompletion =>
    unfold execPassCompletion at e
    split at e <;> cases e
    · exact h
    · exact (h.completePass _).testHead
  case rampExpiry n =>
    cases e; exact h.channelExpiry _ n fun t ht => ht.same_ale (by simp) (by simp) fun _ hi => hi.rampExpiry n
  case ackTimeout n =>
    cases e; exact h.channelExpiry _ n fun t ht => ht.same_ale (by simp) (by simp) fun _ hi => hi.ackExpiry n
  case refreshTimerExpiry n =>
    cases e; exact h.channelExpiry _ n fun t ht => ht.same_ale (by simp) (by simp) fun _ hi => hi.refreshExpiry n
  case watchExpiry k =>
    unfold execWatchExpiry at e
    repeat' split at e
    all_goals cases e
    · exact h
    · exact h
    · next he => exact (marks.reports.failSlot (fun _ c i ht => ht.raiseAlert c i) k (h.expire he)).testHead
  case stopDelayExpiry k =>
    unfold execStopDelayExpiry at e
    repeat' split at e
    all_goals cases e
    · exact h
    · exact h
    · next he => exact (marks.reports.stopDelayExpired k (h.expire he)).testHead
  case antiCycleExpiry k =>
    unfold execAntiCycleExpiry at e
    repeat' split at e
    all_goals cases e
    · exact h
    · exact h
    · next he => exact (h.expire he).same rfl rfl rfl
  case markerTimerExpiry =>
    unfold execMarkerTimerExpiry at e
    split at e <;> cases e
    · exact h
    · next he =>
      have hrestarted : ∀ x : State, QuietLaw x →
          QuietLaw { x with lpu.markerTimer := Timer.start x.now x.lpu.markerPeriod } := fun _ hx => hx.same rfl rfl rfl
      split
      · exact hrestarted _ (h.expire he)
      · exact (hrestarted _ (h.expire he)).sendMarkers
  case returnWatchExpiry ring =>
    unfold execReturnWatchExpiry at e
    repeat' split at e
    all_goals cases e
    · exact h
    · exact h
    · next he => exact (h.expire he).watchMissed ring _
  case silenceExpiry i =>
    unfold execSilenceExpiry at e
    repeat' split at e
    all_goals cases e
    · exact h
    · exact h
    · next he => exact (h.expire he).silenceExpired i _
    · exact h
    · next he => exact (h.expire he).silenceExpired i _
    · exact h
    · exact h
  case pollTimeout i =>
    unfold execPollTimeout at e
    repeat' split at e
    all_goals cases e
    · exact h
    · exact h
    · next he => exact (h.expire he).pollExpired i _ _
    all_goals exact h

/-- Every step keeps the law: the queued command in front, or the idle step of the clock. -/
theorem step_keeps (h : QuietLaw s) (e : step s = .next t) : QuietLaw t := by
  unfold step at e
  split at e
  · cases e; exact h.same rfl rfl rfl
  · next rest _ => exact exec_keeps (s := { s with pending := rest }) _ (h.same rfl rfl rfl) e

end QuietLaw

/-- Settles O57: only START leads into RUN, and only there a pass begins or a channel enters ACTIVE; what leaves RUN
ends the pass and the service of every channel. -/
theorem everyStepKeepsQuiet : Obligations.EveryStepKeepsQuiet := fun _ _ h e => h.step_keeps e

end Sys2Proof.Machine
end


-- ==== Sys2Proof/Proofs/SlotStops.lean ====
section
/-! PROOFS OF OBLIGATIONS. The slots at a pass start (R147, R151): a channel that the removal of a minimum settles
need not stay Settled until the stopping slot is tested. -/

namespace Sys2Proof.Machine

/-! ## Three slots on two channels -/

/-- A fan in service that follows its target at once, at a setting, with the sequence minimum as its target. -/
def servingFan (current seqMin : Nat) : Channel where
  kind := .fan
  station := 13
  output := 0
  characteristic := none
  minRun := 0
  slew := 64
  rampInterval := 100
  tolerance := 16
  ackLimit := 30
  refreshPeriod := 1000
  state := .active
  current := some current
  target := seqMin
  seqMin := seqMin
  lastActual := some current

/-- A slot of a resource without stop delay and rest. -/
def promptSlot (resource : Nat) (steps : List Step) (st : SlotState) : Slot :=
  { resource := resource, steps := steps, stopDelay := 0, antiCycle := 0, state := st }

/-- The slot whose claims end: RUNNING, its one step on channel 0. -/
def endingSlot : Slot := promptSlot 3 [⟨0, 300, 30⟩] .running

/-- Slot 3 holds channel 0 at 300 while it stands at 100. Slots 0 and 1 start: slot 0 waits for channel 0 at 100 and
goes on to channel 1, slot 1 waits for channel 1 at 150 and goes on to channel 0 at 200. -/
def crossedSlots : State :=
  { State.reset with
    mgu.part := .run
    chu.channels := ((Table.all 16 none).set 0 (some (servingFan 100 300))).set 1 (some (servingFan 200 150))
    ssu.slots := (((Table.all 4 none).set 0 (some (promptSlot 0 [⟨0, 100, 30⟩, ⟨1, 200, 30⟩] (.starting 1)))).set 1
      (some (promptSlot 1 [⟨1, 150, 30⟩, ⟨0, 200, 30⟩] (.starting 1)))).set 3 (some endingSlot) }

/-- Slot 3 in the only step of its stop. -/
def endingStep : Slot := { endingSlot with state := .stopping 1, watch := .running 3000000 }

/-- The removal of slot 3's minimum settles channel 0. -/
theorem crossedSlots_settles :
    settled (refreshMinimum 0 (crossedSlots.setSlot 3 (some endingStep))) 0 = true := by decide +kernel

/-- Slot 3 stays in its step: the Settled report of channel 0 sends slot 0 to channel 1, which settles there and sends
slot 1 to channel 0, whose new minimum comes before the test of slot 3. -/
theorem crossedSlots_stays : (slotPassStart 3 0 crossedSlots).slot 3 = some endingStep := by decide +kernel

/-- Refutes O42: the channel of slot 3's last step is Settled once its minimum is removed, and still slot 3 does not
get past that step, as `StopBegins` claims. -/
theorem not_slotsActAtPassStart : ¬ Obligations.SlotsActAtPassStart := by
  intro h
  obtain ⟨-, hacts⟩ := h 0 3 endingSlot crossedSlots rfl
  obtain ⟨-, -, hserving, -⟩ := hacts 0
  obtain ⟨-, -, -, hbegins⟩ := hserving (.inr rfl)
  obtain ⟨-, -, hpast⟩ := hbegins rfl rfl rfl ⟨0, 300, 30⟩ rfl
  rcases hpast crossedSlots_settles with hrested | ⟨j, st, hfirst, hbefore, -, -⟩
  · rw [crossedSlots_stays] at hrested
    cases hrested
  · exact absurd hbefore (Nat.not_lt.mpr hfirst)

end Sys2Proof.Machine
end


-- ==== Sys2Proof/Proofs/Shares.lean ====
section
/-! SUPPORT. The sharing of a class as the model computes it, and as R100 to R103 say it: what a list of shares gives
a client, the rounds by weight, and the floor tests. -/

namespace Sys2Proof.Machine

/-! ## Lists of shares -/

/-- The clients that a list of shares names. -/
def sharers (shares : List Share) : List Nat := shares.map (·.1)

@[simp] theorem sharers_cons (x : Share) (shares : List Share) : sharers (x :: shares) = x.1 :: sharers shares := rfl

theorem shareOf_cons (x : Share) (shares : List Share) (c : Nat) :
    shareOf (x :: shares) c = if x.1 = c then x.2 else shareOf shares c := by
  by_cases h : x.1 = c
  · simp [shareOf, h]
  · simp [shareOf, h]

theorem shareOf_absent {shares : List Share} {c : Nat} (h : c ∉ sharers shares) : shareOf shares c = 0 := by
  induction shares with
  | nil => rfl
  | cons x shares ih =>
    simp only [sharers_cons, List.mem_cons, not_or] at h
    rw [shareOf_cons, if_neg (Ne.symm h.1), ih h.2]

theorem shareOf_of_mem {shares : List Share} (hnodup : (sharers shares).Nodup) {c g : Nat} (h : (c, g) ∈ shares) :
    shareOf shares c = g := by
  induction shares with
  | nil => cases h
  | cons x shares ih =>
    simp only [sharers_cons, List.nodup_cons] at hnodup
    rw [shareOf_cons]
    rcases List.mem_cons.mp h with rfl | hmem
    · rw [if_pos rfl]
    · have hne : x.1 ≠ c := fun e => hnodup.1 (e ▸ List.mem_map_of_mem (f := Prod.fst) hmem)
      rw [if_neg hne, ih hnodup.2 hmem]

theorem shareOf_append_of_mem {a b : List Share} {c : Nat} (h : c ∈ sharers a) : shareOf (a ++ b) c = shareOf a c := by
  induction a with
  | nil => cases h
  | cons x a ih =>
    rw [List.cons_append, shareOf_cons, shareOf_cons]
    split
    · rfl
    · next hne => exact ih ((List.mem_cons.mp h).resolve_left (Ne.symm hne))

theorem shareOf_append_right {a b : List Share} {c : Nat} (h : c ∉ sharers a) :
    shareOf (a ++ b) c = shareOf b c := by
  induction a with
  | nil => rfl
  | cons x a ih =>
    simp only [sharers_cons, List.mem_cons, not_or] at h
    rw [List.cons_append, shareOf_cons, if_neg (Ne.symm h.1), ih h.2]

/-- The shares of distinct clients that a list names, each once, come to its sum. -/
theorem sum_shareOf {shares : List Share} (hnodup : (sharers shares).Nodup) {cs : List Nat} (hcs : cs.Nodup)
    (h : ∀ c ∈ sharers shares, c ∈ cs) : (cs.map (shareOf shares)).sum = (shares.map (·.2)).sum := by
  induction shares with
  | nil => exact List.sum_eq_zero (by simp [shareOf])
  | cons x shares ih =>
    obtain ⟨c, g⟩ := x
    simp only [sharers_cons, List.nodup_cons] at hnodup
    have hc : c ∈ cs := h c (by simp)
    have hrest := ih hnodup.2 fun c' h' => h c' (by simp [h'])
    have hzero : shareOf shares c = 0 := shareOf_absent hnodup.1
    have hsplit : ∀ f : Nat → Nat, (cs.map f).sum = f c + ((cs.erase c).map f).sum := fun f => by
      rw [((List.perm_cons_erase hc).map f).sum_eq, List.map_cons, List.sum_cons]
    have hothers : (cs.erase c).map (shareOf ((c, g) :: shares)) = (cs.erase c).map (shareOf shares) :=
      List.map_congr_left fun c' h' => by
        have hne : c ≠ c' := fun e => hcs.not_mem_erase (e ▸ h')
        rw [shareOf_cons, if_neg hne]
    rw [hsplit, hzero, Nat.zero_add] at hrest
    rw [hsplit, hothers, hrest, shareOf_cons, if_pos rfl]
    rfl

/-! ## Units handed out (R102) -/

theorem handOut_sharers (n : Nat) (shares : List Share) : sharers (handOut n shares) = sharers shares := by
  induction shares generalizing n with
  | nil => cases n <;> rfl
  | cons x shares ih =>
    cases n with
    | zero => rfl
    | succ n => exact congrArg (x.1 :: ·) (ih n)

/-- The unit that place `i` of a list gets of `n` units. -/
theorem handOut_getElem? (n i : Nat) (shares : List Share) :
    (handOut n shares)[i]? = shares[i]?.map fun x => (x.1, x.2 + if i < n then 1 else 0) := by
  induction shares generalizing n i with
  | nil => cases n <;> simp [handOut]
  | cons x shares ih =>
    cases n with
    | zero => cases h : (x :: shares)[i]? <;> simp [handOut, h]
    | succ n =>
      cases i with
      | zero => simp [handOut]
      | succ i => simpa [handOut] using ih n i

/-! ## The rounds by weight (R101) -/

/-- The parts by weight of a budget do not exceed it. -/
theorem sum_parts_le (b : Nat) (ws : List Nat) : (ws.map fun w => b * w / ws.sum).sum ≤ b := by
  have hscaled : ∀ (W : Nat) (l : List Nat), (l.map fun w => b * w / W).sum * W ≤ b * l.sum := by
    intro W l
    induction l with
    | nil => simp
    | cons w l ih =>
      have := Nat.div_mul_le_self (b * w) W
      simp only [List.map_cons, List.sum_cons, Nat.add_mul, Nat.mul_add]
      omega
  rcases Nat.eq_zero_or_pos ws.sum with hzero | hpos
  · simp [hzero, List.sum_eq_zero]
  · exact Nat.le_of_mul_le_mul_right (hscaled _ ws) hpos

/-- Rounding takes at most a unit from each part. -/
theorem le_sum_parts_add (b : Nat) {ws : List Nat} (hpos : 0 < ws.sum) :
    b ≤ (ws.map fun w => b * w / ws.sum).sum + ws.length := by
  have hscaled : ∀ l : List Nat,
      b * l.sum ≤ ((l.map fun w => b * w / ws.sum).sum + l.length) * ws.sum := by
    intro l
    induction l with
    | nil => simp
    | cons w l ih =>
      have := Nat.lt_div_mul_add (a := b * w) hpos
      simp only [List.map_cons, List.sum_cons, List.length_cons, Nat.add_mul, Nat.mul_add] at ih ⊢
      omega
  exact Nat.le_of_mul_le_mul_right (hscaled ws) hpos

/-- The claims asked of the model for the claims of a class. -/
def askOf (y : Nat × Claim) : Ask := { client := y.1, q := y.2.q, f := y.2.f, weight := y.2.weight }

/-- The clients of claims. -/
def claimants (cs : List (Nat × Claim)) : List Nat := cs.map (·.1)

theorem asked_askOf (cs : List (Nat × Claim)) : asked (cs.map askOf) = requestSum cs := by
  simp [asked, requestSum, askOf, Function.comp_def]

theorem weights_askOf (cs : List (Nat × Claim)) : weights (cs.map askOf) = (cs.map (·.2.weight)).sum := by
  simp [weights, askOf, Function.comp_def]

theorem filter_askOf (p : Ask → Bool) (cs : List (Nat × Claim)) :
    (cs.map askOf).filter p = (cs.filter fun y => p (askOf y)).map askOf := List.filter_map

/-- A sum over claims is one over those with a property and one over the rest. -/
theorem sum_filter_add (cs : List (Nat × Claim)) (p : Nat × Claim → Bool) (f : Nat × Claim → Nat) :
    ((cs.filter p).map f).sum + ((cs.filter fun y => !p y).map f).sum = (cs.map f).sum := by
  rw [← List.sum_append, ← List.map_append]
  exact ((List.filter_append_perm p cs).map f).sum_eq

/-- The part of a claim in a round. -/
def partOf (b : Nat) (cs : List (Nat × Claim)) (x : Claim) : Nat := b * x.weight / (cs.map (·.2.weight)).sum

theorem sum_partOf_le (b : Nat) (cs : List (Nat × Claim)) : (cs.map fun y => partOf b cs y.2).sum ≤ b := by
  simpa [partOf, Function.comp_def] using sum_parts_le b (cs.map (·.2.weight))

/-- The claims that a round gives all they ask for. -/
def cappedOf (b : Nat) (cs : List (Nat × Claim)) : List (Nat × Claim) :=
  cs.filter fun y => decide (y.2.q ≤ partOf b cs y.2)

/-- The claims that share on after a round. -/
def uncappedOf (b : Nat) (cs : List (Nat × Claim)) : List (Nat × Claim) :=
  cs.filter fun y => decide (partOf b cs y.2 < y.2.q)

theorem uncappedOf_eq (b : Nat) (cs : List (Nat × Claim)) :
    uncappedOf b cs = cs.filter fun y => !decide (y.2.q ≤ partOf b cs y.2) :=
  List.filter_congr fun y _ => by simp [← decide_not]

theorem sum_capped_add (b : Nat) (cs : List (Nat × Claim)) (f : Nat × Claim → Nat) :
    ((cappedOf b cs).map f).sum + ((uncappedOf b cs).map f).sum = (cs.map f).sum := by
  rw [uncappedOf_eq]
  exact sum_filter_add cs _ f

/-- What a round caps is within the budget. -/
theorem requestSum_capped_le (b : Nat) (cs : List (Nat × Claim)) : requestSum (cappedOf b cs) ≤ b := by
  have hparts : requestSum (cappedOf b cs) ≤ ((cappedOf b cs).map fun y => partOf b cs y.2).sum :=
    List.sum_le_sum fun y hy => by simpa [cappedOf] using (List.mem_filter.mp hy).2
  have := sum_capped_add b cs fun y => partOf b cs y.2
  have := sum_partOf_le b cs
  omega

theorem sharedByWeight_succ (n b : Nat) (cs : List (Nat × Claim)) (g : Nat → Nat) :
    SharedByWeight (n + 1) b cs g ↔
      if cappedOf b cs = [] then
        ∀ (i c : Nat) (x : Claim), cs[i]? = some (c, x) →
          g c = partOf b cs x + if i < b - (cs.map fun y => partOf b cs y.2).sum then 1 else 0
      else (∀ y ∈ cappedOf b cs, g y.1 = y.2.q) ∧
        SharedByWeight n (b - requestSum (cappedOf b cs)) (uncappedOf b cs) g := Iff.rfl

/-- Only the grants of the claims count. -/
theorem SharedByWeight.congr {n b : Nat} {cs : List (Nat × Claim)} {g g' : Nat → Nat}
    (h : SharedByWeight n b cs g) (hg : ∀ y ∈ cs, g' y.1 = g y.1) : SharedByWeight n b cs g' := by
  induction n generalizing b cs with
  | zero => exact h
  | succ n ih =>
    rw [sharedByWeight_succ] at h ⊢
    split at h
    · next hnone =>
      rw [if_pos hnone]
      exact fun i c x hi => (hg (c, x) (List.mem_of_getElem? hi)).trans (h i c x hi)
    · next hsome =>
      rw [if_neg hsome]
      exact ⟨fun y hy => (hg y (List.mem_of_mem_filter hy)).trans (h.1 y hy),
        ih h.2 fun y hy => hg y (List.mem_of_mem_filter hy)⟩

/-- The rounds as the model runs them, in the words of the claims. -/
theorem shareRounds_succ (fuel b : Nat) (cs : List (Nat × Claim)) :
    shareRounds (fuel + 1) b (cs.map askOf) =
      if cappedOf b cs = [] then
        handOut (b - (cs.map fun y => partOf b cs y.2).sum) (cs.map fun y => (y.1, partOf b cs y.2))
      else (cappedOf b cs).map (fun y => (y.1, y.2.q)) ++
        shareRounds fuel (b - requestSum (cappedOf b cs)) ((uncappedOf b cs).map askOf) := by
  have hpart (y : Nat × Claim) : provisional b (weights (cs.map askOf)) (askOf y) = partOf b cs y.2 := by
    rw [weights_askOf]
    rfl
  have hcapped : (cs.map askOf).filter (fun a => decide (a.q ≤ provisional b (weights (cs.map askOf)) a)) =
      (cappedOf b cs).map askOf := by
    rw [filter_askOf]
    simp only [hpart]
    rfl
  have huncapped : (cs.map askOf).filter (fun a => !decide (a.q ≤ provisional b (weights (cs.map askOf)) a)) =
      (uncappedOf b cs).map askOf := by
    rw [filter_askOf, uncappedOf_eq]
    simp only [hpart]
    rfl
  simp only [shareRounds, hcapped, huncapped, List.map_eq_nil_iff, asked_askOf, List.map_map, Function.comp_def, hpart]
  rfl

theorem shareRounds_sharers (fuel b : Nat) (cs : List (Nat × Claim)) :
    (sharers (shareRounds fuel b (cs.map askOf))).Subperm (claimants cs) := by
  induction fuel generalizing b cs with
  | zero => exact List.nil_subperm
  | succ fuel ih =>
    rw [shareRounds_succ]
    split
    · rw [handOut_sharers]
      simp [sharers, claimants, Function.comp_def, List.Subperm.refl]
    · have hperm : (claimants (cappedOf b cs) ++ claimants (uncappedOf b cs)).Perm (claimants cs) := by
        rw [uncappedOf_eq, claimants, claimants, ← List.map_append]
        exact (List.filter_append_perm _ cs).map _
      have hcapped : sharers ((cappedOf b cs).map fun y => (y.1, y.2.q)) = claimants (cappedOf b cs) := by
        simp [sharers, claimants, Function.comp_def]
      rw [sharers, List.map_append, ← sharers, ← sharers, hcapped]
      exact ((List.subperm_append_left _).mpr (ih _ _)).trans hperm.subperm

theorem nodup_of_subperm {a b : List Nat} (h : a.Subperm b) (hb : b.Nodup) : a.Nodup := by
  obtain ⟨l, hperm, hsub⟩ := h
  exact hperm.nodup_iff.mp (hsub.nodup hb)

/-- Claims that ask for more than the budget are shared by weight: each round but the last caps a claim, and never
all. -/
theorem shareRounds_sharedByWeight {n fuel b : Nat} {cs : List (Nat × Claim)} (hnodup : (claimants cs).Nodup)
    (hmore : b < requestSum cs) (hn : cs.length ≤ n) (hfuel : cs.length ≤ fuel) :
    SharedByWeight n b cs (shareOf (shareRounds fuel b (cs.map askOf))) := by
  induction n generalizing fuel b cs with
  | zero => rw [List.eq_nil_of_length_eq_zero (Nat.le_zero.mp hn)] at hmore; exact absurd hmore (Nat.not_lt_zero b)
  | succ n ih =>
    obtain ⟨fuel, rfl⟩ : ∃ k, fuel = k + 1 := by
      cases cs with
      | nil => exact absurd hmore (Nat.not_lt_zero b)
      | cons y cs => exact ⟨fuel - 1, by simp only [List.length_cons] at hfuel; omega⟩
    have hsharers := nodup_of_subperm (shareRounds_sharers (fuel + 1) b cs) hnodup
    rw [shareRounds_succ] at hsharers ⊢
    rw [sharedByWeight_succ]
    split
    · next hnone =>
      rw [if_pos hnone] at hsharers
      intro i c x hi
      refine shareOf_of_mem hsharers (List.mem_of_getElem? (i := i) ?_)
      simp [handOut_getElem?, hi]
    · next hsome =>
      rw [if_neg hsome] at hsharers
      have hcapped := requestSum_capped_le b cs
      have hsum := sum_capped_add b cs (·.2.q)
      have hlength := sum_capped_add b cs fun _ => 1
      have hpos := List.length_pos_of_ne_nil hsome
      simp only [← requestSum.eq_1, List.map_const', List.sum_replicate, smul_eq_mul, mul_one] at hsum hlength
      refine ⟨fun y hy => shareOf_of_mem hsharers (List.mem_append_left _ (List.mem_map_of_mem hy)), ?_⟩
      have huncapped : (claimants (uncappedOf b cs)).Nodup :=
        (List.filter_sublist.map _).nodup hnodup
      refine (ih huncapped (by omega) (by omega) (by omega) (fuel := fuel)).congr fun y hy =>
        shareOf_append_right fun hin => ?_
      simp only [sharers, List.map_map, List.mem_map, Function.comp_apply] at hin
      obtain ⟨z, hz, hzy⟩ := hin
      have hsame : z = y := List.inj_on_of_nodup_map hnodup (List.mem_of_mem_filter hz) (List.mem_of_mem_filter hy) hzy
      have hle := (List.mem_filter.mp hz).2
      have hlt := (List.mem_filter.mp hy).2
      simp only [hsame, decide_eq_true_eq] at hle hlt
      omega

end Sys2Proof.Machine
end


-- ==== Sys2Proof/Proofs/ClassShares.lean ====
section
/-! SUPPORT. What a class receives: within its budget, each claim 0 or between its floor and what it asks for, and the
whole budget where it asks for more and loses no claim (R100 to R103). -/

namespace Sys2Proof.Machine

/-- What claims are granted together. -/
def grantSum (g : Nat → Nat) (cs : List (Nat × Claim)) : Nat := (cs.map fun y => g y.1).sum

theorem grantSum_congr {g g' : Nat → Nat} {cs : List (Nat × Claim)} (h : ∀ y ∈ cs, g y.1 = g' y.1) :
    grantSum g cs = grantSum g' cs := congrArg List.sum (List.map_congr_left h)

theorem grantSum_requested {g : Nat → Nat} {cs : List (Nat × Claim)} (h : ∀ y ∈ cs, g y.1 = y.2.q) :
    grantSum g cs = requestSum cs := congrArg List.sum (List.map_congr_left h)

/-! ## Shares by weight -/

/-- The sum of parts of which the first `n` are one higher. -/
theorem grantSum_units {g : Nat → Nat} {p : Nat × Claim → Nat} {cs : List (Nat × Claim)} {n : Nat}
    (h : ∀ i y, cs[i]? = some y → g y.1 = p y + if i < n then 1 else 0) :
    grantSum g cs = (cs.map p).sum + min cs.length n := by
  induction cs generalizing n with
  | nil => simp [grantSum]
  | cons y cs ih =>
    have hhead := h 0 y rfl
    have htail : grantSum g cs = (cs.map p).sum + min cs.length (n - 1) := ih fun i z hz => by
      rw [h (i + 1) z hz]
      simp only [Nat.lt_sub_iff_add_lt]
    simp only [grantSum, List.map_cons, List.sum_cons, List.length_cons] at htail ⊢
    split at hhead <;> omega

namespace SharedByWeight

variable {n b : Nat} {cs : List (Nat × Claim)} {g : Nat → Nat}

/-- The last round, in which no claim is capped. -/
theorem grantSum_last (hlast : ∀ (i c : Nat) (x : Claim), cs[i]? = some (c, x) →
    g c = partOf b cs x + if i < b - (cs.map fun y => partOf b cs y.2).sum then 1 else 0) :
    grantSum g cs = (cs.map fun y => partOf b cs y.2).sum +
      min cs.length (b - (cs.map fun y => partOf b cs y.2).sum) :=
  grantSum_units fun i y hy => hlast i y.1 y.2 hy

theorem grantSum_le (h : SharedByWeight n b cs g) : grantSum g cs ≤ b := by
  induction n generalizing b cs with
  | zero => exact h.elim
  | succ n ih =>
    rw [sharedByWeight_succ] at h
    split at h
    · have := grantSum_last h
      have := sum_partOf_le b cs
      omega
    · obtain ⟨hcapped, hrest⟩ := h
      have hsum : grantSum g (cappedOf b cs) + grantSum g (uncappedOf b cs) = grantSum g cs := sum_capped_add b cs _
      have := grantSum_requested hcapped
      have := requestSum_capped_le b cs
      have := ih hrest
      omega

theorem le_request (h : SharedByWeight n b cs g) {y : Nat × Claim} (hy : y ∈ cs) : g y.1 ≤ y.2.q := by
  induction n generalizing b cs with
  | zero => exact h.elim
  | succ n ih =>
    rw [sharedByWeight_succ] at h
    split at h
    · next hnone =>
      obtain ⟨i, hi⟩ := List.mem_iff_getElem?.mp hy
      have hpart : partOf b cs y.2 < y.2.q := by simpa using List.filter_eq_nil_iff.mp hnone y hy
      rw [h i y.1 y.2 hi]
      split <;> omega
    · obtain ⟨hcapped, hrest⟩ := h
      by_cases hy' : y.2.q ≤ partOf b cs y.2
      · exact (hcapped y (List.mem_filter.mpr ⟨hy, decide_eq_true hy'⟩)).le
      · exact ih hrest (List.mem_filter.mpr ⟨hy, decide_eq_true (Nat.lt_of_not_le hy')⟩)

/-- Claims that ask for the budget or more share the whole of it (R102). -/
theorem grantSum_eq (h : SharedByWeight n b cs g) (hweight : ∀ y ∈ cs, 1 ≤ y.2.weight) (hmore : b ≤ requestSum cs) :
    grantSum g cs = b := by
  induction n generalizing b cs with
  | zero => exact h.elim
  | succ n ih =>
    rw [sharedByWeight_succ] at h
    split at h
    · have hlast := grantSum_last h
      have hparts := sum_partOf_le b cs
      cases cs with
      | nil => exact (Nat.le_zero.mp hmore).symm
      | cons y cs =>
        have hpos : 0 < ((y :: cs).map (·.2.weight)).sum := by
          have := hweight y (List.mem_cons_self ..)
          simp only [List.map_cons, List.sum_cons]
          omega
        have := le_sum_parts_add b hpos
        simp only [List.map_map, Function.comp_def, List.length_map, ← partOf.eq_1] at this
        omega
    · obtain ⟨hcapped, hrest⟩ := h
      have hsum : grantSum g (cappedOf b cs) + grantSum g (uncappedOf b cs) = grantSum g cs := sum_capped_add b cs _
      have hasked : requestSum (cappedOf b cs) + requestSum (uncappedOf b cs) = requestSum cs := sum_capped_add b cs _
      have := grantSum_requested hcapped
      have := requestSum_capped_le b cs
      have := ih hrest (fun y hy => hweight y (List.mem_of_mem_filter hy)) (by omega)
      omega

end SharedByWeight

/-! ## A class divided (R100, R103) -/

/-- The claims that a share leaves below their floor. -/
def failingOf (w : Nat → Nat) (cs : List (Nat × Claim)) : List (Nat × Claim) :=
  cs.filter fun y => decide (w y.1 < y.2.f)

/-- The claims that a share leaves at their floor or above. -/
def keptOf (w : Nat → Nat) (cs : List (Nat × Claim)) : List (Nat × Claim) := cs.filter fun y => decide (y.2.f ≤ w y.1)

/-- How many claims a floor test drops with a grant above 0. -/
def dropsOf (w : Nat → Nat) (cs : List (Nat × Claim)) : Nat :=
  ((failingOf w cs).filter fun y => decide (0 < w y.1)).length

theorem keptOf_eq (w : Nat → Nat) (cs : List (Nat × Claim)) :
    keptOf w cs = cs.filter fun y => !decide (w y.1 < y.2.f) :=
  List.filter_congr fun y _ => by simp [← decide_not]

theorem sum_failing_add (w : Nat → Nat) (cs : List (Nat × Claim)) (f : Nat × Claim → Nat) :
    ((failingOf w cs).map f).sum + ((keptOf w cs).map f).sum = (cs.map f).sum := by
  rw [keptOf_eq]
  exact sum_filter_add cs _ f

theorem mem_kept_of_not_failing {w : Nat → Nat} {cs : List (Nat × Claim)} {y : Nat × Claim} (hy : y ∈ cs)
    (h : y ∉ failingOf w cs) : y ∈ keptOf w cs := by
  rw [keptOf_eq]
  exact List.mem_filter.mpr ⟨hy, by simpa [failingOf, hy] using h⟩

/-- What a class receives when it asks for more than its budget, from its shares by weight. -/
def FloorTested (n b : Nat) (cs : List (Nat × Claim)) (w g : Nat → Nat) (d : Nat) : Prop :=
  if failingOf w cs = [] then (∀ y ∈ keptOf w cs, g y.1 = w y.1) ∧ d = 0
  else match n with
    | 0 => (∀ y ∈ keptOf w cs, g y.1 = w y.1) ∧ d = dropsOf w cs
    | n + 1 => ∃ d', ClassDivided n b (keptOf w cs) g d' ∧ d = dropsOf w cs + d'

theorem classDivided_iff (n b : Nat) (cs : List (Nat × Claim)) (g : Nat → Nat) (d : Nat) :
    ClassDivided n b cs g d ↔
      if requestSum cs ≤ b then (∀ y ∈ cs, g y.1 = y.2.q) ∧ d = 0
      else ∃ w, SharedByWeight 3 b cs w ∧ (∀ y ∈ failingOf w cs, g y.1 = 0) ∧ FloorTested n b cs w g d := by
  cases n <;> exact Iff.rfl

namespace ClassDivided

variable {b : Nat} {g : Nat → Nat}

/-- The ways in which a class comes to its grants: all it asks for, the shares by weight with those below their floor
at 0, or a new sharing among the claims that a floor test keeps. -/
theorem grant_induct {P : List (Nat × Claim) → Prop}
    (fits : ∀ cs, requestSum cs ≤ b → (∀ y ∈ cs, g y.1 = y.2.q) → P cs)
    (shared : ∀ cs w, b < requestSum cs → SharedByWeight 3 b cs w → (∀ y ∈ failingOf w cs, g y.1 = 0) →
      (∀ y ∈ keptOf w cs, g y.1 = w y.1) → P cs)
    (again : ∀ cs w, b < requestSum cs → failingOf w cs ≠ [] → (∀ y ∈ failingOf w cs, g y.1 = 0) → P (keptOf w cs) →
      P cs)
    {n d : Nat} {cs : List (Nat × Claim)} (h : ClassDivided n b cs g d) : P cs := by
  induction n using Nat.strong_induction_on generalizing cs d with
  | _ n ih =>
  rw [classDivided_iff] at h
  split at h
  · next hfits => exact fits cs hfits h.1
  · next hmore =>
    obtain ⟨w, hw, hfailing, htested⟩ := h
    have hshared := shared cs w (Nat.lt_of_not_le hmore) hw hfailing
    unfold FloorTested at htested
    split at htested
    · exact hshared htested.1
    · next hsome =>
      cases n with
      | zero => exact hshared htested.1
      | succ n =>
        obtain ⟨d', hd', -⟩ := htested
        exact again cs w (Nat.lt_of_not_le hmore) hsome hfailing (ih n (Nat.lt_succ_self n) hd')

theorem grantSum_failing {w : Nat → Nat} {cs : List (Nat × Claim)} (h : ∀ y ∈ failingOf w cs, g y.1 = 0) :
    grantSum g cs = grantSum g (keptOf w cs) := by
  have hsum : grantSum g (failingOf w cs) + grantSum g (keptOf w cs) = grantSum g cs := sum_failing_add w cs _
  have hzero : grantSum g (failingOf w cs) = 0 := List.sum_eq_zero fun n hn => by
    obtain ⟨y, hy, rfl⟩ := List.mem_map.mp hn
    exact h y hy
  omega

/-- What a class receives fits its budget. -/
theorem grantSum_le {n d : Nat} {cs : List (Nat × Claim)} (h : ClassDivided n b cs g d) : grantSum g cs ≤ b := by
  refine grant_induct (P := fun cs => grantSum g cs ≤ b) (fun cs hfits hall => ?_) (fun cs w _ hw hfailing hkept => ?_)
    (fun cs w _ _ hfailing hkept => ?_) h
  · exact grantSum_requested hall ▸ hfits
  · have hsum : grantSum w (failingOf w cs) + grantSum w (keptOf w cs) = grantSum w cs := sum_failing_add w cs _
    have := hw.grantSum_le
    rw [grantSum_failing hfailing, grantSum_congr hkept]
    omega
  · exact grantSum_failing hfailing ▸ hkept

/-- A claim of a class receives nothing, or something between its floor and what it asks for. -/
theorem between {n d : Nat} {cs : List (Nat × Claim)} (h : ClassDivided n b cs g d) {y : Nat × Claim} (hy : y ∈ cs)
    (hfloor : y.2.f ≤ y.2.q) : g y.1 = 0 ∨ (y.2.f ≤ g y.1 ∧ g y.1 ≤ y.2.q) := by
  refine grant_induct (P := fun cs => y ∈ cs → g y.1 = 0 ∨ (y.2.f ≤ g y.1 ∧ g y.1 ≤ y.2.q)) (fun cs _ hall hy => ?_)
    (fun cs w _ hw hfailing hkept hy => ?_) (fun cs w _ _ hfailing hkept hy => ?_) h hy
  · exact .inr (by simpa [hall y hy] using hfloor)
  · by_cases hin : y ∈ failingOf w cs
    · exact .inl (hfailing y hin)
    · have hy' := mem_kept_of_not_failing hy hin
      rw [hkept y hy']
      exact .inr ⟨by simpa using (List.mem_filter.mp hy').2, hw.le_request hy⟩
  · by_cases hin : y ∈ failingOf w cs
    · exact .inl (hfailing y hin)
    · exact hkept (mem_kept_of_not_failing hy hin)

/-- A class that asks for more than its budget and has no claim below its floor receives the whole budget (R102). -/
theorem grantSum_eq {n d : Nat} {cs : List (Nat × Claim)} (h : ClassDivided n b cs g d)
    (hweight : ∀ y ∈ cs, 1 ≤ y.2.weight) (hmore : b < requestSum cs) (hfloors : ∀ y ∈ cs, y.2.f ≤ g y.1) :
    grantSum g cs = b := by
  have hnone : ∀ (cs : List (Nat × Claim)) (w : Nat → Nat), (∀ y ∈ cs, y.2.f ≤ g y.1) →
      (∀ y ∈ failingOf w cs, g y.1 = 0) → failingOf w cs = [] := by
    intro cs w hfloors hfailing
    refine List.eq_nil_iff_forall_not_mem.mpr fun y hy => ?_
    have hlt : w y.1 < y.2.f := by simpa using (List.mem_filter.mp hy).2
    have := hfloors y (List.mem_of_mem_filter hy)
    have := hfailing y hy
    omega
  refine grant_induct (P := fun cs => (∀ y ∈ cs, 1 ≤ y.2.weight) → b < requestSum cs → (∀ y ∈ cs, y.2.f ≤ g y.1) →
    grantSum g cs = b) (fun cs hfits _ _ hmore => absurd hfits (Nat.not_le_of_lt hmore))
    (fun cs w _ hw hfailing hkept hweight hmore hfloors => ?_)
    (fun cs w _ hsome hfailing _ _ _ hfloors => absurd (hnone cs w hfloors hfailing) hsome) h hweight hmore hfloors
  rw [← hw.grantSum_eq hweight hmore.le]
  refine grantSum_congr fun y hy => hkept y (mem_kept_of_not_failing hy ?_)
  simp [hnone cs w hfloors hfailing]

end ClassDivided

/-! ## The model's division of a class -/

/-- The shares by weight of claims, as the model computes them. -/
def weightShares (b : Nat) (cs : List (Nat × Claim)) : List Share := shareRounds (cs.length + 1) b (cs.map askOf)

theorem filter_failing (b : Nat) (cs : List (Nat × Claim)) :
    (cs.map askOf).filter (fun a => decide (shareOf (weightShares b cs) a.client < a.f)) =
      (failingOf (shareOf (weightShares b cs)) cs).map askOf := filter_askOf _ cs

theorem filter_kept (b : Nat) (cs : List (Nat × Claim)) :
    (cs.map askOf).filter (fun a => !decide (shareOf (weightShares b cs) a.client < a.f)) =
      (keptOf (shareOf (weightShares b cs)) cs).map askOf := by
  rw [keptOf_eq]
  exact filter_askOf _ cs

theorem shareClass_fits (n : Nat) {b : Nat} {cs : List (Nat × Claim)} (h : requestSum cs ≤ b) :
    shareClass n b (cs.map askOf) = (cs.map fun y => (y.1, y.2.q), 0) := by
  rw [← asked_askOf] at h
  cases n <;> simp [shareClass, h, askOf, Function.comp_def]

/-- The floor test of a class that asks for more than its budget. -/
theorem shareClass_more (n : Nat) {b : Nat} {cs : List (Nat × Claim)} (h : b < requestSum cs) :
    shareClass n b (cs.map askOf) =
      if failingOf (shareOf (weightShares b cs)) cs = [] then (weightShares b cs, 0)
      else match n with
        | 0 => ((keptOf (shareOf (weightShares b cs)) cs).map fun y => (y.1, shareOf (weightShares b cs) y.1),
            dropsOf (shareOf (weightShares b cs)) cs)
        | n + 1 => ((shareClass n b ((keptOf (shareOf (weightShares b cs)) cs).map askOf)).1,
            dropsOf (shareOf (weightShares b cs)) cs +
              (shareClass n b ((keptOf (shareOf (weightShares b cs)) cs).map askOf)).2) := by
  have hmore : ¬asked (cs.map askOf) ≤ b := by rw [asked_askOf]; exact Nat.not_le_of_lt h
  have hrounds : shareRounds ((cs.map askOf).length + 1) b (cs.map askOf) = weightShares b cs := by
    rw [List.length_map]; rfl
  have hdrops : (((failingOf (shareOf (weightShares b cs)) cs).map askOf).filter fun a =>
      decide (0 < shareOf (weightShares b cs) a.client)).length = dropsOf (shareOf (weightShares b cs)) cs := by
    rw [filter_askOf, List.length_map]; rfl
  cases n with
  | zero =>
    rw [shareClass, if_neg hmore]
    simp only [hrounds, filter_failing, filter_kept, hdrops, List.map_eq_nil_iff, List.map_map]
    rfl
  | succ n =>
    rw [shareClass, if_neg hmore]
    simp only [hrounds, filter_failing, filter_kept, hdrops, List.map_eq_nil_iff]

theorem shareClass_sharers (n b : Nat) (cs : List (Nat × Claim)) :
    (sharers (shareClass n b (cs.map askOf)).1).Subperm (claimants cs) := by
  have hkept : ∀ (w : Nat → Nat) (l : List (Nat × Claim)), (claimants (keptOf w l)).Subperm (claimants l) := fun w l =>
    (List.filter_sublist.map _).subperm
  have hnamed : ∀ (f : Nat × Claim → Nat) (l : List (Nat × Claim)),
      (sharers (l.map fun y => (y.1, f y))).Subperm (claimants l) := fun f l => by
    simp [sharers, claimants, Function.comp_def, List.Subperm.refl]
  induction n using Nat.strong_induction_on generalizing cs with
  | _ n ih =>
  rcases Nat.lt_or_ge b (requestSum cs) with hmore | hfits
  · rw [shareClass_more _ hmore]
    split
    · exact shareRounds_sharers _ _ cs
    · cases n with
      | zero => exact (hnamed _ _).trans (hkept _ cs)
      | succ n => exact (ih n (Nat.lt_succ_self n) _).trans (hkept _ cs)
  · rw [shareClass_fits _ hfits]
    exact hnamed _ cs

/-- A floor test leaves nothing to the claims it finds below their floor. -/
theorem shareOf_failing {w : Nat → Nat} {cs : List (Nat × Claim)} (hnodup : (claimants cs).Nodup) {shares : List Share}
    (hshares : (sharers shares).Subperm (claimants (keptOf w cs))) {y : Nat × Claim} (hy : y ∈ failingOf w cs) :
    shareOf shares y.1 = 0 := by
  refine shareOf_absent fun hin => ?_
  obtain ⟨z, hz, hzy⟩ := List.mem_map.mp (hshares.subset hin)
  have hsame : z = y := List.inj_on_of_nodup_map hnodup (List.mem_of_mem_filter hz) (List.mem_of_mem_filter hy) hzy
  have hle := (List.mem_filter.mp hz).2
  have hlt := (List.mem_filter.mp hy).2
  simp only [hsame, decide_eq_true_eq] at hle hlt
  omega

/-- The model divides a class of at most three claims as R100 to R103 say. -/
theorem shareClass_divided {n b : Nat} {cs : List (Nat × Claim)} (hnodup : (claimants cs).Nodup) (hthree : cs.length ≤ 3)
    {g : Nat → Nat} (hg : ∀ y ∈ cs, g y.1 = shareOf (shareClass n b (cs.map askOf)).1 y.1) :
    ClassDivided n b cs g (shareClass n b (cs.map askOf)).2 := by
  have hnamed : ∀ (f : Nat × Claim → Nat) (l : List (Nat × Claim)), (claimants l).Nodup → ∀ y ∈ l,
      shareOf (l.map fun y => (y.1, f y)) y.1 = f y := fun f l hl y hy => by
    refine shareOf_of_mem ?_ (List.mem_map_of_mem hy)
    simpa only [sharers, claimants, List.map_map, Function.comp_def] using hl
  induction n using Nat.strong_induction_on generalizing cs with
  | _ n ih =>
  rw [classDivided_iff]
  split
  · next hfits =>
    rw [shareClass_fits _ hfits] at hg ⊢
    exact ⟨fun y hy => (hg y hy).trans (hnamed _ cs hnodup y hy), rfl⟩
  · next hfits =>
    have hmore := Nat.lt_of_not_le hfits
    rw [shareClass_more _ hmore] at hg ⊢
    refine ⟨shareOf (weightShares b cs), shareRounds_sharedByWeight hnodup hmore hthree (Nat.le_succ _), ?_⟩
    generalize hw : shareOf (weightShares b cs) = w at hg ⊢
    have hkept : (claimants (keptOf w cs)).Nodup := (List.filter_sublist.map _).nodup hnodup
    have hsub : ∀ y ∈ keptOf w cs, y ∈ cs := fun y hy => List.mem_of_mem_filter hy
    have hlost : ∀ {shares : List Share}, (sharers shares).Subperm (claimants (keptOf w cs)) →
        (∀ y ∈ cs, g y.1 = shareOf shares y.1) → ∀ y ∈ failingOf w cs, g y.1 = 0 := fun hshares hg y hy =>
      (hg y (List.mem_of_mem_filter hy)).trans (shareOf_failing hnodup hshares hy)
    unfold FloorTested
    split
    · next hnone =>
      rw [if_pos hnone] at hg
      exact ⟨by simp [hnone], fun y hy => (hg y (hsub y hy)).trans (congrFun hw y.1), rfl⟩
    · next hsome =>
      rw [if_neg hsome] at hg
      cases n with
      | zero =>
        refine ⟨hlost ?_ hg, fun y hy => (hg y (hsub y hy)).trans (hnamed _ _ hkept y hy), rfl⟩
        simp [sharers, claimants, Function.comp_def, List.Subperm.refl]
      | succ n =>
        refine ⟨hlost (shareClass_sharers n b _) hg, _,
          ih n (Nat.lt_succ_self n) hkept ?_ fun y hy => hg y (hsub y hy), rfl⟩
        exact (List.length_filter_le _ _).trans hthree

end Sys2Proof.Machine
end


-- ==== Sys2Proof/Proofs/Divisions.lean ====
section
/-! SUPPORT. A PLAIN or CHILD record divided among its latched claims (R98 to R104): the exclusive rule, and the
classes in turn. -/

namespace Sys2Proof.Machine

variable (l : LatchedRecord)

/-! ## The claims of a record -/

theorem mem_claims {l : LatchedRecord} {c : Nat} {x : Claim} : (c, x) ∈ l.claims ↔ l.claim c = some x := by
  simp only [LatchedRecord.claims, List.mem_filterMap, Option.map_eq_some_iff, Prod.mk.injEq]
  refine ⟨fun ⟨c', _, x', hx, hc, hx'⟩ => hc ▸ hx' ▸ hx, fun h => ⟨c, ?_, x, h, rfl, rfl⟩⟩
  match c with
  | 0 | 1 | 2 => simp
  | c + 3 => cases h

theorem mem_classClaims {l : LatchedRecord} {k c : Nat} {x : Claim} :
    (c, x) ∈ classClaims l k ↔ l.claim c = some x ∧ x.cls = k ∧ 0 < x.q := by
  have hmem : (c, x) ∈ classClaims l k ↔ (c, x) ∈ l.claims ∧ x.cls = k ∧ 0 < x.q := by
    simp only [classClaims, LatchedRecord.claims, List.mem_filterMap]
    constructor
    · rintro ⟨c', hc', h⟩
      split at h
      · next y hy =>
        split at h <;> cases h
        next hk => exact ⟨⟨c, hc', by rw [hy]; rfl⟩, hk⟩
      · cases h
    · rintro ⟨⟨c', hc', h⟩, hk⟩
      obtain ⟨y, hy, hcy⟩ := Option.map_eq_some_iff.mp h
      cases hcy
      exact ⟨c, hc', by rw [hy]; exact if_pos hk⟩
  rw [hmem, mem_claims]

theorem classClaims_eq (k : Nat) :
    classClaims l k = l.claims.filter fun y => y.2.cls == k && decide (0 < y.2.q) := by
  simp only [classClaims, LatchedRecord.claims, List.filter_filterMap]
  refine List.filterMap_congr fun c _ => ?_
  cases l.claim c with
  | none => rfl
  | some x => by_cases h : x.cls = k ∧ 0 < x.q <;> simp_all [Option.filter]

/-- The model's claims of a class are those that take part in its sharing. -/
theorem classAsks_eq (k : Nat) : classAsks l.claims k = (classClaims l k).map askOf := by
  rw [classClaims_eq]
  rfl

theorem claims_claimants : (claimants l.claims).Sublist [0, 1, 2] := by
  have hall : ∀ cs : List Nat, (claimants (cs.filterMap fun c => (l.claim c).map fun x => (c, x))).Sublist cs := by
    intro cs
    induction cs with
    | nil => exact .slnil
    | cons c cs ih =>
      cases hc : l.claim c with
      | none => simpa [hc] using ih.cons c
      | some x => simpa [hc, claimants] using ih
  exact hall [0, 1, 2]

theorem classClaims_claimants (k : Nat) : (claimants (classClaims l k)).Sublist [0, 1, 2] := by
  rw [classClaims_eq]
  exact (List.filter_sublist.map _).trans (claims_claimants l)

theorem classClaims_nodup (k : Nat) : (claimants (classClaims l k)).Nodup :=
  (classClaims_claimants l k).nodup (by decide)

theorem classClaims_length (k : Nat) : (classClaims l k).length ≤ 3 := by
  simpa [claimants] using (classClaims_claimants l k).length_le

/-! ## The classes in turn (R100, R104) -/

/-- What the more urgent classes leave for class `k`. -/
def classBudget : Nat → Nat
  | 0 => l.capacity
  | k + 1 => classBudget k - ((shareClass 2 (classBudget k) ((classClaims l k).map askOf)).1.map (·.2)).sum

/-- The division of class `k` in its turn. -/
def classPart (k : Nat) : List Share × Nat := shareClass 2 (classBudget l k) ((classClaims l k).map askOf)

theorem classBudget_succ (k : Nat) : classBudget l (k + 1) = classBudget l k - ((classPart l k).1.map (·.2)).sum := rfl

/-- SHARED claims are divided class by class. -/
theorem divideClasses_eq : divideClasses l.claims [0, 1, 2, 3] l.capacity =
    ⟨[0, 1, 2, 3].flatMap fun k => (classPart l k).1, ([0, 1, 2, 3].map fun k => (classPart l k).2).sum⟩ := by
  simp only [divideClasses, classAsks_eq]
  rfl

theorem classPart_sharers (k : Nat) : (sharers (classPart l k).1).Subperm (claimants (classClaims l k)) :=
  shareClass_sharers _ _ _

theorem classPart_nodup (k : Nat) : (sharers (classPart l k).1).Nodup :=
  nodup_of_subperm (classPart_sharers l k) (classClaims_nodup l k)

theorem claim_of_sharer {l : LatchedRecord} {k c : Nat} (h : c ∈ sharers (classPart l k).1) :
    ∃ x, l.claim c = some x ∧ x.cls = k ∧ 0 < x.q := by
  obtain ⟨y, hy, rfl⟩ := List.mem_map.mp ((classPart_sharers l k).subset h)
  exact ⟨y.2, mem_classClaims.mp hy⟩

/-- The shares of all the classes. -/
def classShares : List Share := [0, 1, 2, 3].flatMap fun k => (classPart l k).1

theorem sharers_flatMap (f : Nat → List Share) (ks : List Nat) :
    sharers (ks.flatMap f) = ks.flatMap fun k => sharers (f k) := List.map_flatMap

theorem claim_of_classSharer {l : LatchedRecord} {c : Nat} (h : c ∈ sharers (classShares l)) :
    ∃ x, l.claim c = some x ∧ x.cls ≤ 3 ∧ 0 < x.q := by
  rw [classShares, sharers_flatMap] at h
  obtain ⟨k, hk, hc⟩ := List.mem_flatMap.mp h
  obtain ⟨x, hx, rfl, hq⟩ := claim_of_sharer hc
  refine ⟨x, hx, ?_, hq⟩
  simp only [List.mem_cons, List.not_mem_nil, or_false] at hk
  omega

/-- A client whom no other list names has the share that its own list gives it. -/
theorem shareOf_flatMap {f : Nat → List Share} {ks : List Nat} {k c : Nat} (hk : k ∈ ks)
    (hother : ∀ j ∈ ks, j ≠ k → c ∉ sharers (f j)) : shareOf (ks.flatMap f) c = shareOf (f k) c := by
  by_cases hc : c ∈ sharers (f k)
  · induction ks with
    | nil => cases hk
    | cons j ks ih =>
      rw [List.flatMap_cons]
      by_cases hj : j = k
      · rw [hj, shareOf_append_of_mem hc]
      · rw [shareOf_append_right (hother j (List.mem_cons_self ..) hj),
          ih ((List.mem_cons.mp hk).resolve_left (Ne.symm hj)) fun i hi => hother i (List.mem_cons_of_mem _ hi)]
  · rw [shareOf_absent hc, shareOf_absent]
    rw [sharers_flatMap, List.mem_flatMap]
    rintro ⟨j, hj, hin⟩
    by_cases hjk : j = k
    · exact hc (hjk ▸ hin)
    · exact hother j hj hjk hin

section Class

variable {l : LatchedRecord} {k : Nat}

/-- A claim of class `k` receives what the division of the class gives it. -/
theorem classShares_share (hk : k ≤ 3) {c : Nat} {x : Claim} (hx : l.claim c = some x) (hcls : x.cls = k) :
    shareOf (classShares l) c = shareOf (classPart l k).1 c := by
  refine shareOf_flatMap (by simp only [List.mem_cons, List.not_mem_nil, or_false]; omega) fun j _ hj hc => hj ?_
  obtain ⟨y, hy, rfl, -⟩ := claim_of_sharer hc
  rw [hx] at hy
  cases hy
  exact hcls

/-- Class `k` is divided within what the more urgent classes leave (R100, R104). -/
theorem classPart_divided (hk : k ≤ 3) :
    ClassDivided 2 (classBudget l k) (classClaims l k) (shareOf (classShares l)) (classPart l k).2 :=
  shareClass_divided (classClaims_nodup l k) (classClaims_length l k) fun y hy => by
    obtain ⟨hclaim, hcls, -⟩ := mem_classClaims.mp hy
    exact classShares_share hk hclaim hcls

theorem grantSum_classPart (hk : k ≤ 3) :
    grantSum (shareOf (classShares l)) (classClaims l k) = ((classPart l k).1.map (·.2)).sum := by
  have hshare : grantSum (shareOf (classShares l)) (classClaims l k) =
      grantSum (shareOf (classPart l k).1) (classClaims l k) := grantSum_congr fun y hy => by
    obtain ⟨hclaim, hcls, -⟩ := mem_classClaims.mp hy
    exact classShares_share hk hclaim hcls
  have hclients : grantSum (shareOf (classPart l k).1) (classClaims l k) =
      ((claimants (classClaims l k)).map (shareOf (classPart l k).1)).sum := by
    rw [claimants, List.map_map]
    rfl
  rw [hshare, hclients]
  exact sum_shareOf (classPart_nodup l k) (classClaims_nodup l k) fun c hc => (classPart_sharers l k).subset hc

theorem classBudget_step (hk : k ≤ 3) : classBudget l (k + 1) =
    classBudget l k - grantSum (shareOf (classShares l)) (classClaims l k) := by
  rw [grantSum_classPart hk, classBudget_succ]

/-- A class has for its budget what is left of the capacity. -/
theorem classBudget_eq (hk : k ≤ 4) : classBudget l k =
    l.capacity - ((List.range k).map fun j => grantSum (shareOf (classShares l)) (classClaims l j)).sum := by
  induction k with
  | zero => rfl
  | succ k ih =>
    rw [classBudget_step (by omega), ih (by omega), List.range_succ, List.map_append, List.sum_append, Nat.sub_add_eq]
    simp

end Class

/-- All classes together receive no more than the capacity (R104). -/
theorem sum_classShares_le : ((classShares l).map (·.2)).sum ≤ l.capacity := by
  have hpart : ∀ k ≤ 3, ((classPart l k).1.map (·.2)).sum ≤ classBudget l k := fun k hk =>
    grantSum_classPart hk ▸ (classPart_divided hk).grantSum_le
  have hsum : ((classShares l).map (·.2)).sum = ((classPart l 0).1.map (·.2)).sum + ((classPart l 1).1.map (·.2)).sum +
      ((classPart l 2).1.map (·.2)).sum + ((classPart l 3).1.map (·.2)).sum := by
    simp [classShares, add_assoc]
  have h0 := hpart 0 (by decide)
  have h1 := hpart 1 (by decide)
  have h2 := hpart 2 (by decide)
  have h3 := hpart 3 (by decide)
  rw [classBudget_succ] at h1 h2 h3
  rw [classBudget_succ] at h2 h3
  rw [classBudget_succ] at h3
  rw [classBudget] at h0 h1 h2 h3
  omega

theorem classShares_nodup : (sharers (classShares l)).Nodup := by
  rw [classShares, sharers_flatMap, List.nodup_flatMap]
  refine ⟨fun k _ => classPart_nodup l k, List.Nodup.pairwise_of_forall_ne (by decide) fun j _ k _ hne c hj hk => hne ?_⟩
  obtain ⟨x, hx, rfl, -⟩ := claim_of_sharer hj
  obtain ⟨y, hy, rfl, -⟩ := claim_of_sharer hk
  rw [hx] at hy
  cases hy
  rfl

/-! ## The division of a record (R98, R99) -/

/-- What a record's division gives a client. -/
def dividedTo (l : LatchedRecord) (c : Nat) : Nat := shareOf (divideRecord l).shares c

/-- The first EXCLUSIVE claim of a record. -/
def exclusiveClaim (l : LatchedRecord) : Option (Nat × Claim) := l.claims.find? fun y => y.2.level == .exclusive

theorem divideRecord_exclusive {l : LatchedRecord} (hkind : l.kind = .plain ∨ l.kind = .child) {y : Nat × Claim}
    (hy : exclusiveClaim l = some y) : divideRecord l = divideExclusive l.capacity y.1 y.2 := by
  unfold exclusiveClaim at hy
  rcases hkind with e | e <;> simp only [divideRecord, e, hy]

theorem divideRecord_shared {l : LatchedRecord} (hkind : l.kind = .plain ∨ l.kind = .child)
    (hnone : exclusiveClaim l = none) :
    divideRecord l = ⟨classShares l, ([0, 1, 2, 3].map fun k => (classPart l k).2).sum⟩ := by
  unfold exclusiveClaim at hnone
  rcases hkind with e | e <;> simp only [divideRecord, e, hnone, divideClasses_eq, classShares]

theorem divideRecord_other {l : LatchedRecord} (hplain : l.kind ≠ .plain) (hchild : l.kind ≠ .child) :
    divideRecord l = ⟨[], 0⟩ := by
  cases hkind : l.kind <;> simp_all [divideRecord]

/-- The shares of a record: none, one of an EXCLUSIVE claim, or those of the classes. -/
theorem divideRecord_cases (l : LatchedRecord) :
    (divideRecord l).shares = [] ∨
      (∃ c x, l.claim c = some x ∧ (divideRecord l).shares = (divideExclusive l.capacity c x).shares) ∨
      (divideRecord l).shares = classShares l := by
  by_cases hplain : l.kind = .plain ∨ l.kind = .child
  · cases hex : exclusiveClaim l with
    | none => exact .inr (.inr (by rw [divideRecord_shared hplain hex]))
    | some y => exact .inr (.inl ⟨y.1, y.2, mem_claims.mp (List.mem_of_find?_eq_some hex),
        by rw [divideRecord_exclusive hplain hex]⟩)
  · rw [not_or] at hplain
    exact .inl (by rw [divideRecord_other hplain.1 hplain.2])

/-- An EXCLUSIVE claim has the lower of its q and the capacity, or 0 below its floor (R99). -/
theorem divideExclusive_shares (capacity c : Nat) (x : Claim) :
    (divideExclusive capacity c x).shares = [(c, if min x.q capacity < x.f then 0 else min x.q capacity)] := by
  simp only [divideExclusive]
  split <;> rfl

/-- A client without a claim receives nothing. -/
theorem dividedTo_none {l : LatchedRecord} {c : Nat} (h : l.claim c = none) : dividedTo l c = 0 := by
  refine shareOf_absent fun hc => ?_
  rcases divideRecord_cases l with e | ⟨c', x, hx, e⟩ | e <;> rw [e] at hc
  · cases hc
  · rw [divideExclusive_shares] at hc
    cases List.mem_singleton.mp hc
    rw [h] at hx
    cases hx
  · obtain ⟨x, hx, -⟩ := claim_of_classSharer hc
    rw [h] at hx
    cases hx

/-- A claim receives nothing, or something between its floor and what it asks for (R99, R103). -/
theorem dividedTo_between {l : LatchedRecord} {c : Nat} {x : Claim} (hx : l.claim c = some x) (hfloor : x.f ≤ x.q) :
    dividedTo l c = 0 ∨ (x.f ≤ dividedTo l c ∧ dividedTo l c ≤ x.q) := by
  unfold dividedTo
  rcases divideRecord_cases l with e | ⟨c', x', hx', e⟩ | e <;> rw [e]
  · exact .inl rfl
  · rw [divideExclusive_shares, shareOf_cons]
    by_cases hc : c' = c
    · subst hc
      rw [hx] at hx'
      cases hx'
      rw [if_pos rfl]
      dsimp only
      split <;> omega
    · exact .inl (if_neg hc)
  · by_cases hin : x.cls ≤ 3 ∧ 0 < x.q
    · exact (classPart_divided hin.1).between (mem_classClaims.mpr ⟨hx, rfl, hin.2⟩) hfloor
    · refine .inl (shareOf_absent fun hc => hin ?_)
      obtain ⟨y, hy, hcls⟩ := claim_of_classSharer hc
      rw [hx] at hy
      cases hy
      exact hcls

theorem claim_lt {l : LatchedRecord} {c : Nat} {x : Claim} (hx : l.claim c = some x) : c < 3 := by
  by_contra hc
  rw [LatchedRecord.claim_beyond l (Nat.le_of_not_lt hc)] at hx
  cases hx

/-- The clients together receive no more than the capacity (R99, R104). -/
theorem sum_dividedTo_le (l : LatchedRecord) : dividedTo l 0 + dividedTo l 1 + dividedTo l 2 ≤ l.capacity := by
  have hall : ∀ shares : List Share, (sharers shares).Nodup → (∀ c ∈ sharers shares, c < 3) →
      shareOf shares 0 + shareOf shares 1 + shareOf shares 2 = (shares.map (·.2)).sum := fun shares hnodup hlt => by
    rw [← sum_shareOf hnodup (cs := [0, 1, 2]) (by decide) fun c hc => by
      have := hlt c hc
      simp only [List.mem_cons, List.not_mem_nil, or_false]
      omega]
    simp [add_assoc]
  unfold dividedTo
  rcases divideRecord_cases l with e | ⟨c, x, hx, e⟩ | e <;> rw [e]
  · exact Nat.zero_le _
  · rw [divideExclusive_shares, hall _ (by simp [sharers]) (by simpa [sharers] using claim_lt hx)]
    simp only [List.map_cons, List.map_nil, List.sum_singleton]
    split <;> omega
  · rw [hall _ (classShares_nodup l) fun c hc => (claim_of_classSharer hc).elim fun _ h => claim_lt h.1]
    exact sum_classShares_le l

end Sys2Proof.Machine
end


-- ==== Sys2Proof/Proofs/ClassCut.lean ====
section
/-! SUPPORT. The cut of one class of a parent (R106, R107): the scaling with its floors, and the trim, grant by grant.
-/

namespace Sys2Proof.Machine

/-! ## Lines by resource and client -/

/-- The resource and client of a line. -/
def Line.key (l : Line) : Nat × Nat := (l.resource, l.client)

/-- A line but for its grant. -/
def Line.bare (l : Line) : Line := { l with g := 0 }

theorem Line.fields_of_bare {l l' : Line} (h : l.bare = l'.bare) :
    l.resource = l'.resource ∧ l.client = l'.client ∧ l.cls = l'.cls ∧ l.f = l'.f ∧ l.draw = l'.draw := by
  obtain ⟨⟩ := l
  obtain ⟨⟩ := l'
  simpa [bare] using h

theorem Line.key_of_bare {l l' : Line} (h : l.bare = l'.bare) : l.key = l'.key := by
  obtain ⟨hr, hc, -⟩ := fields_of_bare h
  rw [key, key, hr, hc]

theorem keys_perm {a b : List Line} (h : (a.map Line.bare).Perm (b.map Line.bare)) :
    (a.map Line.key).Perm (b.map Line.key) := by
  have hkeys : ∀ l : List Line, l.map Line.key = (l.map Line.bare).map Line.key := fun l => by
    rw [List.map_map]
    rfl
  rw [hkeys a, hkeys b]
  exact h.map _

/-- What lines grant to a client on a resource. -/
def grantIn (ls : List Line) (r c : Nat) : Nat :=
  match ls.find? fun l => l.resource == r && l.client == c with
  | some l => l.g
  | none => 0

theorem grantIn_of_mem {ls : List Line} (hnodup : (ls.map Line.key).Nodup) {l : Line} (hl : l ∈ ls) :
    grantIn ls l.resource l.client = l.g := by
  have hsome : (ls.find? fun x => x.resource == l.resource && x.client == l.client).isSome :=
    List.find?_isSome.mpr ⟨l, hl, by simp⟩
  obtain ⟨x, hx⟩ := Option.isSome_iff_exists.mp hsome
  have hkey := List.find?_some hx
  simp only [Bool.and_eq_true, beq_iff_eq] at hkey
  have hsame : x = l := List.inj_on_of_nodup_map hnodup (List.mem_of_find?_eq_some hx) hl (Prod.ext hkey.1 hkey.2)
  rw [grantIn, hx, hsame]

theorem grantIn_absent {ls : List Line} {r c : Nat} (h : (r, c) ∉ ls.map Line.key) : grantIn ls r c = 0 := by
  have hnone : (ls.find? fun x => x.resource == r && x.client == c) = none :=
    List.find?_eq_none.mpr fun x hx hkey => h (List.mem_map.mpr ⟨x, hx, by simpa [Line.key] using hkey⟩)
  rw [grantIn, hnone]

theorem chargeOf_append (a b : List Line) : chargeOf (a ++ b) = chargeOf a + chargeOf b := by
  simp [chargeOf]

theorem chargeOf_perm {a b : List Line} (h : a.Perm b) : chargeOf a = chargeOf b := (h.map _).sum_eq

theorem charge_zero {l : Line} (h : l.g = 0) : l.charge = 0 := by
  simp [Line.charge, drawOf, h, divUp]

theorem chargeOf_zero {ls : List Line} (h : ∀ l ∈ ls, l.g = 0) : chargeOf ls = 0 :=
  List.sum_eq_zero fun n hn => by
    obtain ⟨l, hl, rfl⟩ := List.mem_map.mp hn
    exact charge_zero (h l hl)

/-- The lines that grant something bear the whole charge. -/
theorem chargeOf_positive (ls : List Line) : chargeOf (ls.filter fun l => decide (0 < l.g)) = chargeOf ls := by
  have hperm := chargeOf_perm (List.filter_append_perm (fun l : Line => decide (0 < l.g)) ls)
  have hzero : chargeOf (ls.filter fun l => !decide (0 < l.g)) = 0 := chargeOf_zero fun l hl => by
    simpa using (List.mem_filter.mp hl).2
  rw [chargeOf_append, hzero] at hperm
  exact hperm

/-! ## The trim (R107) -/

/-- What the trim of lines leaves: each line with a grant no higher, which is 0 or at its floor. -/
structure Trimmed (before after : List Line) : Prop where
  same : (after.map Line.bare).Perm (before.map Line.bare)
  lower : ∀ l ∈ after, ∃ l0 ∈ before, l.bare = l0.bare ∧ l.g ≤ l0.g
  floor : (∀ l ∈ before, l.g = 0 ∨ l.f ≤ l.g) → ∀ l ∈ after, l.g = 0 ∨ l.f ≤ l.g

namespace Trimmed

theorem refl (ls : List Line) : Trimmed ls ls := ⟨.refl _, fun l hl => ⟨l, hl, rfl, le_rfl⟩, id⟩

theorem trans {a b c : List Line} (h : Trimmed a b) (h' : Trimmed b c) : Trimmed a c where
  same := h'.same.trans h.same
  lower l hl := by
    obtain ⟨l1, hl1, hbare1, hg1⟩ := h'.lower l hl
    obtain ⟨l0, hl0, hbare0, hg0⟩ := h.lower l1 hl1
    exact ⟨l0, hl0, hbare1.trans hbare0, hg1.trans hg0⟩
  floor hf := h'.floor (h.floor hf)

theorem of_perm {a b : List Line} (h : b.Perm a) : Trimmed a b where
  same := h.map _
  lower l hl := ⟨l, h.subset hl, rfl, le_rfl⟩
  floor hf l hl := hf l (h.subset hl)

/-- One line lowered, to 0 or to no less than its floor. -/
theorem one {l : Line} {g : Nat} (hle : g ≤ l.g) (hfloor : g = 0 ∨ l.f ≤ g) (ls : List Line) :
    Trimmed (l :: ls) ({ l with g := g } :: ls) where
  same := .refl _
  lower x hx := by
    rcases List.mem_cons.mp hx with rfl | hx
    · exact ⟨l, List.mem_cons_self .., rfl, hle⟩
    · exact ⟨x, List.mem_cons_of_mem _ hx, rfl, le_rfl⟩
  floor hf x hx := by
    rcases List.mem_cons.mp hx with rfl | hx
    · exact hfloor
    · exact hf x (List.mem_cons_of_mem _ hx)

end Trimmed

/-- A trim only lowers grants, to 0 or to no less than their floor. -/
theorem trimClass_trimmed (fuel budget : Nat) (turn out : List Line) (drops : Nat) :
    Trimmed (turn ++ out) (trimClass fuel budget turn out drops).1 := by
  induction fuel generalizing turn out drops with
  | zero => exact .refl _
  | succ fuel ih =>
    unfold trimClass
    split
    · exact .refl _
    · split
      · exact .refl _
      · next l rest _ =>
        have hdropped : Trimmed (l :: rest ++ out) (rest ++ { l with g := 0 } :: out) :=
          (Trimmed.one (Nat.zero_le _) (.inl rfl) (rest ++ out)).trans (.of_perm List.perm_middle)
        dsimp only
        split
        · exact hdropped.trans (ih _ _ _)
        · next hfloor =>
          split
          · exact hdropped.trans (ih _ _ _)
          · refine Trimmed.trans ?_ (ih _ _ _)
            refine (Trimmed.one (g := l.g - 1) (Nat.sub_le _ _) (.inr (Nat.le_of_not_lt hfloor)) (rest ++ out)).trans
              (.of_perm ?_)
            rw [List.append_assoc]
            exact List.perm_middle

/-- A trim with enough fuel ends within the budget. -/
theorem trimClass_charge {fuel budget : Nat} {turn out : List Line} (drops : Nat) (hout : ∀ l ∈ out, l.g = 0)
    (hturn : ∀ l ∈ turn, 0 < l.g) (hfuel : (turn.map (·.g)).sum < fuel) :
    chargeOf (trimClass fuel budget turn out drops).1 ≤ budget := by
  induction fuel generalizing turn out drops with
  | zero => exact absurd hfuel (Nat.not_lt_zero _)
  | succ fuel ih =>
    unfold trimClass
    split
    · next hfits =>
      rw [chargeOf_append, chargeOf_zero hout]
      exact hfits
    · split
      · exact (chargeOf_zero hout).le.trans (Nat.zero_le _)
      · next l rest _ =>
        have hpos := hturn l (List.mem_cons_self ..)
        have hrest : ∀ x ∈ rest, 0 < x.g := fun x hx => hturn x (List.mem_cons_of_mem _ hx)
        have hzero : ∀ x ∈ { l with g := 0 } :: out, x.g = 0 := by
          rintro x hx
          rcases List.mem_cons.mp hx with rfl | hx
          · rfl
          · exact hout x hx
        simp only [List.map_cons, List.sum_cons] at hfuel
        dsimp only
        split
        · exact ih _ hzero hrest (by omega)
        · split
          · exact ih _ hzero hrest (by omega)
          · next hne =>
            refine ih _ hout (fun x hx => ?_) ?_
            · rcases List.mem_append.mp hx with hx | hx
              · exact hrest x hx
              · rw [List.mem_singleton.mp hx]
                exact Nat.pos_of_ne_zero hne
            · simp only [List.map_append, List.sum_append, List.map_cons, List.map_nil, List.sum_singleton]
              omega

/-- A trim of lines within the budget changes none. -/
theorem trimClass_fits (fuel : Nat) {budget : Nat} {turn : List Line} (out : List Line) (drops : Nat)
    (h : chargeOf turn ≤ budget) : (trimClass fuel budget turn out drops).1 = turn ++ out := by
  cases fuel <;> simp [trimClass, h]

/-! ## A class scaled (R106) -/

/-- A grant scaled into the room left, 0 below its floor. -/
def scaledGrant (budget total f g : Nat) : Nat := if g * budget / total < f then 0 else g * budget / total

/-- The lines of a class scaled into the room left. -/
def scaledLines (budget : Nat) (mine : List Line) : List Line :=
  mine.map fun l => { l with g := scaledGrant budget (chargeOf mine) l.f l.g }

/-- The lines of a class as its cut leaves them. -/
def cutLines (budget : Nat) (mine : List Line) : List Line :=
  (trimClass ((((scaledLines budget mine).filter fun l => decide (0 < l.g)).map (·.g)).sum + 1) budget
    ((scaledLines budget mine).filter fun l => decide (0 < l.g))
    ((scaledLines budget mine).filter fun l => l.g == 0) 0).1

theorem scaleClass_lines (k budget : Nat) (c : Cut) :
    (scaleClass k budget c).lines = c.lines.filter (fun l => l.cls != k) ++ cutLines budget (ofClass k c.lines) := by
  have hkept : ((ofClass k c.lines).map fun l => { l with g := l.g * budget / chargeOf (ofClass k c.lines) }).map
      (fun l => if l.g < l.f then { l with g := 0 } else l) = scaledLines budget (ofClass k c.lines) := by
    rw [scaledLines, List.map_map]
    refine List.map_congr_left fun l _ => ?_
    simp only [Function.comp_apply, scaledGrant]
    split <;> rfl
  simp only [scaleClass, hkept]
  rfl

/-- The lines that take their turn in the trim, and those that do not. -/
theorem positive_perm (ls : List Line) :
    ((ls.filter fun l => decide (0 < l.g)) ++ ls.filter fun l => l.g == 0).Perm ls := by
  have hzero : (ls.filter fun l => l.g == 0) = ls.filter fun l => !decide (0 < l.g) :=
    List.filter_congr fun l _ => by
      rcases Nat.eq_zero_or_pos l.g with h | h
      · simp [h]
      · simp [h, Nat.ne_of_gt h]
  rw [hzero]
  exact List.filter_append_perm _ ls

theorem cutLines_trimmed (budget : Nat) (mine : List Line) :
    Trimmed (scaledLines budget mine) (cutLines budget mine) :=
  (Trimmed.of_perm (positive_perm _)).trans (trimClass_trimmed _ _ _ _ _)

/-- The cut class fits the room left (R107). -/
theorem cutLines_charge (budget : Nat) (mine : List Line) : chargeOf (cutLines budget mine) ≤ budget :=
  trimClass_charge 0 (fun l hl => by simpa using (List.mem_filter.mp hl).2)
    (fun l hl => by simpa using (List.mem_filter.mp hl).2) (Nat.lt_succ_self _)

/-- A class that the scaling fits into the room left is not trimmed (R107). -/
theorem cutLines_fits {budget : Nat} {mine : List Line} (h : chargeOf (scaledLines budget mine) ≤ budget) :
    (cutLines budget mine).Perm (scaledLines budget mine) := by
  rw [cutLines, trimClass_fits _ _ _ (by rwa [chargeOf_positive])]
  exact positive_perm _

theorem scaledLines_bare (budget : Nat) (mine : List Line) :
    (scaledLines budget mine).map Line.bare = mine.map Line.bare := by
  rw [scaledLines, List.map_map]
  rfl

theorem cutLines_bare (budget : Nat) (mine : List Line) :
    ((cutLines budget mine).map Line.bare).Perm (mine.map Line.bare) :=
  scaledLines_bare budget mine ▸ (cutLines_trimmed budget mine).same

end Sys2Proof.Machine
end


-- ==== Sys2Proof/Proofs/ParentCut.lean ====
section
/-! SUPPORT. The cut of a parent, class by class from the least urgent (R106 to R108): a class is cut exactly when its
draw exceeds what the more urgent classes leave of the capacity. -/

namespace Sys2Proof.Machine

/-! ## The lines of the classes -/

/-- The lines of the classes more urgent than `k`. -/
def moreUrgentLines (k : Nat) (ls : List Line) : List Line := ls.filter fun l => decide (l.cls < k)

/-- What the classes more urgent than `k` leave of a capacity. -/
def classRoom (capacity : Nat) (ls : List Line) (k : Nat) : Nat := capacity - chargeOf (moreUrgentLines k ls)

/-- The draw of class `k` exceeds the room left for it. -/
abbrev Exceeds (capacity : Nat) (ls : List Line) (k : Nat) : Prop := classRoom capacity ls k < chargeOf (ofClass k ls)

/-- Lines with a property and lines with another that none shares, in a charge. -/
theorem chargeOf_filter_or {p q : Line → Bool} (h : ∀ l, p l = true → q l = false) (ls : List Line) :
    chargeOf (ls.filter fun l => p l || q l) = chargeOf (ls.filter p) + chargeOf (ls.filter q) := by
  induction ls with
  | nil => rfl
  | cons l ls ih =>
    have hl := h l
    simp only [chargeOf] at ih
    cases hp : p l <;> cases hq : q l <;> simp_all [chargeOf, add_assoc, add_left_comm]

theorem chargeOf_moreUrgent_succ (k : Nat) (ls : List Line) :
    chargeOf (moreUrgentLines (k + 1) ls) = chargeOf (moreUrgentLines k ls) + chargeOf (ofClass k ls) := by
  have hor : moreUrgentLines (k + 1) ls = ls.filter fun l => decide (l.cls < k) || l.cls == k :=
    List.filter_congr fun l _ => by simp [Nat.le_iff_lt_or_eq, beq_eq_decide]
  rw [hor, chargeOf_filter_or fun l hl => by simp at hl ⊢; omega]
  rfl

theorem chargeOf_moreUrgent_zero (ls : List Line) : chargeOf (moreUrgentLines 0 ls) = 0 := by
  simp [moreUrgentLines, chargeOf]

theorem chargeOf_filter_le (p : Line → Bool) (ls : List Line) : chargeOf (ls.filter p) ≤ chargeOf ls :=
  (List.filter_sublist.map _).sum_le_sum fun _ _ => Nat.zero_le _

theorem ofClass_append (k : Nat) (a b : List Line) : ofClass k (a ++ b) = ofClass k a ++ ofClass k b :=
  List.filter_append ..

/-- The classes of lines that differ from others in their grants alone. -/
theorem classes_of_bare {a b : List Line} (h : (a.map Line.bare).Perm (b.map Line.bare)) {p : Nat → Prop}
    (hb : ∀ l ∈ b, p l.cls) : ∀ l ∈ a, p l.cls := by
  intro l hl
  obtain ⟨l0, hl0, hbare⟩ := List.mem_map.mp (h.subset (List.mem_map_of_mem hl))
  obtain ⟨-, -, hcls, -⟩ := Line.fields_of_bare hbare
  exact hcls ▸ hb l0 hl0

theorem cutLines_cls {k budget : Nat} {ls : List Line} : ∀ l ∈ cutLines budget (ofClass k ls), l.cls = k :=
  classes_of_bare (p := (· = k)) (cutLines_bare _ _) fun l hl => by simpa [ofClass] using (List.mem_filter.mp hl).2

/-! ## One class of the cut -/

/-- The lines of class `k` after its cut. -/
def classAfter (capacity : Nat) (ls : List Line) (k : Nat) : List Line :=
  if Exceeds capacity ls k then cutLines (classRoom capacity ls k) (ofClass k ls) else ofClass k ls

/-- A class is cut when its draw exceeds the room left, whether or not the test of the total comes first. -/
theorem cutClass_eq (capacity : Nat) (c : Cut) (k : Nat) : cutClass capacity c k =
    if Exceeds capacity c.lines k then scaleClass k (classRoom capacity c.lines k) c else c := by
  have htotal : chargeOf (moreUrgentLines k c.lines) + chargeOf (ofClass k c.lines) ≤ chargeOf c.lines :=
    chargeOf_moreUrgent_succ k c.lines ▸ chargeOf_filter_le _ _
  unfold cutClass
  dsimp only
  split
  · next hfits =>
    refine (if_neg fun hexceeds => ?_).symm
    unfold Exceeds classRoom at hexceeds
    omega
  · split
    · next hle => exact (if_neg (Nat.not_lt.mpr hle)).symm
    · next hlt => exact (if_pos (Nat.lt_of_not_le hlt)).symm

section Step

variable {capacity : Nat} {c : Cut} {k : Nat}

/-- The lines with a property that no line of class `k` has. -/
theorem cutClass_filter {p : Line → Bool} (hp : ∀ l : Line, l.cls = k → p l = false) :
    (cutClass capacity c k).lines.filter p = c.lines.filter p := by
  rw [cutClass_eq]
  split
  · have hcut : (cutLines (classRoom capacity c.lines k) (ofClass k c.lines)).filter p = [] :=
      List.filter_eq_nil_iff.mpr fun l hl => by simp [hp l (cutLines_cls l hl)]
    rw [scaleClass_lines, List.filter_append, List.filter_filter, hcut, List.append_nil]
    refine List.filter_congr fun l _ => ?_
    by_cases hk : l.cls = k
    · simp [hk, hp l hk]
    · simp [hk]
  · rfl

theorem cutClass_ofClass_other {j : Nat} (h : j ≠ k) : ofClass j (cutClass capacity c k).lines = ofClass j c.lines :=
  cutClass_filter fun l hl => by simp [hl, Ne.symm h]

theorem cutClass_moreUrgent {j : Nat} (h : j ≤ k) :
    moreUrgentLines j (cutClass capacity c k).lines = moreUrgentLines j c.lines :=
  cutClass_filter fun l hl => by simp [hl, h]

theorem cutClass_ofClass : ofClass k (cutClass capacity c k).lines = classAfter capacity c.lines k := by
  rw [cutClass_eq, classAfter]
  split
  · have hothers : ofClass k (c.lines.filter fun l => l.cls != k) = [] :=
      List.filter_eq_nil_iff.mpr fun l hl => by simpa using (List.mem_filter.mp hl).2
    have hall : ofClass k (cutLines (classRoom capacity c.lines k) (ofClass k c.lines)) =
        cutLines (classRoom capacity c.lines k) (ofClass k c.lines) :=
      List.filter_eq_self.mpr fun l hl => by simp [cutLines_cls l hl]
    rw [scaleClass_lines, ofClass_append, hothers, hall, List.nil_append]
  · rfl

theorem cutClass_bare : ((cutClass capacity c k).lines.map Line.bare).Perm (c.lines.map Line.bare) := by
  rw [cutClass_eq]
  split
  · have hrest : (c.lines.filter fun l => l.cls != k) = c.lines.filter fun l => !(l.cls == k) := rfl
    rw [scaleClass_lines, List.map_append, hrest]
    refine ((cutLines_bare _ _).append_left _).trans ?_
    rw [← List.map_append]
    exact ((List.perm_append_comm).trans (List.filter_append_perm _ c.lines)).map _
  · exact .refl _

theorem cutClass_cls : (cutClass capacity c k).cls = if Exceeds capacity c.lines k then some k else c.cls := by
  rw [cutClass_eq]
  split <;> rfl

theorem cutClass_room {j : Nat} (h : j < k) :
    classRoom capacity (cutClass capacity c k).lines j = classRoom capacity c.lines j := by
  rw [classRoom, classRoom, cutClass_moreUrgent h.le]

theorem cutClass_exceeds {j : Nat} (h : j < k) :
    Exceeds capacity (cutClass capacity c k).lines j ↔ Exceeds capacity c.lines j := by
  rw [Exceeds, Exceeds, cutClass_room h, cutClass_ofClass_other (Nat.ne_of_lt h)]

theorem cutClass_classAfter {j : Nat} (h : j < k) :
    classAfter capacity (cutClass capacity c k).lines j = classAfter capacity c.lines j := by
  simp only [classAfter, Exceeds, cutClass_room h, cutClass_ofClass_other (Nat.ne_of_lt h)]

end Step

/-! ## The classes from the least urgent -/

section Fold

variable {capacity : Nat}

theorem foldl_ofClass_other {k : Nat} {ks : List Nat} (h : k ∉ ks) (c : Cut) :
    ofClass k (ks.foldl (cutClass capacity) c).lines = ofClass k c.lines := by
  induction ks generalizing c with
  | nil => rfl
  | cons j ks ih =>
    rw [List.mem_cons, not_or] at h
    rw [List.foldl_cons, ih h.2, cutClass_ofClass_other h.1]

theorem foldl_ofClass {k : Nat} {ks : List Nat} (hks : ks.Pairwise (· > ·)) (hk : k ∈ ks) (c : Cut) :
    ofClass k (ks.foldl (cutClass capacity) c).lines = classAfter capacity c.lines k := by
  induction ks generalizing c with
  | nil => cases hk
  | cons j ks ih =>
    obtain ⟨hj, hrest⟩ := List.pairwise_cons.mp hks
    rw [List.foldl_cons]
    rcases List.mem_cons.mp hk with rfl | hk
    · rw [foldl_ofClass_other fun hin => absurd (hj k hin) (Nat.lt_irrefl k), cutClass_ofClass]
    · rw [ih hrest hk, cutClass_classAfter (hj k hk)]

theorem foldl_bare (ks : List Nat) (c : Cut) :
    ((ks.foldl (cutClass capacity) c).lines.map Line.bare).Perm (c.lines.map Line.bare) := by
  induction ks generalizing c with
  | nil => exact .refl _
  | cons j ks ih => exact (ih _).trans cutClass_bare

/-- The class noted at last is the most urgent one cut. -/
theorem foldl_cls {k : Nat} {ks : List Nat} (hks : ks.Pairwise (· > ·)) (c : Cut) :
    (ks.foldl (cutClass capacity) c).cls = some k ↔
      (k ∈ ks ∧ Exceeds capacity c.lines k ∧ ∀ j ∈ ks, j < k → ¬Exceeds capacity c.lines j) ∨
        (c.cls = some k ∧ ∀ j ∈ ks, ¬Exceeds capacity c.lines j) := by
  induction ks generalizing c with
  | nil => simp
  | cons i ks ih =>
    obtain ⟨hi, hrest⟩ := List.pairwise_cons.mp hks
    have hsame : ∀ j ∈ ks, (Exceeds capacity (cutClass capacity c i).lines j ↔ Exceeds capacity c.lines j) :=
      fun j hj => cutClass_exceeds (hi j hj)
    have hnot : i ∉ ks := fun h => absurd (hi i h) (Nat.lt_irrefl i)
    rw [List.foldl_cons, ih hrest, cutClass_cls]
    grind

end Fold

/-! ## The cut of a parent -/

section Parent

variable (capacity : Nat) (ls : List Line)

theorem cutParent_ofClass {k : Nat} (hk : k ≤ 3) :
    ofClass k (cutParent capacity ls).lines = classAfter capacity ls k :=
  foldl_ofClass (by decide) (by simp only [List.mem_cons, List.not_mem_nil, or_false]; omega) _

theorem cutParent_bare : ((cutParent capacity ls).lines.map Line.bare).Perm (ls.map Line.bare) := foldl_bare _ _

/-- The cut class is the most urgent class cut (R116). -/
theorem cutParent_cls {k : Nat} :
    (cutParent capacity ls).cls = some k ↔ k ≤ 3 ∧ Exceeds capacity ls k ∧ ∀ j < k, ¬Exceeds capacity ls j := by
  have hmem : ∀ j, j ∈ [3, 2, 1, 0] ↔ j ≤ 3 := fun j => by
    simp only [List.mem_cons, List.not_mem_nil, or_false]
    omega
  rw [cutParent, foldl_cls (by decide)]
  simp only [hmem, reduceCtorEq, false_and, or_false]
  exact ⟨fun ⟨hk, he, hj⟩ => ⟨hk, he, fun j hjk => hj j (by omega) hjk⟩, fun ⟨hk, he, hj⟩ => ⟨hk, he, fun j _ => hj j⟩⟩

variable {ls}

/-- The charge of lines of four classes, class by class. -/
theorem chargeOf_classes (h : ∀ l ∈ ls, l.cls ≤ 3) : chargeOf ls =
    chargeOf (ofClass 0 ls) + chargeOf (ofClass 1 ls) + chargeOf (ofClass 2 ls) + chargeOf (ofClass 3 ls) := by
  have hall : moreUrgentLines 4 ls = ls :=
    List.filter_eq_self.mpr fun l hl => decide_eq_true (Nat.lt_succ_of_le (h l hl))
  rw [← congrArg chargeOf hall, chargeOf_moreUrgent_succ, chargeOf_moreUrgent_succ, chargeOf_moreUrgent_succ,
    chargeOf_moreUrgent_succ, chargeOf_moreUrgent_zero, Nat.zero_add]

/-- A class ends within the room left for it. -/
theorem classAfter_charge (k : Nat) : chargeOf (classAfter capacity ls k) ≤ classRoom capacity ls k := by
  unfold classAfter
  split
  · exact cutLines_charge _ _
  · next h => exact Nat.le_of_not_lt h

/-- No class rises. -/
theorem classAfter_le (k : Nat) : chargeOf (classAfter capacity ls k) ≤ chargeOf (ofClass k ls) := by
  unfold classAfter
  split
  · next h => exact (cutLines_charge _ _).trans h.le
  · exact le_rfl

/-- The classes together end within the capacity (R108). -/
theorem cutParent_charge (h : ∀ l ∈ ls, l.cls ≤ 3) : chargeOf (cutParent capacity ls).lines ≤ capacity := by
  rw [chargeOf_classes (classes_of_bare (p := (· ≤ 3)) (cutParent_bare capacity ls) h),
    cutParent_ofClass _ _ (by decide),
    cutParent_ofClass _ _ (by decide), cutParent_ofClass _ _ (by decide), cutParent_ofClass _ _ (by decide)]
  have hroom : ∀ k, chargeOf (classAfter capacity ls k) ≤ capacity - chargeOf (moreUrgentLines k ls) :=
    classAfter_charge capacity
  have hle := fun k => classAfter_le capacity (ls := ls) k
  have hsucc := fun k => chargeOf_moreUrgent_succ k ls
  have hzero := chargeOf_moreUrgent_zero ls
  have r0 := hroom 0
  have r1 := hroom 1
  have r2 := hroom 2
  have r3 := hroom 3
  have e0 := hle 0
  have e1 := hle 1
  have e2 := hle 2
  have s0 := hsucc 0
  have s1 := hsucc 1
  have s2 := hsucc 2
  simp only [Nat.zero_add, Nat.reduceAdd] at s0 s1 s2
  omega

end Parent

end Sys2Proof.Machine
end


-- ==== Sys2Proof/Proofs/ParentLines.lean ====
section
/-! SUPPORT. The lines charged to a parent, and the draws of its children's grants: the sum over records and clients
is the charge of the lines (R105). -/

namespace Sys2Proof.Machine

/-! ## The divisions of a pass -/

/-- The divisions of all records. -/
def divisionsOf (t : Table 12 LatchedRecord) : Table 12 Division := Table.build 12 fun r => divideRecord (t.get r)

theorem divisionsOf_share (t : Table 12 LatchedRecord) (r c : Nat) :
    shareOf ((divisionsOf t).get r).shares c = dividedTo (t.get r) c := by
  by_cases hr : r < 12
  · rw [divisionsOf, Table.get_build _ hr]
    rfl
  · rw [Table.get_beyond _ _ (Nat.le_of_not_lt hr), Table.get_beyond _ _ (Nat.le_of_not_lt hr)]
    rfl

/-! ## Lines charged to a parent -/

/-- A record is a child of parent `p`. -/
abbrev IsChild (t : Table 12 LatchedRecord) (p r : Nat) : Prop := (t.get r).kind = .child ∧ (t.get r).parent = some p

/-- A line stands for a latched claim on a child of the parent. -/
structure OnChild (t : Table 12 LatchedRecord) (p : Nat) (l : Line) : Prop where
  child : IsChild t p l.resource
  draw : l.draw = (t.get l.resource).draw
  claim : ∃ x, (t.get l.resource).claim l.client = some x ∧ l.cls = x.cls ∧ l.f = x.f

/-- Lines of a parent: each for a claim of its own. -/
structure Charged (t : Table 12 LatchedRecord) (p : Nat) (ls : List Line) : Prop where
  nodup : (ls.map Line.key).Nodup
  onChild : ∀ l ∈ ls, OnChild t p l

variable {t : Table 12 LatchedRecord} {p : Nat}

theorem OnChild.of_bare {l l' : Line} (h : OnChild t p l) (hbare : l'.bare = l.bare) : OnChild t p l' := by
  obtain ⟨hr, hc, hcls, hf, hdraw⟩ := Line.fields_of_bare hbare
  obtain ⟨hchild, hd, hclaim⟩ := h
  constructor <;> simp only [hr, hc, hcls, hf, hdraw] <;> assumption

theorem IsChild.lt {r : Nat} (h : IsChild t p r) : r < 12 := by
  by_contra hr
  have hkind := h.1
  rw [Table.get_beyond _ _ (Nat.le_of_not_lt hr)] at hkind
  cases hkind

theorem Charged.filter {ls : List Line} (h : Charged t p ls) (s : Line → Bool) : Charged t p (ls.filter s) where
  nodup := (List.filter_sublist.map _).nodup h.nodup
  onChild l hl := h.onChild l (List.mem_of_mem_filter hl)

/-- Lines that differ from those of a parent in their grants alone. -/
theorem Charged.of_bare {a b : List Line} (h : Charged t p b) (hbare : (a.map Line.bare).Perm (b.map Line.bare)) :
    Charged t p a where
  nodup := (keys_perm hbare).nodup_iff.mpr h.nodup
  onChild l hl := by
    obtain ⟨l0, hl0, he⟩ := List.mem_map.mp (hbare.subset (List.mem_map_of_mem hl))
    exact (h.onChild l0 hl0).of_bare he.symm

/-- A line of a class filter is missing only where the line itself is. -/
theorem Charged.key_filter {ls : List Line} (h : Charged t p ls) {sel : Nat → Bool} {r c : Nat} {x : Claim}
    (hx : (t.get r).claim c = some x) (hsel : sel x.cls = true) :
    (r, c) ∈ (ls.filter fun l => sel l.cls).map Line.key ↔ (r, c) ∈ ls.map Line.key := by
  refine ⟨fun hin => (List.filter_sublist.map _).subset hin, fun hin => ?_⟩
  obtain ⟨l, hl, hkey⟩ := List.mem_map.mp hin
  cases hkey
  obtain ⟨y, hy, hcls, -⟩ := (h.onChild l hl).claim
  rw [hx] at hy
  cases hy
  exact List.mem_map.mpr ⟨l, List.mem_filter.mpr ⟨hl, by rwa [hcls]⟩, rfl⟩

/-! ## The draws of grants -/

/-- The draw of what a client is granted on a record, if the record is a child of the parent and the claim is of a
selected class. -/
def drawAt (t : Table 12 LatchedRecord) (p : Nat) (g : Nat → Nat → Nat) (sel : Nat → Bool) (r c : Nat) : Nat :=
  if IsChild t p r then
    match (t.get r).claim c with
    | some x => if sel x.cls then drawOf (g r c) (t.get r).draw else 0
    | none => 0
  else 0

/-- The draws of all clients on all records. -/
def drawSum (t : Table 12 LatchedRecord) (p : Nat) (g : Nat → Nat → Nat) (sel : Nat → Bool) : Nat :=
  ((List.range 12).map fun r => ([0, 1, 2].map (drawAt t p g sel r)).sum).sum

theorem drawAt_other {g : Nat → Nat → Nat} {sel : Nat → Bool} {r c : Nat}
    (h : IsChild t p r → ∀ x, (t.get r).claim c = some x → sel x.cls = true → g r c = 0) :
    drawAt t p g sel r c = 0 := by
  unfold drawAt
  split
  · next hchild =>
    split
    · next x hx =>
      split
      · next hsel => simp [h hchild x hx hsel, drawOf, divUp]
      · rfl
    · rfl
  · rfl

theorem drawSum_congr {g g' : Nat → Nat → Nat} {sel : Nat → Bool}
    (h : ∀ r c x, IsChild t p r → (t.get r).claim c = some x → sel x.cls = true → g r c = g' r c) :
    drawSum t p g sel = drawSum t p g' sel := by
  have hat : drawAt t p g sel = drawAt t p g' sel := by
    funext r c
    unfold drawAt
    split
    · next hchild =>
      split
      · next x hx =>
        split
        · next hsel => rw [h r c x hchild hx hsel]
        · rfl
      · rfl
    · rfl
  rw [drawSum, hat, drawSum]

/-- The draws over the records and clients, as one sum over pairs. -/
theorem drawSum_eq_sum (g : Nat → Nat → Nat) (sel : Nat → Bool) : drawSum t p g sel =
    ∑ x ∈ Finset.range 12 ×ˢ Finset.range 3, drawAt t p g sel x.1 x.2 := by
  rw [Finset.sum_product]
  rfl

/-- The draws of grants are the charge of the lines that hold them. -/
theorem drawSum_eq_charge {ls : List Line} {g : Nat → Nat → Nat} {sel : Nat → Bool} (h : Charged t p ls)
    (hsel : ∀ l ∈ ls, sel l.cls = true) (hg : ∀ l ∈ ls, g l.resource l.client = l.g)
    (hother : ∀ r c x, IsChild t p r → (t.get r).claim c = some x → sel x.cls = true → (r, c) ∉ ls.map Line.key →
      g r c = 0) : drawSum t p g sel = chargeOf ls := by
  have hline : ∀ l ∈ ls, drawAt t p g sel l.resource l.client = l.charge := fun l hl => by
    obtain ⟨hchild, hdraw, x, hx, hcls, -⟩ := h.onChild l hl
    rw [drawAt, if_pos hchild, hx]
    dsimp only
    rw [if_pos (hcls ▸ hsel l hl), hg l hl, Line.charge, hdraw]
  have hsubset : (ls.map Line.key).toFinset ⊆ Finset.range 12 ×ˢ Finset.range 3 := fun y hy => by
    obtain ⟨l, hl, rfl⟩ := List.mem_map.mp (List.mem_toFinset.mp hy)
    obtain ⟨hchild, -, x, hx, -⟩ := h.onChild l hl
    exact Finset.mem_product.mpr ⟨Finset.mem_range.mpr hchild.lt, Finset.mem_range.mpr (claim_lt hx)⟩
  calc drawSum t p g sel = ∑ x ∈ (ls.map Line.key).toFinset, drawAt t p g sel x.1 x.2 := by
        rw [drawSum_eq_sum]
        exact (Finset.sum_subset hsubset fun y _ hy => drawAt_other fun hchild x hx hs =>
          hother y.1 y.2 x hchild hx hs fun hin => hy (List.mem_toFinset.mpr hin)).symm
    _ = chargeOf ls := by
        rw [List.sum_toFinset _ h.nodup, List.map_map]
        exact congrArg List.sum (List.map_congr_left hline)

/-- The draws of the selected classes are the charge of their lines. -/
theorem drawSum_filter {ls : List Line} {g : Nat → Nat → Nat} (sel : Nat → Bool) (h : Charged t p ls)
    (hg : ∀ r c x, IsChild t p r → (t.get r).claim c = some x → sel x.cls = true → g r c = grantIn ls r c) :
    drawSum t p g sel = chargeOf (ls.filter fun l => sel l.cls) := by
  rw [drawSum_congr hg]
  refine drawSum_eq_charge (h.filter _) (fun l hl => (List.mem_filter.mp hl).2)
    (fun l hl => grantIn_of_mem h.nodup (List.mem_of_mem_filter hl)) fun r c x _ hx hsel hnot =>
      grantIn_absent fun hin => hnot ((h.key_filter hx hsel).mpr hin)

/-! ## The lines that a pass charges to a parent -/

/-- The lines of a parent in a pass. -/
def parentLines (t : Table 12 LatchedRecord) (p : Nat) : List Line := childLines t (divisionsOf t) p

/-- The line of a client on a record, if it has a grant there and the record is a child of the parent. -/
def lineAt (t : Table 12 LatchedRecord) (p : Nat) (y : Nat × Nat) : Option Line :=
  match (t.get y.1).claim y.2 with
  | some x =>
    if (t.get y.1).kind = .child ∧ (t.get y.1).parent = some p ∧ 0 < dividedTo (t.get y.1) y.2 then
      some ⟨y.1, y.2, x.cls, x.f, (t.get y.1).draw, dividedTo (t.get y.1) y.2⟩
    else none
  | none => none

theorem lineAt_eq_some {y : Nat × Nat} {l : Line} : lineAt t p y = some l ↔
    l.key = y ∧ OnChild t p l ∧ l.g = dividedTo (t.get y.1) y.2 ∧ 0 < l.g := by
  unfold lineAt
  constructor
  · intro h
    split at h
    · next x hx =>
      split at h
      · next hin =>
        cases h
        exact ⟨rfl, ⟨⟨hin.1, hin.2.1⟩, rfl, x, hx, rfl, rfl⟩, rfl, hin.2.2⟩
      · cases h
    · cases h
  · rintro ⟨hkey, ⟨hchild, hdraw, x, hx, hcls, hf⟩, hg, hpos⟩
    obtain ⟨r, c, cls, f, draw, g⟩ := l
    obtain ⟨r', c'⟩ := y
    obtain ⟨rfl, rfl⟩ := Prod.mk.inj hkey
    dsimp only at *
    rw [hx]
    dsimp only
    rw [if_pos ⟨hchild.1, hchild.2, hg ▸ hpos⟩, hcls, hf, hdraw, hg]

/-- The positions in the trim's order: descending client, then descending record (R107). -/
def linePositions : List (Nat × Nat) := [2, 1, 0].flatMap fun c => (List.range 12).reverse.map fun r => (r, c)

theorem mem_linePositions {r c : Nat} (hr : r < 12) (hc : c < 3) : (r, c) ∈ linePositions := by
  simp only [linePositions, List.mem_flatMap, List.mem_map, List.mem_reverse, List.mem_range]
  exact ⟨c, by simp only [List.mem_cons, List.not_mem_nil, or_false]; omega, r, hr, rfl⟩

theorem parentLines_eq (t : Table 12 LatchedRecord) (p : Nat) :
    parentLines t p = linePositions.filterMap (lineAt t p) := by
  rw [linePositions, List.filterMap_flatMap, parentLines, childLines]
  refine congrArg (List.flatMap · _) (funext fun c => ?_)
  rw [List.filterMap_map]
  refine List.filterMap_congr fun r _ => ?_
  simp only [divisionsOf_share]
  rfl

theorem parentLines_keys (t : Table 12 LatchedRecord) (p : Nat) :
    (parentLines t p).map Line.key = linePositions.filter fun y => (lineAt t p y).isSome := by
  rw [parentLines_eq, List.map_filterMap, ← List.filterMap_eq_filter]
  refine List.filterMap_congr fun y _ => ?_
  cases hy : lineAt t p y with
  | none => simp [Option.guard, hy]
  | some l => simp [Option.guard, hy, (lineAt_eq_some.mp hy).1]

theorem parentLines_charged (t : Table 12 LatchedRecord) (p : Nat) : Charged t p (parentLines t p) where
  nodup := parentLines_keys t p ▸ List.filter_sublist.nodup (by decide)
  onChild l hl := by
    rw [parentLines_eq] at hl
    obtain ⟨y, -, hy⟩ := List.mem_filterMap.mp hl
    exact (lineAt_eq_some.mp hy).2.1

/-- The lines of a parent hold what its children's divisions give. -/
theorem parentLines_grant {r c : Nat} (hchild : IsChild t p r) :
    grantIn (parentLines t p) r c = dividedTo (t.get r) c := by
  by_cases hin : (r, c) ∈ (parentLines t p).map Line.key
  · obtain ⟨l, hl, hkey⟩ := List.mem_map.mp hin
    have hat := hl
    rw [parentLines_eq] at hat
    obtain ⟨y, -, hy⟩ := List.mem_filterMap.mp hat
    obtain ⟨rfl, -, hg, -⟩ := lineAt_eq_some.mp hy
    cases hkey
    rw [grantIn_of_mem (parentLines_charged t p).nodup hl, hg]
    rfl
  · rw [grantIn_absent hin]
    by_contra hne
    refine hin ?_
    cases hx : (t.get r).claim c with
    | none => exact absurd (dividedTo_none hx).symm hne
    | some x =>
      rw [parentLines_keys, List.mem_filter]
      refine ⟨mem_linePositions hchild.lt (claim_lt hx), Option.isSome_iff_exists.mpr
        ⟨⟨r, c, x.cls, x.f, (t.get r).draw, dividedTo (t.get r) c⟩, lineAt_eq_some.mpr
          ⟨rfl, ⟨hchild, rfl, x, hx, rfl, rfl⟩, rfl, Nat.pos_of_ne_zero (Ne.symm hne)⟩⟩⟩

end Sys2Proof.Machine
end


-- ==== Sys2Proof/Proofs/PassGrants.lean ====
section
/-! SUPPORT. The computed grants of a pass: a share of the division, but on a child of a parent what the cut leaves of
it (R104, R108). -/

namespace Sys2Proof.Machine

variable {t : Table 12 LatchedRecord} {p : Nat}

/-! ## The grants that a pass computes -/

/-- The cut of a parent in a pass. -/
def cutOf (t : Table 12 LatchedRecord) (p : Nat) : Cut := cutParent (t.get p).capacity (parentLines t p)

/-- The cuts of all parents. -/
def cutsOf (t : Table 12 LatchedRecord) : Table 12 (Option Cut) :=
  Table.build 12 fun p => if (t.get p).kind = .parent then some (cutOf t p) else none

/-- The computed grant of a client on a record. -/
def computedGrant (t : Table 12 LatchedRecord) (r c : Nat) : Nat := ((computePass t).grants.get r).g c

theorem parent_lt (h : (t.get p).kind = .parent) : p < 12 := by
  by_contra hp
  rw [Table.get_beyond _ _ (Nat.le_of_not_lt hp)] at h
  cases h

theorem cutsOf_parent (h : (t.get p).kind = .parent) : (cutsOf t).get p = some (cutOf t p) := by
  rw [cutsOf, Table.get_build _ (parent_lt h), if_pos h]

theorem cutsOf_other (h : (t.get p).kind ≠ .parent) : (cutsOf t).get p = none := by
  by_cases hp : p < 12
  · rw [cutsOf, Table.get_build _ hp, if_neg h]
  · exact Table.get_beyond _ _ (Nat.le_of_not_lt hp)

theorem computePass_cuts (t : Table 12 LatchedRecord) :
    (Table.build 12 fun p => if (t.get p).kind = .parent then
      some (cutParent (t.get p).capacity
        (if (t.get p).kind = .parent then childLines t (divisionsOf t) p else [])) else none) = cutsOf t := by
  refine congrArg (Table.build 12) (funext fun p => ?_)
  split <;> rfl

theorem computedGrant_eq {r c : Nat} (hr : r < 12) (hc : c < 3) :
    computedGrant t r c = finalGrant t (divisionsOf t) (cutsOf t) r c := by
  rw [computedGrant, ← computePass_cuts]
  unfold computePass
  dsimp only
  rw [Table.get_build _ hr]
  match c, hc with
  | 0, _ | 1, _ | 2, _ => rfl

/-- On a child of a parent the cut leaves the grant. -/
theorem computedGrant_cut {r c : Nat} (hchild : IsChild t p r) (hp : (t.get p).kind = .parent) (hc : c < 3) :
    computedGrant t r c = grantIn (cutOf t p).lines r c := by
  rw [computedGrant_eq hchild.lt hc, finalGrant, hchild.1, hchild.2]
  dsimp only
  rw [cutsOf_parent hp]
  generalize cutOf t p = cut
  rfl

/-- Elsewhere the grant is the share of the division. -/
theorem computedGrant_uncut {r c : Nat} (hr : r < 12) (hc : c < 3)
    (hother : ∀ p, IsChild t p r → (t.get p).kind ≠ .parent) : computedGrant t r c = dividedTo (t.get r) c := by
  rw [computedGrant_eq hr hc, finalGrant, divisionsOf_share]
  split
  · next p hkind hparent => rw [cutsOf_other (hother p ⟨hkind, hparent⟩)]
  · rfl

theorem parentLines_if (h : (t.get p).kind = .parent) :
    (if (t.get p).kind = .parent then childLines t (divisionsOf t) p else []) = parentLines t p := if_pos h

theorem computePass_demandDraw (h : (t.get p).kind = .parent) :
    (computePass t).demandDraw.get p = chargeOf (parentLines t p) := by
  unfold computePass
  dsimp only
  rw [Table.get_build _ (parent_lt h)]
  exact congrArg chargeOf (parentLines_if h)

theorem computePass_cutClass (h : (t.get p).kind = .parent) : (computePass t).cutClass.get p = (cutOf t p).cls := by
  unfold computePass
  dsimp only
  rw [Table.get_build _ (parent_lt h)]
  refine (congrArg (fun cuts : Table 12 (Option Cut) => ((cuts.get p).map (·.cls)).getD none)
    (computePass_cuts t)).trans ?_
  rw [cutsOf_parent h]
  rfl

/-- A parent is cut when its draw exceeds its capacity (R108). -/
theorem computePass_anyCut : (computePass t).anyCut = true ↔ ∃ p < 12, (t.get p).kind = .parent ∧
    (t.get p).capacity < (computePass t).demandDraw.get p := by
  have hany : (computePass t).anyCut = (List.range 12).any fun p => (t.get p).kind == .parent &&
      decide ((t.get p).capacity <
        chargeOf (if (t.get p).kind = .parent then childLines t (divisionsOf t) p else [])) := rfl
  simp only [hany, List.any_eq_true, List.mem_range, Bool.and_eq_true, beq_iff_eq, decide_eq_true_eq]
  refine exists_congr fun p => and_congr_right fun _ => and_congr_right fun hkind => ?_
  rw [computePass_demandDraw hkind, parentLines_if hkind]

/-! ## What the cut leaves of a claim's grant (R106, R107) -/

theorem cutOf_charged (t : Table 12 LatchedRecord) (p : Nat) : Charged t p (cutOf t p).lines :=
  (parentLines_charged t p).of_bare (cutParent_bare _ _)

/-- The lines of class `k` charged to a parent. -/
abbrev classLines (t : Table 12 LatchedRecord) (p k : Nat) : List Line := ofClass k (parentLines t p)

/-- What the more urgent classes leave of a parent's capacity for class `k`. -/
abbrev classRoomOf (t : Table 12 LatchedRecord) (p k : Nat) : Nat := classRoom (t.get p).capacity (parentLines t p) k

/-- Class `k` of a parent is cut: one of the four classes, and its draw exceeds the room left for it. -/
def ClassCut (t : Table 12 LatchedRecord) (p k : Nat) : Prop := k ≤ 3 ∧ classRoomOf t p k < chargeOf (classLines t p k)

theorem classLines_charged (t : Table 12 LatchedRecord) (p k : Nat) : Charged t p (classLines t p k) :=
  (parentLines_charged t p).filter _

theorem scaledLines_charged (t : Table 12 LatchedRecord) (p k b : Nat) :
    Charged t p (scaledLines b (classLines t p k)) :=
  (classLines_charged t p k).of_bare (.of_eq (scaledLines_bare _ _))

theorem cutLines_charged (t : Table 12 LatchedRecord) (p k b : Nat) : Charged t p (cutLines b (classLines t p k)) :=
  (classLines_charged t p k).of_bare (cutLines_bare _ _)

theorem cutOf_ofClass_cut {k : Nat} (h : ClassCut t p k) :
    ofClass k (cutOf t p).lines = cutLines (classRoomOf t p k) (classLines t p k) :=
  (cutParent_ofClass _ _ h.1).trans (if_pos h.2)

theorem cutOf_ofClass_kept {k : Nat} (h : ¬ClassCut t p k) : ofClass k (cutOf t p).lines = classLines t p k := by
  by_cases hk : k ≤ 3
  · exact (cutParent_ofClass _ _ hk).trans (if_neg fun hexceeds => h ⟨hk, hexceeds⟩)
  · exact foldl_ofClass_other (by simp only [List.mem_cons, List.not_mem_nil, or_false]; omega) _

/-- The line of a claim, and its grant. -/
theorem Charged.grantIn_cases {ls : List Line} (h : Charged t p ls) {r c : Nat} {x : Claim}
    (hx : (t.get r).claim c = some x) :
    (r, c) ∉ ls.map Line.key ∧ grantIn ls r c = 0 ∨
      ∃ l ∈ ls, l.key = (r, c) ∧ l.cls = x.cls ∧ l.f = x.f ∧ grantIn ls r c = l.g := by
  by_cases hin : (r, c) ∈ ls.map Line.key
  · obtain ⟨l, hl, hkey⟩ := List.mem_map.mp hin
    cases hkey
    obtain ⟨y, hy, hcls, hf⟩ := (h.onChild l hl).claim
    rw [hx] at hy
    cases hy
    exact .inr ⟨l, hl, rfl, hcls, hf, grantIn_of_mem h.nodup hl⟩
  · exact .inl ⟨hin, grantIn_absent hin⟩

/-- Lines in another order grant the same. -/
theorem Charged.grantIn_perm {a b : List Line} (h : Charged t p a) (hperm : a.Perm b) (r c : Nat) :
    grantIn a r c = grantIn b r c := by
  have hkeys := hperm.map Line.key
  by_cases hin : (r, c) ∈ a.map Line.key
  · obtain ⟨l, hl, hkey⟩ := List.mem_map.mp hin
    cases hkey
    rw [grantIn_of_mem h.nodup hl, grantIn_of_mem (hkeys.nodup_iff.mp h.nodup) (hperm.subset hl)]
  · rw [grantIn_absent hin, grantIn_absent fun hb => hin (hkeys.symm.subset hb)]

/-- A claim's grant is found among the lines of its class. -/
theorem Charged.grantIn_ofClass {ls : List Line} (h : Charged t p ls) {r c : Nat} {x : Claim}
    (hx : (t.get r).claim c = some x) : grantIn (ofClass x.cls ls) r c = grantIn ls r c := by
  rcases h.grantIn_cases hx with ⟨hnot, hzero⟩ | ⟨l, hl, hkey, hcls, -, hg⟩
  · exact hzero ▸ grantIn_absent fun hin => hnot ((List.filter_sublist.map _).subset hin)
  · cases hkey
    exact hg ▸ grantIn_of_mem (h.filter _).nodup (List.mem_filter.mpr ⟨hl, by simpa using hcls⟩)

section Claim

variable {r c : Nat} {x : Claim} (hchild : IsChild t p r) (hx : (t.get r).claim c = some x)

include hx

theorem cutOf_grant : grantIn (cutOf t p).lines r c = grantIn (ofClass x.cls (cutOf t p).lines) r c :=
  ((cutOf_charged t p).grantIn_ofClass hx).symm

include hchild

theorem classLines_grant : grantIn (classLines t p x.cls) r c = dividedTo (t.get r) c :=
  ((parentLines_charged t p).grantIn_ofClass hx).trans (parentLines_grant hchild)

/-- A class that is not cut keeps its grants. -/
theorem cutOf_grant_kept (h : ¬ClassCut t p x.cls) : grantIn (cutOf t p).lines r c = dividedTo (t.get r) c := by
  rw [cutOf_grant hx, cutOf_ofClass_kept h, classLines_grant hchild hx]

/-- The scaling of a claim's grant. -/
theorem scaledLines_grant (b : Nat) : grantIn (scaledLines b (classLines t p x.cls)) r c =
    scaledGrant b (chargeOf (classLines t p x.cls)) x.f (dividedTo (t.get r) c) := by
  have hkeys : (scaledLines b (classLines t p x.cls)).map Line.key = (classLines t p x.cls).map Line.key := by
    rw [scaledLines, List.map_map]
    rfl
  rw [← classLines_grant hchild hx]
  rcases (classLines_charged t p x.cls).grantIn_cases hx with ⟨hnot, hzero⟩ | ⟨l, hl, hkey, -, hf, hg⟩
  · rw [hzero, grantIn_absent (hkeys ▸ hnot)]
    simp [scaledGrant]
  · cases hkey
    rw [hg, ← hf]
    exact grantIn_of_mem (scaledLines_charged t p x.cls b).nodup (List.mem_map_of_mem hl)

variable (h : ClassCut t p x.cls)

include h

/-- In a class that is cut no grant ends above its scaling. -/
theorem cutOf_grant_le : grantIn (cutOf t p).lines r c ≤
    scaledGrant (classRoomOf t p x.cls) (chargeOf (classLines t p x.cls)) x.f (dividedTo (t.get r) c) := by
  rw [cutOf_grant hx, cutOf_ofClass_cut h, ← scaledLines_grant hchild hx]
  rcases (cutLines_charged t p x.cls (classRoomOf t p x.cls)).grantIn_cases hx with ⟨-, hzero⟩ | ⟨l, hl, hkey, -, -, hg⟩
  · exact hzero ▸ Nat.zero_le _
  · obtain ⟨l0, hl0, hbare, hle⟩ := (cutLines_trimmed _ _).lower l hl
    cases (Line.key_of_bare hbare).symm.trans hkey
    rw [hg, grantIn_of_mem (scaledLines_charged t p x.cls _).nodup hl0]
    exact hle

omit hchild in
/-- In a class that is cut no grant ends between 0 and its floor. -/
theorem cutOf_grant_floor : grantIn (cutOf t p).lines r c = 0 ∨ x.f ≤ grantIn (cutOf t p).lines r c := by
  rw [cutOf_grant hx, cutOf_ofClass_cut h]
  rcases (cutLines_charged t p x.cls (classRoomOf t p x.cls)).grantIn_cases hx with ⟨-, hzero⟩ | ⟨l, hl, -, -, hf, hg⟩
  · exact .inl hzero
  · have hscaled : ∀ l ∈ scaledLines (classRoomOf t p x.cls) (classLines t p x.cls), l.g = 0 ∨ l.f ≤ l.g :=
        fun l hl => by
      obtain ⟨l0, -, rfl⟩ := List.mem_map.mp hl
      dsimp only [scaledGrant]
      split
      · exact .inl rfl
      · exact .inr (by omega)
    rw [hg, ← hf]
    exact (cutLines_trimmed _ _).floor hscaled l hl

/-- A class that fits the room left once it is scaled keeps the scaled grants. -/
theorem cutOf_grant_fits
    (hfits : chargeOf (scaledLines (classRoomOf t p x.cls) (classLines t p x.cls)) ≤ classRoomOf t p x.cls) :
    grantIn (cutOf t p).lines r c =
      scaledGrant (classRoomOf t p x.cls) (chargeOf (classLines t p x.cls)) x.f (dividedTo (t.get r) c) := by
  rw [cutOf_grant hx, cutOf_ofClass_cut h, ← scaledLines_grant hchild hx]
  exact (cutLines_charged t p x.cls _).grantIn_perm (cutLines_fits hfits) r c

end Claim

theorem scaledGrant_le {b total : Nat} (h : b ≤ total) (f g : Nat) : scaledGrant b total f g ≤ g := by
  unfold scaledGrant
  split
  · exact Nat.zero_le _
  · exact Nat.div_le_of_le_mul (by rw [Nat.mul_comm total]; exact Nat.mul_le_mul_left g h)

/-! ## The computed grant of a claim -/

/-- A computed grant is the share of the division, or what a cut of its class leaves. -/
theorem computedGrant_cases {r c : Nat} {x : Claim} (hx : (t.get r).claim c = some x) :
    computedGrant t r c = dividedTo (t.get r) c ∨ computedGrant t r c ≤ dividedTo (t.get r) c ∧
      (computedGrant t r c = 0 ∨ x.f ≤ computedGrant t r c) := by
  have hc := claim_lt hx
  have hr : r < 12 := by
    by_contra hr
    rw [Table.get_beyond _ _ (Nat.le_of_not_lt hr)] at hx
    match c, hx with
    | 0, hx | 1, hx | 2, hx | _ + 3, hx => cases hx
  by_cases hparent : ∃ p, IsChild t p r ∧ (t.get p).kind = .parent
  · obtain ⟨p, hchild, hp⟩ := hparent
    rw [computedGrant_cut hchild hp hc]
    by_cases hcut : ClassCut t p x.cls
    · exact .inr ⟨(cutOf_grant_le hchild hx hcut).trans (scaledGrant_le hcut.2.le _ _), cutOf_grant_floor hx hcut⟩
    · exact .inl (cutOf_grant_kept hchild hx hcut)
  · exact .inl (computedGrant_uncut hr hc fun p hchild hp => hparent ⟨p, hchild, hp⟩)

end Sys2Proof.Machine
end


-- ==== Sys2Proof/Proofs/GrantBounds.lean ====
section
/-! SETTLES. What a pass computes stays within its bounds (R99 to R110): O50 and O51. -/

namespace Sys2Proof.Machine

variable {t : Table 12 LatchedRecord} {p : Nat}

theorem handedGrant_none {r c : Nat} (h : (t.get r).claim c = none) : handedGrant t (computePass t) r c = 0 := by
  simp [handedGrant, writtenGrant, h]

/-- A written grant is the computed one, or 0 for a departed holder (R109). -/
theorem handedGrant_le (t : Table 12 LatchedRecord) (r c : Nat) :
    handedGrant t (computePass t) r c ≤ computedGrant t r c := by
  cases hx : (t.get r).claim c with
  | none => exact handedGrant_none hx ▸ Nat.zero_le _
  | some x =>
    simp only [handedGrant, writtenGrant, hx]
    split
    · exact Nat.zero_le _
    · exact le_rfl

theorem handedGrant_le_dividedTo (t : Table 12 LatchedRecord) (r c : Nat) :
    handedGrant t (computePass t) r c ≤ dividedTo (t.get r) c := by
  cases hx : (t.get r).claim c with
  | none => exact handedGrant_none hx ▸ Nat.zero_le _
  | some x =>
    refine (handedGrant_le t r c).trans ?_
    rcases computedGrant_cases hx with hsame | ⟨hle, -⟩
    · exact hsame.le
    · exact hle

theorem drawOf_le {g g' : Nat} (h : g ≤ g') (draw : Nat) : drawOf g draw ≤ drawOf g' draw :=
  Nat.div_le_div_right (Nat.add_le_add_right (Nat.mul_le_mul_right draw h) _)

/-- The draws of the written grants are no more than those of the computed ones. -/
theorem drawTotal_le (t : Table 12 LatchedRecord) (p : Nat) :
    drawTotal t (computePass t) p ≤ drawSum t p (computedGrant t) fun _ => true := by
  refine List.sum_le_sum fun r _ => ?_
  split
  · next hchild =>
    refine List.sum_le_sum fun c _ => ?_
    cases hx : (t.get r).claim c with
    | none => simp [handedGrant_none hx, drawOf, divUp]
    | some x =>
      rw [drawAt, if_pos hchild, hx]
      exact drawOf_le (handedGrant_le t r c) _
  · exact Nat.zero_le _

/-- The draws of the computed grants of selected classes are the charge of the lines that the cut leaves them. -/
theorem drawSum_computed (hp : (t.get p).kind = .parent) (sel : Nat → Bool) :
    drawSum t p (computedGrant t) sel = chargeOf ((cutOf t p).lines.filter fun l => sel l.cls) :=
  drawSum_filter sel (cutOf_charged t p) fun _ _ _ hchild hx _ => computedGrant_cut hchild hp (claim_lt hx)

theorem parentLines_cls (hcls : ∀ r c x, (t.get r).claim c = some x → x.cls ≤ 3) : ∀ l ∈ parentLines t p, l.cls ≤ 3 :=
  fun l hl => by
    obtain ⟨x, hx, he, -⟩ := ((parentLines_charged t p).onChild l hl).claim
    exact he ▸ hcls _ _ x hx

/-- The draws handed for a parent stay within its capacity (R108). -/
theorem drawTotal_le_capacity (hcls : ∀ r c x, (t.get r).claim c = some x → x.cls ≤ 3)
    (hp : (t.get p).kind = .parent) : drawTotal t (computePass t) p ≤ (t.get p).capacity :=
  calc drawTotal t (computePass t) p ≤ drawSum t p (computedGrant t) fun _ => true := drawTotal_le t p
    _ = chargeOf (cutOf t p).lines := by rw [drawSum_computed hp, List.filter_true]
    _ ≤ (t.get p).capacity := cutParent_charge _ (parentLines_cls hcls)

/-- Settles O50: the grants of a record are within its division, and those of a parent's children within its cut. -/
theorem completionWithinCapacity : Obligations.CompletionWithinCapacity := by
  intro t hcls r
  have hgrants : handedGrant t (computePass t) r 0 + handedGrant t (computePass t) r 1 +
      handedGrant t (computePass t) r 2 ≤ (t.get r).capacity :=
    (Nat.add_le_add (Nat.add_le_add (handedGrant_le_dividedTo t r 0) (handedGrant_le_dividedTo t r 1))
      (handedGrant_le_dividedTo t r 2)).trans (sum_dividedTo_le _)
  cases hkind : (t.get r).kind with
  | unused => simp [handedResult, hkind]
  | parent =>
    simp only [handedResult, hkind]
    exact drawTotal_le_capacity hcls hkind
  | plain =>
    simp only [handedResult, hkind]
    exact hgrants
  | child =>
    simp only [handedResult, hkind]
    exact hgrants

/-- Settles O51: a share lies in its bounds, and a cut only lowers it, to 0 or to no less than the floor. -/
theorem grantsBetweenFloorAndRequest : Obligations.GrantsBetweenFloorAndRequest := by
  intro t hfloor r c x hx
  change computedGrant t r c = 0 ∨ (x.f ≤ computedGrant t r c ∧ computedGrant t r c ≤ x.q)
  have hshare := dividedTo_between hx (hfloor r c x hx)
  rcases computedGrant_cases hx with hsame | ⟨hle, hkept⟩
  · rwa [hsame]
  · omega

end Sys2Proof.Machine
end


-- ==== Sys2Proof/Proofs/CutLaw.lean ====
section
/-! SETTLES. The cut of a parent (R105 to R108): O53. -/

namespace Sys2Proof.Machine

variable {t : Table 12 LatchedRecord} {p : Nat}

/-- The divided grants, by record and client. -/
def dividedGrant (t : Table 12 LatchedRecord) (r c : Nat) : Nat := dividedTo (t.get r) c

/-- The grants of class `k` scaled into the room left for it. -/
def scaledGrants (t : Table 12 LatchedRecord) (p k r c : Nat) : Nat :=
  match (t.get r).claim c with
  | some x => scaledGrant (classRoomOf t p k) (chargeOf (classLines t p k)) x.f (dividedTo (t.get r) c)
  | none => 0

theorem drawSum_divided (t : Table 12 LatchedRecord) (p : Nat) (sel : Nat → Bool) :
    drawSum t p (dividedGrant t) sel = chargeOf ((parentLines t p).filter fun l => sel l.cls) :=
  drawSum_filter sel (parentLines_charged t p) fun _ _ _ hchild _ _ => (parentLines_grant hchild).symm

/-- The draws of the more urgent classes. -/
theorem drawSum_before (t : Table 12 LatchedRecord) (p k : Nat) :
    drawSum t p (dividedGrant t) (fun j => decide (j < k)) = chargeOf (moreUrgentLines k (parentLines t p)) :=
  drawSum_divided t p _

/-- The draws of a class. -/
theorem drawSum_class (t : Table 12 LatchedRecord) (p k : Nat) :
    drawSum t p (dividedGrant t) (fun j => decide (j = k)) = chargeOf (classLines t p k) := drawSum_divided t p _

/-- The draws of a class once it is scaled. -/
theorem drawSum_scaled (t : Table 12 LatchedRecord) (p k : Nat) :
    drawSum t p (scaledGrants t p k) (fun j => decide (j = k)) =
      chargeOf (scaledLines (classRoomOf t p k) (classLines t p k)) := by
  have hscaled : ∀ {r c x}, IsChild t p r → (t.get r).claim c = some x → x.cls = k →
      scaledGrants t p k r c = grantIn (scaledLines (classRoomOf t p k) (classLines t p k)) r c :=
    fun hchild hx hk => by
      subst hk
      rw [scaledLines_grant hchild hx, scaledGrants, hx]
  have hcls : ∀ l ∈ scaledLines (classRoomOf t p k) (classLines t p k), l.cls = k :=
    classes_of_bare (p := (· = k)) (.of_eq (scaledLines_bare _ _)) fun l hl => by simpa using (List.mem_filter.mp hl).2
  refine drawSum_eq_charge (scaledLines_charged t p k _) (fun l hl => decide_eq_true (hcls l hl)) (fun l hl => ?_)
    fun r c x hchild hx hk hnot => ?_
  · obtain ⟨hchild, -, x, hx, he, -⟩ := (scaledLines_charged t p k _).onChild l hl
    rw [hscaled hchild hx (he ▸ hcls l hl), grantIn_of_mem (scaledLines_charged t p k _).nodup hl]
  · rw [hscaled hchild hx (of_decide_eq_true hk), grantIn_absent hnot]

/-- The draws of a cut class end within the room left for it. -/
theorem drawSum_cut (hp : (t.get p).kind = .parent) {k : Nat} (h : ClassCut t p k) :
    drawSum t p (computedGrant t) (fun j => decide (j = k)) ≤ classRoomOf t p k := by
  rw [drawSum_computed hp]
  have hclass : ((cutOf t p).lines.filter fun l => decide (l.cls = k)) = ofClass k (cutOf t p).lines := rfl
  rw [hclass, cutOf_ofClass_cut h]
  exact cutLines_charge _ _

/-- A class is cut exactly when it draws something and the capacity does not hold it after the more urgent classes. -/
theorem classCut_iff (hcls : ∀ r c x, (t.get r).claim c = some x → x.cls ≤ 3) (k : Nat) : ClassCut t p k ↔
    0 < drawSum t p (dividedGrant t) (fun j => decide (j = k)) ∧ (t.get p).capacity <
      drawSum t p (dividedGrant t) (fun j => decide (j < k)) +
        drawSum t p (dividedGrant t) (fun j => decide (j = k)) := by
  rw [drawSum_before, drawSum_class]
  have hnone : 3 < k → chargeOf (classLines t p k) = 0 := fun hk => chargeOf_zero fun l hl => by
    obtain ⟨hl, he⟩ := List.mem_filter.mp hl
    have := parentLines_cls hcls l hl
    have : l.cls = k := by simpa using he
    omega
  unfold ClassCut classRoomOf classRoom
  omega

/-- The cut class of a parent is the most urgent class cut. -/
theorem cutOf_cls {k : Nat} : (cutOf t p).cls = some k ↔ ClassCut t p k ∧ ∀ j < k, ¬ClassCut t p j := by
  refine (cutParent_cls _ _).trans ⟨fun ⟨hk, he, hj⟩ => ⟨⟨hk, he⟩, fun j hjk h => hj j hjk h.2⟩,
    fun ⟨⟨hk, he⟩, hj⟩ => ⟨hk, he, fun j hjk h => hj j hjk ⟨(Nat.le_of_lt hjk).trans hk, h⟩⟩⟩

/-- In a class that is cut a computed grant is the scaled one, lowered by the trim where the class does not fit. -/
theorem computedGrant_of_classCut (hp : (t.get p).kind = .parent) {r c : Nat} {x : Claim} (hchild : IsChild t p r)
    (hx : (t.get r).claim c = some x) (h : ClassCut t p x.cls) :
    computedGrant t r c ≤ scaledGrants t p x.cls r c ∧ (computedGrant t r c = 0 ∨ x.f ≤ computedGrant t r c) ∧
      (drawSum t p (scaledGrants t p x.cls) (fun j => decide (j = x.cls)) ≤ classRoomOf t p x.cls →
        computedGrant t r c = scaledGrants t p x.cls r c) ∧
      drawSum t p (computedGrant t) (fun j => decide (j = x.cls)) ≤ classRoomOf t p x.cls := by
  have hscaled : scaledGrants t p x.cls r c =
      scaledGrant (classRoomOf t p x.cls) (chargeOf (classLines t p x.cls)) x.f (dividedTo (t.get r) c) := by
    rw [scaledGrants, hx]
  rw [computedGrant_cut hchild hp (claim_lt hx), hscaled, drawSum_scaled]
  exact ⟨cutOf_grant_le hchild hx h, cutOf_grant_floor hx h, cutOf_grant_fits hchild hx h, drawSum_cut hp h⟩

/-- The draws as O53 writes them out. -/
theorem drawSum_eq (t : Table 12 LatchedRecord) (p : Nat) (g : Nat → Nat → Nat) (sel : Nat → Bool) :
    ((List.range 12).map fun r =>
      if (t.get r).kind = .child ∧ (t.get r).parent = some p then
        ([0, 1, 2].map fun c => match (t.get r).claim c with
          | some x => if sel x.cls then (g r c * (t.get r).draw + 99) / 100 else 0
          | none => 0).sum
      else 0).sum = drawSum t p g sel := by
  refine congrArg List.sum (List.map_congr_left fun r _ => ?_)
  split
  · next hchild =>
    refine congrArg List.sum (List.map_congr_left fun c _ => ?_)
    rw [drawAt, if_pos hchild]
    rfl
  · next hchild =>
    exact (List.sum_eq_zero fun n hn => by
      obtain ⟨c, -, rfl⟩ := List.mem_map.mp hn
      exact if_neg hchild).symm

/-- Settles O53: class by class the cut either keeps the lines or scales and trims them, and the draws are their
charge. -/
theorem parentCutScalesLeastUrgent : Obligations.ParentCutScalesLeastUrgent := by
  intro t hcls
  refine ⟨computePass_anyCut, fun p _ hp => ?_⟩
  intro room0 divided final draws before mine exceeds scaled
  have hdraws : ∀ g sel, draws g sel = drawSum t p g sel := drawSum_eq t p
  clear_value draws
  have hbefore : ∀ k, before k = chargeOf (moreUrgentLines k (parentLines t p)) := fun k =>
    (hdraws _ _).trans (drawSum_before t p k)
  have hmine : ∀ k, mine k = chargeOf (classLines t p k) := fun k => (hdraws _ _).trans (drawSum_class t p k)
  have hexceeds : ∀ k, exceeds k ↔ ClassCut t p k := fun k => by
    rw [classCut_iff hcls, ← hdraws, ← hdraws]
    rfl
  have hroom : ∀ k, room0 - before k = classRoomOf t p k := fun k => by
    rw [hbefore]
    rfl
  have hscaled : ∀ k f g, scaled k f g = scaledGrant (classRoomOf t p k) (chargeOf (classLines t p k)) f g :=
    fun k f g => by
    rw [← hroom, ← hmine]
    rfl
  refine ⟨?_, fun r _ hkind hparent c x hx => ⟨fun hnot => ?_, fun hover => ?_⟩, fun k => ?_⟩
  · have hall : drawSum t p (dividedGrant t) (fun _ => true) = chargeOf (parentLines t p) := by
      rw [drawSum_divided, List.filter_true]
    rw [computePass_demandDraw hp]
    exact ((hdraws divided _).trans hall).symm
  · exact (computedGrant_cut ⟨hkind, hparent⟩ hp (claim_lt hx)).trans
      (cutOf_grant_kept ⟨hkind, hparent⟩ hx (mt (hexceeds _).mpr hnot))
  · intro kept
    have hchild : IsChild t p r := ⟨hkind, hparent⟩
    have hkept : kept = scaledGrants t p x.cls := by
      funext r' c'
      simp only [kept, scaledGrants, hscaled]
      rfl
    have hgrant : kept r c = scaledGrants t p x.cls r c := congrFun (congrFun hkept r) c
    have hkeptDraws : draws kept (fun j => decide (j = x.cls)) =
        drawSum t p (scaledGrants t p x.cls) fun j => decide (j = x.cls) := hkept ▸ hdraws kept _
    obtain ⟨hle, hfloor, hfits, hdrawn⟩ := computedGrant_of_classCut hp hchild hx ((hexceeds _).mp hover)
    rw [hroom]
    exact ⟨hle.trans_eq hgrant.symm, hfloor, fun hroomy => (hfits (hkeptDraws.symm.trans_le hroomy)).trans hgrant.symm,
      (hdraws final _).trans_le hdrawn⟩
  · simp only [computePass_cutClass hp, cutOf_cls, hexceeds]

end Sys2Proof.Machine
end


-- ==== Sys2Proof/Proofs/ResourceLaw.lean ====
section
/-! SETTLES. The division of a resource (R98 to R105): O52. -/

namespace Sys2Proof.Machine

variable {l : LatchedRecord}

/-- The claims dropped with a grant above 0 in each class (R113). -/
theorem divideRecord_drops (hkind : l.kind = .plain ∨ l.kind = .child) (hnone : exclusiveClaim l = none) :
    (divideRecord l).drops = (classPart l 0).2 + (classPart l 1).2 + (classPart l 2).2 + (classPart l 3).2 := by
  rw [divideRecord_shared hkind hnone]
  simp [add_assoc]

theorem dividedTo_shared (hkind : l.kind = .plain ∨ l.kind = .child) (hnone : exclusiveClaim l = none) :
    dividedTo l = shareOf (classShares l) := by
  funext c
  rw [dividedTo, divideRecord_shared hkind hnone]

/-- A claim that is alone on its record and EXCLUSIVE is the one the exclusive rule finds. -/
theorem exclusiveClaim_alone {c : Nat} {x : Claim} (hx : l.claim c = some x) (hlevel : x.level = .exclusive)
    (halone : ∀ c', c' ≠ c → l.claim c' = none) : exclusiveClaim l = some (c, x) := by
  have hsome : (exclusiveClaim l).isSome := List.find?_isSome.mpr ⟨(c, x), mem_claims.mpr hx, by simp [hlevel]⟩
  obtain ⟨⟨c', x'⟩, hfound⟩ := Option.isSome_iff_exists.mp hsome
  have hx' := mem_claims.mp (List.mem_of_find?_eq_some hfound)
  have hsame : c' = c := by
    by_contra hne
    rw [halone c' hne] at hx'
    cases hx'
  subst hsame
  rw [hx] at hx'
  cases hx'
  exact hfound

theorem exclusiveClaim_none (hshared : ∀ c x, l.claim c = some x → x.level = .shared) : exclusiveClaim l = none :=
  List.find?_eq_none.mpr fun y hy => by simp [hshared y.1 y.2 (mem_claims.mp hy)]

/-- The exclusive rule (R99). -/
theorem exclusive_divided (hkind : l.kind = .plain ∨ l.kind = .child) {c : Nat} {x : Claim}
    (hexclusive : exclusiveClaim l = some (c, x)) :
    (x.f ≤ min x.q l.capacity → dividedTo l c = min x.q l.capacity ∧ (divideRecord l).drops = 0) ∧
      (min x.q l.capacity < x.f →
        dividedTo l c = 0 ∧ (divideRecord l).drops = if 0 < min x.q l.capacity then 1 else 0) := by
  rw [dividedTo, divideRecord_exclusive hkind hexclusive, divideExclusive]
  dsimp only
  constructor
  · intro hfits
    rw [if_neg (Nat.not_lt.mpr hfits)]
    exact ⟨by rw [shareOf_cons, if_pos rfl], rfl⟩
  · intro hbelow
    rw [if_pos hbelow]
    exact ⟨by rw [shareOf_cons, if_pos rfl], rfl⟩

/-- A claim of q 0 takes no part (R98). -/
theorem classShares_zero {c : Nat} {x : Claim} (hx : l.claim c = some x) (hq : x.q = 0) :
    shareOf (classShares l) c = 0 :=
  shareOf_absent fun hc => by
    obtain ⟨y, hy, -, hpos⟩ := claim_of_classSharer hc
    rw [hx] at hy
    cases hy
    exact Nat.lt_irrefl 0 (hq ▸ hpos)

/-- A parent within its capacity is not cut (R106). -/
theorem not_classCut_of_fits {t : Table 12 LatchedRecord} {p : Nat}
    (h : chargeOf (parentLines t p) ≤ (t.get p).capacity) (k : Nat) : ¬ClassCut t p k := by
  rintro ⟨-, hcut⟩
  have hsum : chargeOf (moreUrgentLines k (parentLines t p)) + chargeOf (classLines t p k) ≤
      chargeOf (parentLines t p) :=
    chargeOf_moreUrgent_succ k (parentLines t p) ▸ chargeOf_filter_le _ _
  unfold classRoomOf classRoom at hcut
  omega

/-- A grant is the share of the division but on a child of a parent that its draw exceeds (R105). -/
theorem computedGrant_divided {t : Table 12 LatchedRecord} {r c : Nat} (hr : r < 12) (hc : c < 3)
    (hfits : ∀ p, IsChild t p r → (t.get p).kind = .parent → chargeOf (parentLines t p) ≤ (t.get p).capacity) :
    computedGrant t r c = dividedTo (t.get r) c := by
  by_cases hparent : ∃ p, IsChild t p r ∧ (t.get p).kind = .parent
  · obtain ⟨p, hchild, hp⟩ := hparent
    rw [computedGrant_cut hchild hp hc]
    cases hx : (t.get r).claim c with
    | none =>
      rw [dividedTo_none hx]
      refine grantIn_absent fun hin => ?_
      obtain ⟨l, hl, hkey⟩ := List.mem_map.mp hin
      cases hkey
      obtain ⟨x, hx', -⟩ := ((cutOf_charged t p).onChild l hl).claim
      rw [hx] at hx'
      cases hx'
    | some x => exact cutOf_grant_kept hchild hx (not_classCut_of_fits (hfits p hchild hp) _)
  · exact computedGrant_uncut hr hc fun p hchild hp => hparent ⟨p, hchild, hp⟩

/-- The grants of classes in turn, as O52 sums them. -/
theorem sum_flatMap_grants (g : Nat → Nat) (k : Nat) :
    ((List.range k).flatMap fun j => (classClaims l j).map fun y => g y.1).sum =
      ((List.range k).map fun j => grantSum g (classClaims l j)).sum := by
  rw [List.flatMap_def, List.sum_flatten, List.map_map]
  rfl

/-- Settles O52: the classes are shared in turn, each within what the more urgent ones leave, and only a cut changes
that. -/
theorem resourceDivided : Obligations.ResourceDivided := by
  refine ⟨fun l hkind hranges => ?_, fun t r c hr hc hfits => ?_⟩
  · intro g drops before
    refine ⟨fun c hnone => dividedTo_none hnone, fun c x hx hlevel halone => ?_, fun hshared => ?_⟩
    · exact exclusive_divided hkind (exclusiveClaim_alone hx hlevel halone)
    · have hnone := exclusiveClaim_none hshared
      have hg : g = shareOf (classShares l) := dividedTo_shared hkind hnone
      have hbudget : ∀ k < 4, classBudget l k = l.capacity - before k := fun k hk => by
        rw [classBudget_eq hk.le, ← hg, ← sum_flatMap_grants]
      have hdivided : ∀ k < 4, ClassDivided 2 (l.capacity - before k) (classClaims l k) g (classPart l k).2 :=
          fun k hk => by
        rw [← hbudget k hk, hg]
        exact classPart_divided (Nat.le_of_lt_succ hk)
      refine ⟨fun c x hx hq => hg ▸ classShares_zero hx hq,
        ⟨fun k => (classPart l k).2, divideRecord_drops hkind hnone, hdivided⟩, fun k hk hmore hfloors => ?_⟩
      exact (hdivided k hk).grantSum_eq (fun y hy => (hranges _ _ (mem_classClaims.mp hy).1).2.2) hmore hfloors
  · refine computedGrant_divided hr hc fun p hchild hp => ?_
    rcases hfits with hplain | ⟨-, hchildren⟩
    · exact absurd (hplain.symm.trans hchild.1) (by decide)
    · exact computePass_demandDraw hp ▸ hchildren p hchild.2 hp

end Sys2Proof.Machine
end

