-- ==== Sys2Proof/Proofs/ChannelReports.lean ====
section
/-! SUPPORT. What the reports of one channel's change bring about: when there are none, what they leave of the channel,
and the frames they send (R57, R135). -/

namespace Sys2Proof.Machine

variable {s t b : State} {n : Nat} {ch ch' : Channel}

/-! ## One channel written -/

@[simp] theorem setChannel_setChannel (n : Nat) (x y : Option Channel) (s : State) :
    (s.setChannel n x).setChannel n y = s.setChannel n y := by
  simp only [State.setChannel, Table.set_set]

theorem setChannel_same (h : s.channel n = some ch) (x : Option Channel) : (s.setChannel n x).channel n = x := by
  rw [channel_setChannel, if_pos ⟨rfl, channel_lt s h⟩]

theorem modifyChannel_loaded (h : s.channel n = some ch) (f : Channel → Channel) :
    s.modifyChannel n f = s.setChannel n (some (f ch)) := by
  simp only [State.modifyChannel, h]

/-- A COMMAND writes its channel whole (R130). -/
theorem commandedNew_setChannel (n : Nat) (ch : Channel) (v : Nat) (x : Option Channel) (s : State) :
    commandedNew n ch v (s.setChannel n x) = commandedNew n ch v s := by
  simp only [commandedNew, commanded, setChannel_chu, Table.set_set]
  rfl

theorem sendNew_written (hch : s.channel n = some ch) (ch' : Channel) (v : Nat) :
    sendNew n v (s.setChannel n (some ch')) = commandedNew n ch' v s := by
  rw [sendNew_commands n v ch' _ (setChannel_same hch _), commandedNew_setChannel]

theorem lost_loaded (h : s.channel n = some ch) : lost s n = (ch.state == .faulted) := by
  simp only [lost, h]

theorem settled_loaded (h : s.channel n = some ch) : settled s n = ch.settled := by
  simp only [settled, h]

/-- A channel is Settled in ACTIVE alone, with its handshake CLEAR and its setting known (R135). -/
theorem Channel.settled_imp (h : ch.settled = true) :
    ch.state = .active ∧ ch.handshake = .clear ∧ ∃ c, ch.current = some c := by
  simp only [Channel.settled, Bool.and_eq_true, beq_iff_eq] at h
  obtain ⟨⟨hstate, hhandshake⟩, hcurrent⟩ := h
  refine ⟨hstate, hhandshake, ?_⟩
  cases hc : ch.current with
  | none => simp [hc] at hcurrent
  | some c => exact ⟨c, rfl⟩

/-! ## Events without a report -/

/-- An event that rewrites one channel, which it makes neither Settled nor FAULTED, brings no report. -/
theorem reportChanges_rewritten (hch : b.channel n = some ch)
    (ht : t.chu.channels = b.chu.channels.set n (some ch')) (hsettled : ch'.settled = true → ch.settled = true)
    (hfaulted : ch'.state = .faulted → ch.state = .faulted) : reportChanges b t = t := by
  have hread : ∀ j, t.channel j = (b.setChannel n (some ch')).channel j := fun j => by
    simp only [State.channel, ht]
    rfl
  have hself : t.channel n = some ch' := (hread n).trans (setChannel_same hch _)
  have hother : ∀ j, n ≠ j → t.channel j = b.channel j := fun j hj => by
    rw [hread, channel_setChannel, if_neg fun h => hj h.1]
  refine reportChanges_quiet (fun j _ h => ?_) fun j _ h => ?_
  · by_cases hj : n = j
    · subst hj
      rw [settled_loaded hch]
      exact hsettled (settled_loaded hself ▸ h)
    · simpa only [settled, hother j hj] using h
  · by_cases hj : n = j
    · subst hj
      rw [lost_loaded hself, beq_iff_eq] at h
      rw [lost_loaded hch, beq_iff_eq]
      exact hfaulted h
    · simpa only [lost, hother j hj] using h

/-- A COMMAND leaves its channel AWAITING, which brings no report. -/
theorem reportChanges_commanded (hch : b.channel n = some ch) (hs : s.chu.channels = b.chu.channels)
    (hstate : ch'.state ≠ .faulted) (q v k : Nat) (ack : Timer) :
    reportChanges b (commanded n ch' q v k ack s) = commanded n ch' q v k ack s := by
  refine reportChanges_rewritten hch (congrArg (Table.set · n _) hs) (fun h => ?_) fun h => absurd h hstate
  obtain ⟨-, hclear, -⟩ := Channel.settled_imp h
  cases hclear

/-! ## What the reports leave and send -/

/-- The written channel as the reports leave it: a minimum may have moved its target (R126, R144). -/
theorem reportChanges_written (hch : s.channel n = some ch) (ch' : Channel) (b : State) :
    ∃ c, (reportChanges b (s.setChannel n (some ch'))).channel n = some c ∧ c.core = ch'.core :=
  channel_of_cores (reportChanges_cores _ b) (setChannel_same hch _)

theorem OnlyCompletions.congr {l : List TxFrame} (h : OnlyCompletions s l) (hlpu : t.lpu = s.lpu) :
    OnlyCompletions t l := by
  unfold OnlyCompletions
  rw [hlpu]
  exact h

/-- From `s` on only GRANTED notices of completed PRF entries have been sent (R57). -/
def Completing (s t : State) : Prop :=
  t.lpu = s.lpu ∧ ∃ notices, OnlyCompletions s notices ∧ t.sent = s.sent ++ notices

theorem Completing.refl (s : State) : Completing s s := ⟨rfl, [], fun _ h => (List.not_mem_nil h).elim, by simp⟩

theorem Completing.same {u : State} (h : Completing s t) (hlpu : u.lpu = t.lpu) (hsent : u.sent = t.sent) :
    Completing s u := by
  rw [Completing, hlpu, hsent]
  exact h

/-- A completed PRF entry sends at most one notice, of the level it gives. -/
theorem Completing.completePrf (h : Completing s t) (r : Nat) : Completing s (completePrf r t) := by
  rcases completePrf_cases t r with heq | ⟨e, -, -, heq⟩
  · rwa [heq]
  obtain ⟨hlpu, notices, hnotices, hsent⟩ := h
  obtain ⟨level, hlevel⟩ : ∃ level, (completedState (t.holder r e.client) e.target).level = some level := by
    rcases completedState_standing (t.holder r e.client) e.target with hst | hst <;> rw [hst]
    exacts [⟨.shared, rfl⟩, ⟨.exclusive, rfl⟩]
  rw [heq, hlevel]
  refine ⟨by simpa using hlpu, ?_⟩
  rcases notify_cases (moveHolder r e.client (completedState (t.holder r e.client) e.target) t) e.client
    [⟨r, .granted (some level) 0⟩] with hnone | ⟨entry, -, -, hframe⟩
  · rw [hnone]
    exact ⟨notices, hnotices, by simpa using hsent⟩
  · rw [hframe]
    refine ⟨notices ++ [⟨originRing s.lpu.loop, entry.station, .notice 0 true [⟨r, .granted (some level) 0⟩]⟩],
      fun f hf => ?_, by simp [hsent, hlpu]⟩
    rcases List.mem_append.mp hf with hf | hf
    · exact hnotices f hf
    · exact ⟨_, _, _, List.mem_singleton.mp hf⟩

theorem Completing.rampClear (h : Completing s t) {k : Nat} {v : Revocation} (hv : t.record k = some v) :
    Completing s (rampClear k t) := by
  rcases rampClear_cases hv with ⟨-, heq⟩ | ⟨-, heq, -⟩ <;> rw [heq]
  · exact h.same rfl rfl
  · rw [freeRecord_eq (v := { v with ramp := .clear }) (by rw [record_setRecord, if_pos ⟨rfl, record_lt t hv⟩])]
    exact (h.same (u := emptied k _ _) (by simp [emptied]) (by simp [emptied])).completePrf _

theorem completing_closed (s : State) : ReportClosed (Completing s) where
  slot _ _ _ h := h
  minimum _ _ h := h.same (by simp) (by simp)
  gtb _ n h := reportToGtb_induct h (fun _ _ _ ht hv _ => ht.rampClear hv) n

/-- The reports of channel changes send only notices of completed PRF entries. -/
theorem reportChanges_sends (b s : State) :
    ∃ notices, OnlyCompletions s notices ∧ (reportChanges b s).sent = s.sent ++ notices :=
  ((completing_closed s).reportChanges b (.refl s)).2

/-! ## A channel faulted by its own doing (R139) -/

/-- An alert raised and a channel written are independent. -/
theorem raiseAlert_setChannel (c : AlertCategory) (i n : Nat) (x : Option Channel) (s : State) :
    raiseAlert c i (s.setChannel n x) = (raiseAlert c i s).setChannel n x := by
  simp only [raiseAlert, setChannel_alc]
  split <;> rfl

theorem faultChannel_loaded (h : s.channel n = some ch) (cause : FaultCause) :
    faultChannel n cause s = (raiseAlert .channel n s).setChannel n (some (ch.enterFaulted cause)) := by
  rw [faultChannel, modifyChannel_loaded h, raiseAlert_setChannel]

/-- A channel that has faulted by its own doing between `s` and `t`, its record before having been `ch`: it keeps its
setting, its hold mark and its actual, its handshake is CLEAR and its timers are stopped; alert CHANNEL is raised, and
after its frame only notices of completed PRF entries are sent (R57, R139). -/
structure ChannelFaulted (n : Nat) (cause : FaultCause) (ch : Channel) (s t : State) : Prop where
  channel : ∃ c, t.channel n = some c ∧ c.core = (ch.enterFaulted cause).core
  now : t.now = s.now
  alc : t.alc = (raiseAlert .channel n s).alc
  sent : ∃ notices, OnlyCompletions s notices ∧ t.sent = (raiseAlert .channel n s).sent ++ notices

theorem reportChanges_fault (hch : s.channel n = some ch) (cause : FaultCause) (b : State) :
    ChannelFaulted n cause ch s (reportChanges b (faultChannel n cause s)) := by
  rw [faultChannel_loaded hch]
  have hraised : (raiseAlert .channel n s).channel n = some ch := by simpa [State.channel] using hch
  obtain ⟨notices, hnotices, hsent⟩ :=
    reportChanges_sends b ((raiseAlert .channel n s).setChannel n (some (ch.enterFaulted cause)))
  exact ⟨reportChanges_written hraised _ b, by simp, by simp, notices, hnotices.congr (by simp), hsent⟩

theorem ChannelFaulted.record {cause : FaultCause} (h : ChannelFaulted n cause ch s t) :
    ∃ c, t.channel n = some c ∧ c.lastActual = ch.lastActual ∧ c.current = ch.current ∧ c.hold = ch.hold ∧
      c.state = .faulted ∧ c.cause = some cause ∧ c.handshake = .clear ∧ c.rampTimer = .stopped ∧
      c.ackTimer = .stopped ∧ c.refreshTimer = .stopped := by
  obtain ⟨c, hc, hcore⟩ := h.channel
  obtain ⟨-, -, -, -, -, -, hstate, hhold, hcause, hcurrent, hhandshake, -, hactual, hramp, hack, hrefresh⟩ :=
    core_fields hcore
  exact ⟨c, hc, hactual, hcurrent, hhold, hstate, hcause, hhandshake, hramp, hack, hrefresh⟩

theorem ChannelFaulted.alerts {cause : FaultCause} (h : ChannelFaulted n cause ch s t) :
    t.alc.alerts = raisedList ⟨4, n⟩ s.alc.alerts := by
  rw [h.alc, raiseAlert_alerts]
  rfl

end Sys2Proof.Machine
end


-- ==== Sys2Proof/Proofs/Targets.lean ====
section
/-! PROOFS OF OBLIGATIONS. The derivation of a target (R127). -/

namespace Sys2Proof.Machine

/-- Step 3 of R127 leaves a target of 0 or one of at least the minimum-run setting. -/
theorem minimumRun_zero_or_le (m : Nat) (current : Option Nat) (t : Nat) :
    minimumRun m current t = 0 ∨ m ≤ minimumRun m current t := by
  rcases minimumRun_cases m current t with ⟨heq, h⟩ | ⟨-, -, heq⟩ <;> rw [heq]
  · exact h
  · split
    · exact .inr (Nat.le_refl m)
    · exact .inl rfl

theorem derive_zero_or_minRun_le (s : State) (n : Nat) (ch : Channel) :
    (ch.derive s n).target = 0 ∨ ch.minRun ≤ (ch.derive s n).target := minimumRun_zero_or_le _ _ _

/-- Settles O46: a derived target is `minimumRun` of the larger of the binding target and the sequence minimum. -/
theorem targetDerived : Obligations.TargetDerived := by
  intro s n ch t
  have htarget : (ch.derive s n).target = minimumRun ch.minRun ch.current t := rfl
  refine ⟨derive_zero_or_minRun_le s n ch, fun hkept => ?_, fun hpos hbelow => ?_, fun hnone => ?_⟩
  · rcases minimumRun_cases ch.minRun ch.current t with ⟨heq, -⟩ | ⟨hpos, hbelow, -⟩
    · exact htarget.trans heq
    · omega
  · rcases minimumRun_cases ch.minRun ch.current t with ⟨-, hkept⟩ | ⟨-, -, heq⟩
    · omega
    · exact htarget.trans heq
  · show splitPosition s n ch = ch.split
    simp only [splitPosition, hnone]

end Sys2Proof.Machine
end


-- ==== Sys2Proof/Proofs/HoldAndFree.lean ====
section
/-! PROOFS OF OBLIGATIONS. HOLD-CHANNEL and FREE-CHANNEL (R137, R138). -/

namespace Sys2Proof.Machine

variable {s : State} {n : Nat} {ch : Channel}

/-! ## HOLD-CHANNEL (R137) -/

theorem exec_holdChannel {m : ManageCtx} (h : FromManager m s) (n : Nat) :
    exec (.holdChannel m n) s = .next (conclude m.src m.seq 7 (takeHoldChannel n (arrive m.src s))) :=
  congrArg Host.Outcome.next (manage_from h 7 (takeHoldChannel n))

/-- A channel as HOLD-CHANNEL leaves it. -/
def Channel.held (ch : Channel) : Channel :=
  if ch.state = .active then
    { ch with state := .held, hold := true, rampTimer := .stopped, ackTimer := .stopped, refreshTimer := .stopped }
  else { ch with hold := true }

theorem Channel.held_not_active (ch : Channel) : ch.held.state ≠ .active := by
  unfold Channel.held
  split
  · simp
  · assumption

theorem Channel.held_faulted (h : ch.held.state = .faulted) : ch.state = .faulted := by
  unfold Channel.held at h
  split at h
  · cases h
  · exact h

theorem takeHoldChannel_loaded (h : s.channel n = some ch) :
    takeHoldChannel n s = .tested (s.setChannel n (some ch.held)) := by
  have hheld : { (if ch.state = .active then ch.enterHeld else ch) with hold := true } = ch.held := by
    unfold Channel.held
    split <;> rfl
  simp only [takeHoldChannel, h, hheld]
  rw [reportChanges_rewritten h rfl (fun hs => absurd (Channel.settled_imp hs).1 ch.held_not_active)
    Channel.held_faulted]

/-! ## FREE-CHANNEL (R138) -/

theorem exec_freeChannel {m : ManageCtx} (h : FromManager m s) (n : Nat) :
    exec (.freeChannel m n) s = .next (conclude m.src m.seq 8 (takeFreeChannel n (arrive m.src s))) :=
  congrArg Host.Outcome.next (manage_from h 8 (takeFreeChannel n))

/-- A channel out of service without its hold mark and its fault: its setting UNKNOWN and its handshake CLEAR (R138). -/
def Channel.freed (ch : Channel) : Channel :=
  { ch with state := .held, hold := false, cause := none, current := none, handshake := .clear }

/-- A channel's entry into ACTIVE with nothing to re-send (R126, R128, R133). -/
def Channel.activeIn (ch : Channel) (s : State) (n : Nat) : Channel :=
  { { ch with state := .active }.derive s n with
    rampTimer := Timer.start s.now ch.rampInterval
    refreshTimer := Timer.startUnlessZero s.now ch.refreshPeriod }

theorem enterActive_clear (h : s.channel n = some ch) (hclear : ch.handshake = .clear) :
    enterActive n s = s.setChannel n (some (ch.activeIn s n)) := by
  rw [enterActive, modifyChannel_loaded h]
  exact resend_clear _ 0 (setChannel_same h _) hclear

/-- The return of a channel whose hold mark has been cleared. -/
theorem returnChannel_unheld (h : s.channel n = some ch) (run : Bool) :
    returnChannel n run (s.setChannel n (some { ch with hold := false })) = s.setChannel n (some
      (if run then ch.freed.activeIn (s.setChannel n (some ch.freed)) n else ch.freed.enterHeld)) := by
  have hfreed : (s.setChannel n (some ch.freed)).channel n = some ch.freed := setChannel_same h _
  have hunheld : ((s.setChannel n (some { ch with hold := false })).modifyChannel n fun ch =>
      { ch with state := .held, cause := none, current := none, handshake := .clear }) =
        s.setChannel n (some ch.freed) := by
    rw [modifyChannel_loaded (setChannel_same h _), setChannel_setChannel]
    rfl
  rw [returnChannel, hunheld]
  cases run with
  | true => rw [if_pos rfl, if_pos rfl, enterActive_clear hfreed rfl, setChannel_setChannel]
  | false => rw [if_neg (by simp), if_neg (by simp), modifyChannel_loaded hfreed, setChannel_setChannel]

/-- A channel in service without a setting is not Settled, and neither is one in HELD: its return brings no report. -/
theorem takeFreeChannel_frees (h : s.channel n = some ch) (hstate : ch.state ≠ .active)
    (hstation : stationFaulty ch.station s = false) : takeFreeChannel n s = .tested (s.setChannel n (some
      (if s.mgu.part = .run then ch.freed.activeIn (s.setChannel n (some ch.freed)) n else ch.freed.enterHeld))) := by
  simp only [takeFreeChannel, h, if_neg hstate, hstation, Bool.false_eq_true, if_false, returnChannel_unheld h,
    beq_iff_eq]
  rw [reportChanges_rewritten h rfl (fun hs => ?_) fun hf => ?_]
  · obtain ⟨hactive, -, c, hc⟩ := Channel.settled_imp hs
    split at hc <;> cases hc
  · split at hf <;> cases hf

/-- Settles O32: each operation answers by the state of the channel, of its station and of the part. -/
theorem holdAndFreeChannel : Obligations.HoldAndFreeChannel := by
  intro m n s hm s0
  refine ⟨fun hnone => ?_, fun ch hch => ?_, fun hnone => ?_, fun ch hch => ⟨fun hactive => ?_,
    fun hstate hstation => ?_, fun hstate hstation hpart => ?_, fun hstate hstation hpart => ?_⟩⟩
  · have htake : takeHoldChannel n s0 = .of .badIndex s0 := by simp only [takeHoldChannel, hnone]
    rw [exec_holdChannel hm, htake, conclude_of]
  · rw [exec_holdChannel hm, takeHoldChannel_loaded hch, conclude_tested]
    rfl
  · have htake : takeFreeChannel n s0 = .of .badIndex s0 := by simp only [takeFreeChannel, hnone]
    rw [exec_freeChannel hm, htake, conclude_of]
  · have htake : takeFreeChannel n s0 = .of .done s0 := by simp only [takeFreeChannel, hch, if_pos hactive]
    rw [exec_freeChannel hm, htake, conclude_of]
  · have htake : takeFreeChannel n s0 = .of .wrongState s0 := by
      simp only [takeFreeChannel, hch, if_neg hstate, if_pos hstation]
    rw [exec_freeChannel hm, htake, conclude_of]
  · rw [exec_freeChannel hm, takeFreeChannel_frees hch hstate hstation, if_neg hpart, conclude_tested]
    rfl
  · rw [exec_freeChannel hm, takeFreeChannel_frees hch hstate hstation, if_pos hpart, conclude_tested]
    exact ⟨_, rfl, rfl, rfl, rfl, rfl, rfl, rfl, rfl,
      derive_zero_or_minRun_le _ n { ch.freed with state := .active }⟩

end Sys2Proof.Machine
end


-- ==== Sys2Proof/Proofs/ChannelTimers.lean ====
section
/-! PROOFS OF OBLIGATIONS. The ramp, ack and refresh timers of a channel (R129, R130, R132, R133). -/

namespace Sys2Proof.Machine

variable {s : State} {n d : Nat} {ch : Channel}

/-! ## An expiry -/

theorem channelExpiry_inactive (hch : s.channel n = some ch) (hstate : ch.state ≠ .active) (timer : Channel → Timer)
    (act : Nat → State → State) : channelExpiry timer act n s = s := by
  simp only [channelExpiry, hch, if_neg hstate]

/-- An expiry of a running timer acts at the deadline, and what it does is reported (R84, R135). -/
theorem channelExpiry_active (hch : s.channel n = some ch) (hstate : ch.state = .active) {timer : Channel → Timer}
    (htimer : timer ch = .running d) {act : Nat → State → State} {t : State}
    (ht : reportChanges { s with now := max s.now d } (act n { s with now := max s.now d }) = t) :
    channelExpiry timer act n s = testHead t := by
  subst ht
  simp only [channelExpiry, hch, if_pos hstate, expire_running s htimer]

/-! ## The ramp (R129) -/

/-- A channel as a ramp step leaves it, its timer restarted at `now`. -/
def Channel.stepped (ch : Channel) (now : Nat) : Channel :=
  { ch with current := some (rampStep ch), rampTimer := .running (now + 100 * ch.rampInterval) }

theorem rampExpiry_loaded (hch : s.channel n = some ch) : rampExpiry n s =
    if ch.handshake = .clear ∧ ch.current ≠ some (rampStep ch) then commandedNew n (ch.stepped s.now) (rampStep ch) s
    else s.setChannel n (some (ch.stepped s.now)) := by
  simp only [rampExpiry, hch, and_comm (a := ch.handshake = .clear)]
  split
  · exact sendNew_written hch (ch.stepped s.now) _
  · rfl

/-- A step that sends nothing moves no setting with the handshake CLEAR, so the channel is Settled as it was. -/
theorem stepped_settled {now : Nat} (hstep : ¬(ch.handshake = .clear ∧ ch.current ≠ some (rampStep ch)))
    (h : (ch.stepped now).settled = true) : ch.settled = true := by
  obtain ⟨-, hclear, -⟩ := Channel.settled_imp h
  have hcurrent : ch.current = some (rampStep ch) := by
    by_contra hmoved
    exact hstep ⟨hclear, hmoved⟩
  have hunmoved : ch.stepped now = { ch with rampTimer := .running (now + 100 * ch.rampInterval) } := by
    rw [Channel.stepped, ← hcurrent]
  rw [hunmoved] at h
  exact h

theorem rampExpiry_reports (hch : s.channel n = some ch) (hstate : ch.state = .active) :
    reportChanges s (rampExpiry n s) = rampExpiry n s := by
  rw [rampExpiry_loaded hch]
  split
  · exact reportChanges_commanded hch rfl (by simp [Channel.stepped, hstate]) _ _ _ _
  · next hstep => exact reportChanges_rewritten hch rfl (stepped_settled hstep) id

/-! ## The ack timer (R132) -/

/-- A timeout before the third re-sends the outstanding COMMAND. -/
theorem ackExpiry_resends {q v k : Nat} (hch : s.channel n = some ch) (hhandshake : ch.handshake = .awaiting q v k)
    (hk : k < 2) : ackExpiry n s = commanded n ch q v (k + 1)
      (if s.lpu.loop = .down then .suspended (100 * ch.ackLimit) else .running (s.now + 100 * ch.ackLimit))
      (countEvent .ackTimeouts s) := by
  simp only [ackExpiry, hch, hhandshake, if_pos hk]
  exact resend_commands n (k + 1) q v k ch (countEvent .ackTimeouts s) hch hhandshake

theorem ackExpiry_faults {q v k : Nat} (hch : s.channel n = some ch) (hhandshake : ch.handshake = .awaiting q v k)
    (hk : 2 ≤ k) : ackExpiry n s = faultChannel n .ackTimeout (countEvent .ackTimeouts s) := by
  simp only [ackExpiry, hch, hhandshake, if_neg (Nat.not_lt.mpr hk)]

/-! ## The refresh timer (R133) -/

/-- A channel with its refresh timer restarted at `now`. -/
def Channel.refreshed (ch : Channel) (now : Nat) : Channel :=
  { ch with refreshTimer := if ch.refreshPeriod = 0 then .stopped else .running (now + 100 * ch.refreshPeriod) }

theorem refreshExpiry_sends {c : Nat} (hch : s.channel n = some ch) (hclear : ch.handshake = .clear)
    (hc : ch.current = some c) : refreshExpiry n s = commandedNew n ch c s := by
  simp only [refreshExpiry, hch, hclear, hc]
  exact sendNew_commands n c ch s hch

theorem refreshExpiry_restarts (hch : s.channel n = some ch) (h : ch.handshake ≠ .clear ∨ ch.current = none) :
    refreshExpiry n s = s.setChannel n (some (ch.refreshed s.now)) := by
  unfold refreshExpiry
  rw [hch]
  dsimp only
  split
  · next hclear hc => simp [hclear, hc] at h
  · rfl

/-! ## The statement -/

/-- Settles O45: an expiry acts at the deadline on an ACTIVE channel, and only a third ack timeout brings a report. -/
theorem channelTimersAct : Obligations.ChannelTimersAct := by
  intro n d ch s _ hch s1
  have hch1 : s1.channel n = some ch := hch
  refine ⟨fun hstate i hi => ?_, fun hstate htimer => ?_, fun q v k hstate htimer hhandshake => ⟨fun hk => ?_,
    fun hk => ?_⟩, fun hstate htimer => ⟨fun c hclear hc => ?_, fun h => ?_⟩⟩
  · simp only [List.mem_cons, List.not_mem_nil, or_false] at hi
    rcases hi with rfl | rfl | rfl
    all_goals exact congrArg Host.Outcome.next (channelExpiry_inactive hch hstate _ _)
  · refine congrArg Host.Outcome.next (channelExpiry_active hch hstate htimer ?_)
    exact (rampExpiry_reports hch1 hstate).trans (rampExpiry_loaded hch1)
  · refine congrArg Host.Outcome.next (channelExpiry_active hch hstate htimer ?_)
    rw [ackExpiry_resends hch1 hhandshake hk]
    exact reportChanges_commanded (s := countEvent .ackTimeouts s1) hch1 rfl (by simp [hstate]) _ _ _ _
  · have hfault : ChannelFaulted n .ackTimeout ch (countEvent .ackTimeouts s1) (reportChanges s1 (ackExpiry n s1)) := by
      rw [ackExpiry_faults hch1 hhandshake hk]
      exact reportChanges_fault (s := countEvent .ackTimeouts s1) hch _ _
    obtain ⟨c, hc, -, hcurrent, -, hfaulted, hcause, hclear, hramp, hack, hrefresh⟩ := hfault.record
    obtain ⟨notices, hnotices, hsent⟩ := hfault.sent
    exact ⟨_, c, congrArg Host.Outcome.next (channelExpiry_active hch hstate htimer rfl), hc, hcurrent, hfaulted,
      hcause, hclear, hramp, hack, hrefresh, hfault.now, hfault.alc, hfault.alerts, notices, hnotices.congr rfl, hsent⟩
  · refine congrArg Host.Outcome.next (channelExpiry_active hch hstate htimer ?_)
    rw [refreshExpiry_sends hch1 hclear hc]
    exact reportChanges_commanded hch1 rfl (by simp [hstate]) _ _ _ _
  · refine congrArg Host.Outcome.next (channelExpiry_active hch hstate htimer ?_)
    rw [refreshExpiry_restarts hch1 h]
    exact reportChanges_rewritten (ch' := ch.refreshed s1.now) hch1 rfl id id

end Sys2Proof.Machine
end


-- ==== Sys2Proof/Proofs/StatusEntries.lean ====
section
/-! PROOFS OF OBLIGATIONS. STATUS frames of one entry (R131, R160). -/

namespace Sys2Proof.Machine

variable {s : State} {n : Nat} {ch : Channel}

/-! ## The frame -/

theorem exec_statusFrame {fr : RxFrame} (h : fr.src ≠ 0) (s : State) : exec (.statusFrame fr) s =
    .next (testHead (passOn 4 fr (takeStatuses fr.src fr.payload (arrive fr.src s)))) := by
  show Host.Outcome.next (unlessOwn classStatus fr (statusFrame fr) s) = _
  rw [unlessOwn, if_neg h]
  rfl

/-- No entry of a FAULTY station's frame is acted on. -/
theorem takeStatuses_faulty {a : Nat} (h : stationFaulty a s = true) (payload : List Byte) :
    takeStatuses a payload s = s := by
  unfold takeStatuses
  induction statusEntries payload with
  | nil => rfl
  | cons e l ih => rw [List.foldl_cons, takeStatus, if_pos h, ih]

/-- A STATUS frame of one entry for a loaded channel, of a station that is not FAULTY. -/
theorem takeStatuses_one {a : Nat} (hstation : stationFaulty a s = false) (o b hi lo : Byte)
    (hn : channelOf s a o.toNat = some n) : takeStatuses a [o, b, hi, lo] s =
      reportChanges s (takeStatusEntry n ⟨o.toNat, b.toNat / 16, b.toNat % 2 == 1, be16 hi lo⟩ s) := by
  show takeStatus a s ⟨o.toNat, b.toNat / 16, b.toNat % 2 == 1, be16 hi lo⟩ = _
  simp only [takeStatus, hstation, Bool.false_eq_true, if_false, hn]

/-! ## The entry, by the channel's handshake (R131) -/

theorem takeStatusEntry_clear (hch : s.channel n = some ch) (hclear : ch.handshake = .clear) (e : StatusEntry) :
    takeStatusEntry n e s = s := by
  simp only [takeStatusEntry, hch, hclear]

theorem takeStatusEntry_awaiting {q v k : Nat} (hch : s.channel n = some ch)
    (hhandshake : ch.handshake = .awaiting q v k) (e : StatusEntry) : takeStatusEntry n e s =
      if e.seq = q then acknowledge n ch v e s else countEvent .staleStatus s := by
  simp only [takeStatusEntry, hch, hhandshake]

/-- A channel whose outstanding COMMAND has been acknowledged with an actual. -/
def Channel.acked (ch : Channel) (actual : Nat) : Channel :=
  { ch with handshake := .clear, ackTimer := .stopped, lastActual := some (min actual 1023) }

theorem acknowledge_faults (v : Nat) {e : StatusEntry} (hflag : e.fault = true) :
    acknowledge n ch v e s = faultChannel n .status (s.setChannel n (some (ch.acked e.actual))) := by
  rw [acknowledge, if_pos hflag]
  rfl

/-- An ACTIVE channel sends a setting that has moved from the one acknowledged. -/
theorem acknowledge_sends {v c : Nat} (hch : s.channel n = some ch) {e : StatusEntry} (hflag : e.fault = false)
    (hstate : ch.state = .active) (hc : ch.current = some c) (hmoved : c ≠ v) :
    acknowledge n ch v e s = commandedNew n (ch.acked e.actual) c s := by
  simp only [acknowledge, hflag, Bool.false_eq_true, if_false]
  split
  · next c' _ hc' =>
    obtain rfl : c = c' := Option.some.inj (hc.symm.trans hc')
    rw [if_pos hmoved]
    exact sendNew_written hch (ch.acked e.actual) c
  · next hother => exact (hother c hstate hc).elim

theorem acknowledge_rests {v : Nat} {e : StatusEntry} (hflag : e.fault = false)
    (h : ch.state ≠ .active ∨ ch.current = none ∨ ch.current = some v) :
    acknowledge n ch v e s = s.setChannel n (some (ch.acked e.actual)) := by
  simp only [acknowledge, hflag, Bool.false_eq_true, if_false]
  split
  · next c hstate hc =>
    have hsame : ¬c ≠ v := by simpa [hstate, hc] using h
    rw [if_neg hsame]
    rfl
  · rfl

/-- An acknowledged channel that is not Settled brings no report. -/
theorem acked_reports {actual : Nat} (hch : s.channel n = some ch) (hsettled : (ch.acked actual).settled = false) :
    reportChanges s (s.setChannel n (some (ch.acked actual))) = s.setChannel n (some (ch.acked actual)) :=
  reportChanges_rewritten hch rfl (fun h => absurd (hsettled.symm.trans h) Bool.false_ne_true) id

/-! ## The statement -/

/-- Settles O12: the frame is one entry, judged by the handshake of its channel. -/
theorem statusEntryHandled : Obligations.StatusEntryHandled := by
  intro fr o b hi lo n ch s s0 into hsrc
  have hinto : ∀ t, takeStatuses fr.src fr.payload s0 = t → into t := fun t ht => ht ▸ exec_statusFrame hsrc s
  refine ⟨fun hfaulty => hinto _ (takeStatuses_faulty hfaulty _), fun hpayload hstation hn hch => ?_⟩
  let e : StatusEntry := ⟨o.toNat, b.toNat / 16, b.toNat % 2 == 1, be16 hi lo⟩
  have hentry : ∀ t, reportChanges s0 (takeStatusEntry n e s0) = t → into t := fun t ht => by
    refine hinto t ?_
    rw [hpayload, takeStatuses_one hstation o b hi lo hn]
    exact ht
  refine ⟨fun hclear => hentry _ ?_, fun q v k hhandshake => ⟨fun hseq => hentry _ ?_, fun hseq => ?_⟩⟩
  · rw [takeStatusEntry_clear hch hclear, reportChanges_same rfl]
  · rw [takeStatusEntry_awaiting hch hhandshake, if_neg hseq]
    exact reportChanges_same rfl
  have hack : ∀ t, reportChanges s0 (acknowledge n ch v e s0) = t → into t := fun t ht => by
    refine hentry t ?_
    rw [takeStatusEntry_awaiting hch hhandshake, if_pos hseq, ht]
  intro acked
  refine ⟨fun hbit => ?_, fun hbit => ?_⟩
  · have hflag : e.fault = true := beq_iff_eq.mpr hbit
    have hfault : ChannelFaulted n .status acked (s0.setChannel n (some acked))
        (reportChanges s0 (acknowledge n ch v e s0)) := by
      rw [acknowledge_faults v hflag]
      exact reportChanges_fault (setChannel_same hch _) _ _
    have hraised := raiseAlert_setChannel .channel n n (some acked) s0
    obtain ⟨c, hc, hactual, hcurrent, hhold, hfaulted, hcause, hclear, hramp, hackTimer, hrefresh⟩ := hfault.record
    obtain ⟨notices, hnotices, hsent⟩ := hfault.sent
    exact ⟨_, c, hack _ rfl, hc, hactual, hcurrent, hhold, hfaulted, hcause, hclear, hramp, hackTimer, hrefresh,
      hfault.alc.trans (congrArg State.alc hraised :), hfault.alerts, notices, hnotices.congr rfl,
      hsent.trans (congrArg (fun x => x.sent ++ notices) hraised :)⟩
  · have hflag : e.fault = false := beq_eq_false_iff_ne.mpr (by omega)
    refine ⟨fun c hstate hc hmoved => hack _ ?_, fun hrests => ?_⟩
    · rw [acknowledge_sends hch hflag hstate hc hmoved]
      exact reportChanges_commanded hch rfl (by simp [Channel.acked, hstate]) _ _ _ _
    · have hwritten := acknowledge_rests (n := n) (s := s0) hflag hrests
      refine ⟨fun hunsettled => hack _ ?_, ?_⟩
      · rw [hwritten]
        exact acked_reports hch hunsettled
      · obtain ⟨c, hc, hcore⟩ := reportChanges_written hch acked s0
        obtain ⟨-, -, -, -, -, -, hstate, hhold, -, hcurrent, hclear, hseq', hactual, -, hackTimer, -⟩ :=
          core_fields hcore
        obtain ⟨notices, hnotices, hsent⟩ := reportChanges_sends s0 (s0.setChannel n (some acked))
        exact ⟨_, c, hack _ (by rw [hwritten]; rfl), hc, hstate, hcurrent, hhold, hclear, hackTimer, hseq', hactual,
          by simp, notices, hnotices.congr rfl, hsent⟩

end Sys2Proof.Machine
end


-- ==== Sys2Proof/Proofs/LoopChange.lean ====
section
/-! PROOFS OF OBLIGATIONS. A change of loop state: the alert, and the COMMAND frames of the ACTIVE channels (R134,
R173). -/

namespace Sys2Proof.Machine

variable {s t : State} {n : Nat}

/-! ## The ALERT frame of a raise (R190, R192) -/

/-- A raise sends at most one frame, and one with the new list where the list changes. -/
theorem raiseAlert_sends (c : AlertCategory) (i : Nat) (s : State) :
    ∃ alert, alert.length ≤ 1 ∧
      (raisedList ⟨c.number, i⟩ s.alc.alerts ≠ s.alc.alerts → alert =
        [⟨originRing s.lpu.loop, 31, .alert (raisedList ⟨c.number, i⟩ s.alc.alerts) s.alc.overflow⟩]) ∧
      (raiseAlert c i s).sent = s.sent ++ alert := by
  rw [← raiseAlert_alerts]
  rcases raiseAlert_cases s c i with ⟨-, heq⟩ | ⟨-, -, heq⟩ | ⟨-, -, -, heq⟩ | ⟨-, -, -, heq⟩ <;> rw [heq]
  · exact ⟨[], by simp, fun hne => absurd rfl hne, by simp⟩
  · exact ⟨_, by simp, fun _ => rfl, rfl⟩
  · exact ⟨_, by simp, fun hne => absurd rfl hne, rfl⟩
  · exact ⟨[], by simp, fun hne => absurd rfl hne, by simp⟩

/-! ## The COMMAND of one channel (R134) -/

/-- The COMMAND that a channel sends on a change of loop state, and its record with it: an ACTIVE channel re-sends its
outstanding COMMAND, or out of DOWN sends its setting anew. -/
def loopCommand (outOfDown : Bool) (s : State) (n : Nat) : Option (Channel × TxFrame) :=
  match s.channel n with
  | none => none
  | some ch =>
    let refresh := Timer.startUnlessZero s.now ch.refreshPeriod
    if ch.state = .active then
      match ch.handshake, ch.current with
      | .awaiting q v _, _ => some
        ({ ch with
          handshake := .awaiting q v 0
          ackTimer :=
            if s.lpu.loop = .down then .suspended (100 * ch.ackLimit) else .running (s.now + 100 * ch.ackLimit)
          refreshTimer := refresh },
          ⟨originRing s.lpu.loop, ch.station, .command q ch.output v⟩)
      | .clear, some c =>
        if outOfDown then some
          ({ ch with
            cmdSeq := (ch.cmdSeq + 1) % 16
            handshake := .awaiting ((ch.cmdSeq + 1) % 16) c 0
            ackTimer := if s.lpu.loop = .down then .stopped else .running (s.now + 100 * ch.ackLimit)
            refreshTimer := refresh },
            ⟨originRing s.lpu.loop, ch.station, .command ((ch.cmdSeq + 1) % 16) ch.output c⟩)
        else none
      | .clear, none => none
    else none

theorem loopCommand_loaded {outOfDown : Bool} {x : Channel × TxFrame} (h : loopCommand outOfDown s n = some x) :
    n < 16 := by
  cases hch : s.channel n with
  | none => simp [loopCommand, hch] at h
  | some ch => exact channel_lt s hch

/-- A channel's COMMAND depends on its record, the clock and the loop state. -/
theorem loopCommand_congr (hnow : t.now = s.now) (hlpu : t.lpu = s.lpu) (hch : t.channel n = s.channel n)
    (outOfDown : Bool) : loopCommand outOfDown t n = loopCommand outOfDown s n := by
  simp only [loopCommand, hnow, hlpu, hch]

/-- A COMMAND frame sent and counted, and its channel's record written. -/
def sentCommand (n : Nat) (x : Channel × TxFrame) (s : State) : State :=
  { s with
    sent := s.sent ++ [x.2]
    alc.counts := s.alc.counts.set 15 (raised (s.alc.counts.get 15))
    chu.channels := s.chu.channels.set n (some x.1) }

theorem channelLoopChange_eq (outOfDown : Bool) (n : Nat) (s : State) : channelLoopChange outOfDown n s =
    match loopCommand outOfDown s n with
    | none => s
    | some x => sentCommand n x s := by
  cases hch : s.channel n with
  | none => simp only [channelLoopChange, loopCommand, hch]
  | some ch =>
    by_cases hactive : ch.state = .active
    · cases hhandshake : ch.handshake with
      | awaiting q v k =>
        simp only [channelLoopChange, loopCommand, hch, if_pos hactive, hhandshake]
        exact resend_commands n 0 q v k ch s hch hhandshake
      | clear =>
        cases hcurrent : ch.current with
        | none => simp only [channelLoopChange, loopCommand, hch, if_pos hactive, hhandshake, hcurrent]
        | some c =>
          cases outOfDown with
          | false => simp [channelLoopChange, loopCommand, hch, hactive, hhandshake, hcurrent]
          | true =>
            simp only [channelLoopChange, loopCommand, hch, if_pos hactive, hhandshake, hcurrent, if_true]
            refine (sendNew_commands n c ch s hch).trans ?_
            simp only [commandedNew, commanded, hcurrent]
            rfl
    · simp only [channelLoopChange, loopCommand, hch, if_neg hactive]

/-! ## The channels in turn (log 18) -/

/-- From `s` to `t` the channels of `l` have sent the COMMANDs they have in `s`, in the order of `l`. -/
structure LoopCommanded (outOfDown : Bool) (l : List Nat) (s t : State) : Prop where
  channel : ∀ n, t.channel n =
    if n ∈ l then ((loopCommand outOfDown s n).map (·.1)).or (s.channel n) else s.channel n
  sent : t.sent = s.sent ++ (l.filterMap (loopCommand outOfDown s)).map (·.2)
  commands : s.count .commandsSent ≤ 65535 →
    t.count .commandsSent = min 65535 (s.count .commandsSent + (l.filterMap (loopCommand outOfDown s)).length)
  count : ∀ c, c ≠ .commandsSent → t.count c = s.count c

theorem sentCommand_count (n : Nat) (x : Channel × TxFrame) (s : State) (c : Count) :
    (sentCommand n x s).count c = if c = .commandsSent then raised (s.count .commandsSent) else s.count c := by
  have hcount : (sentCommand n x s).count = (countEvent .commandsSent s).count := rfl
  rw [hcount, count_countEvent]
  by_cases hc : c = .commandsSent
  · rw [if_pos hc, if_pos hc.symm]
  · rw [if_neg hc, if_neg (Ne.symm hc)]

theorem sentCommand_channel (n n' : Nat) (x : Channel × TxFrame) (s : State) :
    (sentCommand n x s).channel n' = if n = n' ∧ n' < 16 then some x.1 else s.channel n' :=
  channel_setChannel s n n' (some x.1)

theorem channelLoopChange_commanded (outOfDown : Bool) (n : Nat) (s : State) :
    LoopCommanded outOfDown [n] s (channelLoopChange outOfDown n s) := by
  rw [channelLoopChange_eq]
  cases hx : loopCommand outOfDown s n with
  | none =>
    refine ⟨fun j => ?_, by simp [hx], fun hle => by simp [hx, hle], fun _ _ => rfl⟩
    by_cases hj : j = n
    · subst hj
      simp [hx]
    · simp [hj]
  | some x =>
    refine ⟨fun j => ?_, by simp [hx, sentCommand], fun _ => by simp [hx, sentCommand_count, raised],
      fun c hc => by simp [sentCommand_count, hc]⟩
    rw [sentCommand_channel]
    by_cases hj : j = n
    · subst hj
      simp [hx, loopCommand_loaded hx]
    · simp [hj, Ne.symm hj]

/-- Channels that have sent leave the COMMANDs of the others as they are. -/
theorem LoopCommanded.append {outOfDown : Bool} {i : Nat} {l : List Nat} {u : State}
    (h : LoopCommanded outOfDown [i] s t) (hl : LoopCommanded outOfDown l t u) (hi : i ∉ l) (hnow : t.now = s.now)
    (hlpu : t.lpu = s.lpu) : LoopCommanded outOfDown (i :: l) s u := by
  have hother : ∀ n, n ≠ i → t.channel n = s.channel n := fun n hn => by
    rw [h.channel, if_neg (by simpa using hn)]
  have hcommand : ∀ n ∈ l, loopCommand outOfDown t n = loopCommand outOfDown s n := fun n hn =>
    loopCommand_congr hnow hlpu (hother n fun he => hi (he ▸ hn)) outOfDown
  have hlist : l.filterMap (loopCommand outOfDown t) = l.filterMap (loopCommand outOfDown s) :=
    List.filterMap_congr hcommand
  have hsplit : (i :: l).filterMap (loopCommand outOfDown s) =
      [i].filterMap (loopCommand outOfDown s) ++ l.filterMap (loopCommand outOfDown s) :=
    List.filterMap_append (l := [i])
  refine ⟨fun n => ?_, ?_, fun hle => ?_, fun c hc => (hl.count c hc).trans (h.count c hc)⟩
  · by_cases hn : n ∈ l
    · rw [hl.channel, if_pos hn, hcommand n hn, hother n fun he => hi (he ▸ hn), if_pos (List.mem_cons_of_mem _ hn)]
    · rw [hl.channel, if_neg hn, h.channel]
      simp [hn]
  · rw [hl.sent, h.sent, hlist, hsplit, List.map_append, List.append_assoc]
  · have hsent := h.commands hle
    rw [hl.commands (by omega), hsent, hlist, hsplit, List.length_append]
    omega

theorem forEach_loopCommanded (outOfDown : Bool) {l : List Nat} (hl : l.Nodup) (s : State) :
    LoopCommanded outOfDown l s (forEach l (channelLoopChange outOfDown) s) := by
  induction l generalizing s with
  | nil => exact ⟨fun n => by simp, by simp, fun hle => by simp [hle], fun _ _ => rfl⟩
  | cons i l ih =>
    obtain ⟨hi, hrest⟩ := List.nodup_cons.mp hl
    exact (channelLoopChange_commanded outOfDown i s).append (ih hrest _) hi (by simp) (by simp)

theorem chuLoopChange_commanded (old : LoopState) (s : State) :
    LoopCommanded (decide (old = .down)) (List.range 16) s (chuLoopChange old s) :=
  forEach_loopCommanded _ List.nodup_range s

/-! ## The change (R173) -/

/-- The loop state changed and the switch counted: what the alert of a change is raised in. -/
def loopSwitched (new : LoopState) (s : State) : State :=
  { countEvent .loopSwitches s with
    lpu := { s.lpu with
      loop := new, missCount := 0, recoveryCount := 0, forwardMarker := none, reverseMarker := none, round := none } }

/-- The state in which the channels act: the loop state changed and alert LOOP raised. -/
def loopAlerted (new : LoopState) (s : State) : State := raiseAlert .loop new.index (loopSwitched new s)

theorem changeLoop_eq (new : LoopState) (s : State) :
    changeLoop new s = chuLoopChange s.lpu.loop (loopAlerted new s) := rfl

theorem changeLoop_commanded (new : LoopState) (s : State) :
    LoopCommanded (decide (s.lpu.loop = .down)) (List.range 16) (loopAlerted new s) (changeLoop new s) := by
  rw [changeLoop_eq]
  exact chuLoopChange_commanded s.lpu.loop (loopAlerted new s)

theorem changeLoop_keeps_alerted (new : LoopState) (s : State) :
    OnlyCommand (loopAlerted new s) (changeLoop new s) := by
  rw [changeLoop_eq]
  exact chuLoopChange_keeps (loopAlerted new s) s.lpu.loop

theorem loopAlerted_keeps (new : LoopState) (s : State) : OnlyAlert (loopSwitched new s) (loopAlerted new s) :=
  raiseAlert_keeps _ _ _

theorem loopAlerted_channel (new : LoopState) (s : State) : (loopAlerted new s).channel = s.channel := by
  funext n
  simp [State.channel, loopAlerted, loopSwitched]

theorem loopAlerted_count (new : LoopState) (s : State) (c : Count) :
    (loopAlerted new s).count c = if c = .loopSwitches then raised (s.count .loopSwitches) else s.count c := by
  have hcount : (loopSwitched new s).count = (countEvent .loopSwitches s).count := rfl
  rw [loopAlerted, raiseAlert_count, hcount, count_countEvent]
  by_cases hc : c = .loopSwitches
  · rw [if_pos hc, if_pos hc.symm]
  · rw [if_neg hc, if_neg (Ne.symm hc)]

/-- Everything but the loop port, the channel records, the alerts and counts, and the frames sent stays (R173). -/
theorem changeLoop_rest (new : LoopState) (s : State) :
    { changeLoop new s with lpu := s.lpu, alc := s.alc, chu.channels := s.chu.channels, sent := s.sent } = s := by
  apply State.ext_fields
  simp

/-- Settles O9: the alert is raised in the new state, then the channels send in turn. -/
theorem loopChangeActs : Obligations.LoopChangeActs := by
  intro new s hnew
  obtain ⟨hchannel, hsent, hcommands, hcount⟩ := changeLoop_commanded new s
  obtain ⟨-, hlpu, -, -, -, -, -, -, -, -, -, halerts, -⟩ := changeLoop_keeps_alerted new s
  have hrest := changeLoop_rest new s
  generalize changeLoop new s = t at *
  obtain ⟨hnow, hlpu', -⟩ := loopAlerted_keeps new s
  obtain ⟨alert, hlength, hchanged, halert⟩ := raiseAlert_sends .loop new.index (loopSwitched new s)
  intro t started command commands list
  have hcommand : loopCommand (decide (s.lpu.loop = .down)) (loopAlerted new s) = command := by
    have hloop : (loopAlerted new s).lpu.loop = new := congrArg Lpu.loop hlpu'
    have hnow' : (loopAlerted new s).now = s.now := hnow
    funext n
    simp only [command, started, loopCommand, loopAlerted_channel, hnow', hloop, startUnlessZero_eq]
    cases s.channel n with
    | none => rfl
    | some ch =>
      by_cases hdown : s.lpu.loop = .down
      · have hup : new ≠ .down := fun he => hnew (hdown.trans he.symm)
        simp only [hdown, hup, decide_true, if_true, if_false] <;> rfl
      · simp only [hdown, decide_false, if_false, Bool.false_eq_true] <;> rfl
  rw [hcommand] at hsent hcommands
  refine ⟨hlpu.trans hlpu', ?_, ?_, ?_, fun n => ?_, ⟨alert, hlength, hchanged, ?_⟩, hrest⟩
  · refine (hcount .loopSwitches (by decide)).trans ?_
    rw [loopAlerted_count, if_pos rfl]
  · exact halerts.trans (raiseAlert_alerts _ _ _)
  · rw [loopAlerted_count, if_neg (by decide)] at hcommands
    exact hcommands
  · refine (hchannel n).trans ?_
    rw [loopAlerted_channel, ← hcommand]
    by_cases hn : n < 16
    · rw [if_pos (List.mem_range.mpr hn)]
    · rw [if_neg fun h => hn (List.mem_range.mp h),
        Option.eq_none_iff_forall_ne_some.mpr fun x hx => hn (loopCommand_loaded hx)]
      rfl
  · refine hsent.trans ?_
    rw [show (loopAlerted new s).sent = _ from halert]
    rfl

end Sys2Proof.Machine
end


-- ==== Sys2Proof/Proofs/SlotTimers.lean ====
section
/-! PROOFS OF OBLIGATIONS. The timers of a slot (R149, R151, R153): a stop that begins at a stop-delay expiry meets the
same three slots as one at a pass start (SlotStops). -/

namespace Sys2Proof.Machine

theorem exec_stopDelayExpiry {k d : Nat} {sl : Slot} {s : State} (hslot : s.slot k = some sl)
    (htimer : sl.stopDelayTimer = .running d) :
    exec (.stopDelayExpiry k) s = .next (testHead (stopDelayExpired k { s with now := max s.now d })) := by
  change execStopDelayExpiry k s = _
  simp only [execStopDelayExpiry, hslot, expire_running s htimer]

theorem testHead_slot (s : State) (k : Nat) : (testHead s).slot k = s.slot k := by
  simp [State.slot]

/-! ## The three slots, the stop delay of slot 3 running -/

/-- The RUNNING slot of `crossedSlots` with a stop delay of 5 s, its claims gone and its timer running. -/
def delayedSlot : Slot := { endingSlot with stopDelay := 5, stopDelayTimer := .running 500000 }

/-- The slot once its stop-delay timer is stopped. -/
def expiredSlot : Slot := { delayedSlot with stopDelayTimer := .stopped }

/-- The slot in the only step of its stop, entered at the deadline. -/
def delayedStep : Slot := { expiredSlot with state := .stopping 1, watch := .running 3500000 }

def delayedSlots : State := crossedSlots.setSlot 3 (some delayedSlot)

/-- The clock at the deadline of slot 3's timer. -/
def delayedSlotsDue : State := { delayedSlots with now := 500000 }

/-- The removal of slot 3's minimum settles channel 0. -/
theorem delayedSlots_settles :
    settled (refreshMinimum 0 ((delayedSlotsDue.setSlot 3 (some expiredSlot)).setSlot 3 (some delayedStep))) 0 = true := by
  decide +kernel

/-- Slot 3 stays in its step: before its own test, the Settled report of channel 0 sends slot 0 to channel 1, and its
report sends slot 1 back to channel 0, whose new minimum leaves it short of its target. -/
theorem delayedSlots_stays : (stopDelayExpired 3 delayedSlotsDue).slot 3 = some delayedStep := by decide +kernel

/-- Refutes O47: the channel of slot 3's last step is Settled once its minimum is removed, and still the expiry of the
stop delay does not take slot 3 past that step, as `StopBegins` claims. -/
theorem not_slotTimersAct : ¬ Obligations.SlotTimersAct := by
  intro h
  obtain ⟨-, -, -, hdelay, -⟩ := h 3 500000 delayedSlot delayedSlots (by decide) rfl
  obtain ⟨t, hexec, -, -, hbegins⟩ := hdelay rfl
  rw [exec_stopDelayExpiry rfl rfl] at hexec
  have hstays : t.slot 3 = some delayedStep :=
    calc t.slot 3 = (testHead t).slot 3 := (testHead_slot t 3).symm
      _ = (testHead (stopDelayExpired 3 delayedSlotsDue)).slot 3 :=
        congrArg (·.slot 3) (Host.Outcome.next.inj hexec).symm
      _ = (stopDelayExpired 3 delayedSlotsDue).slot 3 := testHead_slot _ 3
      _ = some delayedStep := delayedSlots_stays
  obtain ⟨-, -, hpast⟩ := hbegins ⟨0, 300, 30⟩ rfl
  rcases hpast delayedSlots_settles with hrested | ⟨j, st, hfirst, hbefore, -, -⟩
  · rw [hstays] at hrested
    cases hrested
  · exact absurd hbefore (Nat.not_lt.mpr hfirst)

end Sys2Proof.Machine
end


-- ==== Sys2Proof/Proofs/AlertsCleared.lean ====
section
/-! PROOFS OF OBLIGATIONS. CLEAR-ALERT, ACK-OLDEST, CLEAR-COUNTS and CLEAR-LOOP (R174, R191, R192, R194). -/

namespace Sys2Proof.Machine

variable {m : ManageCtx} {s : State} {category index : Nat}

/-! ## The commands as operations of the management station (R164, R196) -/

theorem exec_clearAlert (h : FromManager m s) (category index : Nat) : exec (.clearAlert m category index) s =
    .next (conclude m.src m.seq 11 (takeClearAlert category index (arrive m.src s))) :=
  congrArg Host.Outcome.next (manage_from h 11 (takeClearAlert category index))

theorem exec_ackOldest (h : FromManager m s) :
    exec (.ackOldest m) s = .next (conclude m.src m.seq 12 (takeAckOldest (arrive m.src s))) :=
  congrArg Host.Outcome.next (manage_from h 12 takeAckOldest)

theorem exec_clearCounts (h : FromManager m s) :
    exec (.clearCounts m) s = .next (conclude m.src m.seq 13 (takeClearCounts (arrive m.src s))) :=
  congrArg Host.Outcome.next (manage_from h 13 takeClearCounts)

theorem exec_clearLoop (h : FromManager m s) :
    exec (.clearLoop m) s = .next (conclude m.src m.seq 14 (takeClearLoop (arrive m.src s))) :=
  congrArg Host.Outcome.next (manage_from h 14 takeClearLoop)

/-! ## The alert list (R189, R191) -/

/-- The alert numbers, category by category (R189). -/
theorem alertIndexValid_iff : alertIndexValid category index = true ↔
    (category = 1 ∧ index ≤ 5) ∨ (category = 2 ∧ 1 ≤ index ∧ index ≤ 30) ∨ (category = 3 ∧ index ≤ 47) ∨
      (category = 4 ∧ index ≤ 15) ∨ (category = 5 ∧ index ≤ 3) ∨ (category = 6 ∧ index ≤ 11) ∨
      (category = 7 ∧ index ≤ 2) ∨ (category = 8 ∧ index = 0) := by
  unfold alertIndexValid
  split
  case h_9 => simp_all
  all_goals simp

theorem takeClearAlert_present (hvalid : alertIndexValid category index = true)
    (hmem : ⟨category, index⟩ ∈ s.alc.alerts) : takeClearAlert category index s =
      .of .done (sendAlert { s with alc.alerts := s.alc.alerts.filter (· ≠ ⟨category, index⟩) }) := by
  rw [takeClearAlert, if_pos hvalid, if_pos hmem]

theorem takeClearAlert_absent (hvalid : alertIndexValid category index = true)
    (hmem : ⟨category, index⟩ ∉ s.alc.alerts) : takeClearAlert category index s = .of .wrongState s := by
  rw [takeClearAlert, if_pos hvalid, if_neg hmem]

theorem takeClearAlert_invalid (hvalid : ¬alertIndexValid category index = true) :
    takeClearAlert category index s = .of .badIndex s := by
  rw [takeClearAlert, if_neg hvalid]

theorem takeAckOldest_nil (h : s.alc.alerts = []) : takeAckOldest s = .of .wrongState s := by
  simp only [takeAckOldest, h]

theorem takeAckOldest_cons {a : AlertNo} {rest : List AlertNo} (h : s.alc.alerts = a :: rest) :
    takeAckOldest s = .of .done (sendAlert { s with alc.alerts := rest }) := by
  simp only [takeAckOldest, h]

/-! ## The counts (R194) -/

/-- The ALERT frame leaves exactly when the overflow count was above 0. -/
theorem takeClearCounts_eq (s : State) : takeClearCounts s = .of .done
    { s with
      alc := { alerts := s.alc.alerts, overflow := 0, counts := Table.all 20 0 }
      sent := s.sent ++
        (if 0 < s.alc.overflow then [⟨originRing s.lpu.loop, 31, .alert s.alc.alerts 0⟩] else []) } := by
  by_cases hover : 0 < s.alc.overflow
  · simp only [takeClearCounts, if_pos hover]
    rfl
  · simp only [takeClearCounts, if_neg hover, List.append_nil]

/-- Settles O34: each operation answers the state after its frame's arrival. -/
theorem alertsCountsAndLoopCleared : Obligations.AlertsCountsAndLoopCleared := by
  intro m category index s hm s0 changed isNumber
  refine ⟨fun hnumber hmem => ?_, fun hnumber hmem => ?_, fun hnumber => ?_, fun hnil => ?_, fun a rest hcons => ?_,
    ?_, ?_⟩
  · rw [exec_clearAlert hm, takeClearAlert_present (alertIndexValid_iff.mpr hnumber) hmem, conclude_of]
    rfl
  · rw [exec_clearAlert hm, takeClearAlert_absent (alertIndexValid_iff.mpr hnumber) hmem, conclude_of]
  · rw [exec_clearAlert hm, takeClearAlert_invalid fun hvalid => hnumber (alertIndexValid_iff.mp hvalid), conclude_of]
  · rw [exec_ackOldest hm, takeAckOldest_nil hnil, conclude_of]
  · rw [exec_ackOldest hm, takeAckOldest_cons hcons, conclude_of]
    rfl
  · rw [exec_clearCounts hm, takeClearCounts_eq, conclude_of]
  · rw [exec_clearLoop hm]
    rfl

end Sys2Proof.Machine
end


-- ==== Sys2Proof/Proofs/LoadParts.lean ====
section
/-! PROOFS OF OBLIGATIONS. The parts of a LOAD, and the refusals of a complete one (R162, R200). -/

namespace Sys2Proof.Machine

variable {m : ManageCtx} {s : State} {table index cls : Nat} {part : PartMark} {bytes : List Byte} {h : HeldParts}

theorem exec_load (hm : FromManager m s) (table index cls : Nat) (part : PartMark) (bytes : List Byte) :
    exec (.load m table index cls part bytes) s =
      .next (conclude m.src m.seq 1 (takeLoad table index cls part bytes (arrive m.src s))) :=
  congrArg Host.Outcome.next (manage_from hm 1 (takeLoad table index cls part bytes))

/-! ## Parts (R162) -/

/-- The parts held are of the load that a part names, and the part carries the number that comes next (R162). -/
def HeldParts.Awaits (h : HeldParts) (table index cls : Nat) (part : PartMark) : Prop :=
  h.table = table ∧ h.index = index ∧ h.cls = cls ∧ h.next = part.number

theorem joinPart_begins (held : Option HeldParts) (hpart : part.number = 0) :
    joinPart held table index cls part bytes = some ⟨table, index, cls, 1, bytes⟩ := by
  simp only [joinPart, if_pos hpart]

theorem joinPart_continues (hpart : part.number ≠ 0) (hawaits : h.Awaits table index cls part) :
    joinPart (some h) table index cls part bytes = some { h with next := h.next + 1, bytes := h.bytes ++ bytes } := by
  simp only [joinPart, if_neg hpart]
  exact if_pos hawaits

theorem joinPart_refuses {held : Option HeldParts} (hpart : part.number ≠ 0)
    (hother : ∀ h, held = some h → ¬h.Awaits table index cls part) :
    joinPart held table index cls part bytes = none := by
  cases held with
  | none => simp only [joinPart, if_neg hpart]
  | some h =>
    simp only [joinPart, if_neg hpart]
    exact if_neg (hother h rfl)

theorem joinPart_joins {held : Option HeldParts}
    (hfits : part.number = 0 ∨ ∃ h, held = some h ∧ h.Awaits table index cls part) :
    ∃ h, joinPart held table index cls part bytes = some h := by
  by_cases hpart : part.number = 0
  · exact ⟨_, joinPart_begins held hpart⟩
  · obtain ⟨h, rfl, hawaits⟩ := hfits.resolve_left hpart
    exact ⟨_, joinPart_continues hpart hawaits⟩

theorem takeLoad_held (hjoin : joinPart s.mgu.held table index cls part bytes = some h) (hlast : part.last = false) :
    takeLoad table index cls part bytes s = .of .done { s with mgu.held := some h } := by
  simp [takeLoad, hjoin, hlast]

theorem takeLoad_refused (hjoin : joinPart s.mgu.held table index cls part bytes = none) :
    takeLoad table index cls part bytes s = .of .badValue { s with mgu.held := none } := by
  simp only [takeLoad, hjoin]

/-- A complete LOAD that is refused leaves no part held (R200; log 46). -/
theorem takeLoad_complete {e : Status} (hjoin : joinPart s.mgu.held table index cls part bytes = some h)
    (hlast : part.last = true)
    (hdecide : decideLoad table index cls h.bytes { s with mgu.held := none } = .error e) :
    takeLoad table index cls part bytes s = .of e { s with mgu.held := none } := by
  simp only [takeLoad, hjoin, hlast, if_true, hdecide, answerLoad]

/-! ## The names of a complete LOAD (R200) -/

theorem loadClass_some {c : LoadClass} (h : loadClass cls = some c) :
    cls = 1 ∧ c = .structural ∨ cls = 2 ∧ c = .tunable := by
  unfold loadClass at h
  split at h <;> cases h <;> simp

/-- Names that no table takes. -/
theorem decideLoad_badIndex (hnames : ∀ n classes c, tableShape table = some (n, classes) → loadClass cls = some c →
    n ≤ index ∨ c ∉ classes) : decideLoad table index cls bytes s = .error .badIndex := by
  unfold decideLoad
  split
  · next n classes c hshape hcls => rw [if_pos (hnames n classes c hshape hcls)]
  · rfl

/-- Names that a table takes, of a STRUCTURAL load out of CONFIG. -/
theorem decideLoad_wrongState {n : Nat} {classes : List LoadClass} (hshape : tableShape table = some (n, classes))
    (hindex : index < n) (hclass : LoadClass.structural ∈ classes) (hpart : s.mgu.part ≠ .config) :
    decideLoad table index 1 bytes s = .error .wrongState := by
  have hnames : ¬(n ≤ index ∨ LoadClass.structural ∉ classes) := by simp [hclass, hindex]
  simp only [decideLoad, hshape, loadClass, if_neg hnames, true_and, if_pos hpart]

/-- The names that R200 refuses are those that no table takes. -/
theorem names_refused {n : Nat} {classes : List LoadClass} {c : LoadClass}
    (hbad : table = 0 ∨ 11 < table ∨ (cls ≠ 1 ∧ cls ≠ 2) ∨ (cls = 2 ∧ table ∈ [1, 2, 3, 9]) ∨
      (cls = 1 ∧ table ∈ [10, 11]) ∨ (table = 4 ∧ 47 < index) ∨ (table = 1 ∧ 29 < index) ∨
      (table ∈ [7, 9] ∧ 15 < index) ∨ (table = 6 ∧ 11 < index) ∨ (table = 8 ∧ 3 < index) ∨
      (table = 5 ∧ 2 < index) ∨ (table ∈ [2, 3, 10, 11] ∧ 0 < index))
    (hshape : tableShape table = some (n, classes)) (hcls : loadClass cls = some c) : n ≤ index ∨ c ∉ classes := by
  unfold tableShape at hshape
  rcases loadClass_some hcls with ⟨rfl, rfl⟩ | ⟨rfl, rfl⟩
  all_goals
    split at hshape <;> cases hshape
    all_goals
      simp at hbad ⊢
      try omega

/-- The tables 1 to 9 take STRUCTURAL loads. -/
theorem tableShape_structural (hlow : 1 ≤ table) (hhigh : table ≤ 9) :
    ∃ n classes, tableShape table = some (n, classes) ∧ LoadClass.structural ∈ classes := by
  interval_cases table
  all_goals exact ⟨_, _, rfl, by decide⟩

/-- Settles O23: each part by whether it joins, and a complete LOAD by its names. -/
theorem loadPartsAndRefusals : Obligations.LoadPartsAndRefusals := by
  intro m table index cls part bytes s hm s0 i fits
  refine ⟨fun hpart hlast => ?_, fun hpart hother => ?_, fun h hpart hlast hheld hfits => ?_,
    fun hfits hlast => ?_⟩
  · rw [exec_load hm, takeLoad_held (joinPart_begins _ hpart) hlast, conclude_of]
  · rw [exec_load hm, takeLoad_refused (joinPart_refuses hpart hother), conclude_of]
  · rw [exec_load hm, takeLoad_held (hheld ▸ joinPart_continues hpart hfits) hlast, conclude_of]
  · obtain ⟨h, hjoin⟩ := joinPart_joins (bytes := bytes) hfits
    refine ⟨fun hbad => ?_, fun hlow hhigh hcls hpart hindex => ?_⟩
    · have hdecide := decideLoad_badIndex (bytes := h.bytes) (s := { s0 with mgu.held := none })
        fun _ _ _ => names_refused hbad
      rw [exec_load hm, takeLoad_complete hjoin hlast hdecide, conclude_of]
    · subst hcls
      obtain ⟨n, classes, hshape, hclass⟩ := tableShape_structural hlow hhigh
      have hdecide := decideLoad_wrongState (bytes := h.bytes) (s := { s0 with mgu.held := none }) hshape
        (hindex _ hshape) hclass hpart
      rw [exec_load hm, takeLoad_complete hjoin hlast hdecide, conclude_of]

end Sys2Proof.Machine
end


-- ==== Sys2Proof/Proofs/Arrivals.lean ====
section
/-! PROOFS OF OBLIGATIONS. The arrival of a frame as evidence of life (R163, R180, R184). -/

namespace Sys2Proof.Machine

variable {a i : Nat} {st : Station} {s : State}

/-! ## Evidence by the state of the record -/

theorem stationHeard_unknown (h : stationRecord a s = none) : stationHeard a s = s := by
  simp only [stationHeard, h]

theorem stationHeard_living (hi : stationRecord a s = some i) (hst : s.station i = some st) (h : st.state ≠ .faulty) :
    stationHeard a s = s.setStation i (some { st.goOnline s.now with heard := st.heard }) := by
  simp only [stationHeard, hi, hst]
  split
  · next hfaulty => exact absurd hfaulty h
  all_goals rfl

theorem stationHeard_noted (hi : stationRecord a s = some i) (hst : s.station i = some st) (h : st.state = .faulty)
    (hmode : s.stm.returnMode ≠ .auto) : stationHeard a s = s.setStation i (some { st with heard := true }) := by
  simp only [stationHeard, hi, hst, h]
  split
  · next hauto => exact absurd hauto hmode
  all_goals rfl

theorem stationHeard_returned (hi : stationRecord a s = some i) (hst : s.station i = some st) (h : st.state = .faulty)
    (hmode : s.stm.returnMode = .auto) : stationHeard a s = returnStation i st s := by
  simp only [stationHeard, hi, hst, h, hmode]

/-! ## The arrival (R163) -/

theorem arrive_unknown (ha : a ≠ 0) (h : stationRecord a s = none) : arrive a s = countEvent .unknownSource s := by
  simp only [arrive, if_neg ha, stationHeard_unknown h, h]
  rfl

/-- Evidence that rewrites the station's record, its address kept, leaves the station known. -/
theorem arrive_known {st' : Station} (ha : a ≠ 0) (hi : stationRecord a s = some i) (hst : s.station i = some st)
    (haddress : st'.address = st.address)
    (hheard : (stationHeard a s).stm.stations = (s.setStation i (some st')).stm.stations) :
    arrive a s = stationHeard a s := by
  have hknown : stationRecord a (stationHeard a s) = some i := by
    rw [stationRecord_congr hheard, stationRecord_setStation hst haddress, hi]
  simp only [arrive, if_neg ha, hknown, Option.isNone_some, Bool.false_eq_true, if_false]

/-- Settles O5: the evidence by the record's state, and the return of a FAULTY station as RETURN-STATION has it. -/
theorem arrivalTakenAsEvidence : Obligations.ArrivalTakenAsEvidence := by
  intro a i st s ha
  refine ⟨arrive_unknown ha, fun hi hst => ⟨fun hliving => ?_, fun hfaulty hmode => ?_, fun hfaulty hmode => ?_⟩⟩
  · have hheard := stationHeard_living hi hst hliving
    rw [arrive_known ha hi hst (by rfl) (congrArg (·.stm.stations) hheard), hheard]
    rfl
  · have hheard := stationHeard_noted hi hst hfaulty hmode
    rw [arrive_known ha hi hst (by rfl) (congrArg (·.stm.stations) hheard), hheard]
  · have hheard := stationHeard_returned hi hst hfaulty hmode
    obtain ⟨hstm, hpst, halerts, -, hchannels⟩ := returnStation_spec i st s
    obtain ⟨-, st', hst', haddress⟩ := stationRecord_some hi
    obtain rfl : st = st' := Option.some.inj (hst.symm.trans hst')
    rw [arrive_known ha hi hst (by rfl) ((congrArg (·.stm.stations) hheard).trans (congrArg Stm.stations hstm)), hheard]
    refine ⟨?_, hpst, halerts, fun n ch hch hstation hcause hstate =>
      hchannels n ch hch (hstation.trans haddress.symm) hstate hcause⟩
    rw [State.station, hstm]
    exact Table.get_set_same _ _ (station_lt s hst)

end Sys2Proof.Machine
end


-- ==== Sys2Proof/Proofs/FrameBytes.lean ====
section
/-! PROOFS OF OBLIGATIONS. The bytes of frames: which are valid, and that a frame's bytes are read back (R159, R160). -/

namespace Sys2Proof.Machine

/-! ## Valid frames (R159) -/

/-- The bytes of a valid frame: a header whose addresses are at most 31, a payload of the length it gives, at most 56,
and the CRC of both (R159). -/
def ValidBytes (bytes : List Byte) (d a c n h l : Byte) (payload : List Byte) : Prop :=
  bytes = d :: a :: c :: n :: payload ++ [h, l] ∧ [h, l] = word16 (crc16 (d :: a :: c :: n :: payload)) ∧
    n.toNat = payload.length ∧ payload.length ≤ 56 ∧ d.toNat ≤ 31 ∧ a.toNat ≤ 31

/-- A body and two bytes after it, taken apart again. -/
theorem readFrame_append (d a c n h l : Byte) (payload : List Byte) :
    readFrame (d :: a :: c :: n :: payload ++ [h, l]) =
      if [h, l] = word16 (crc16 (d :: a :: c :: n :: payload)) ∧ n.toNat ≤ 56 ∧ n.toNat = payload.length ∧
          d.toNat ≤ 31 ∧ a.toNat ≤ 31 then
        some { dest := d.toNat, src := a.toNat, cls := c.toNat / 16, seq := c.toNat % 16, payload := payload }
      else none := by
  have hlength : (d :: a :: c :: n :: payload ++ [h, l]).length - 2 = (d :: a :: c :: n :: payload).length := by
    simp
  unfold readFrame
  rw [hlength, List.take_left, List.drop_left]

theorem readFrame_valid {bytes payload : List Byte} {d a c n h l : Byte}
    (hvalid : ValidBytes bytes d a c n h l payload) :
    readFrame bytes =
      some { dest := d.toNat, src := a.toNat, cls := c.toNat / 16, seq := c.toNat % 16, payload := payload } := by
  obtain ⟨rfl, hcrc, hlength, hmax, hdest, hsrc⟩ := hvalid
  rw [readFrame_append, if_pos ⟨hcrc, hlength ▸ hmax, hlength, hdest, hsrc⟩]

theorem valid_of_readFrame {bytes : List Byte} {f : Received} (hread : readFrame bytes = some f) :
    ∃ d a c n h l payload, ValidBytes bytes d a c n h l payload := by
  unfold readFrame at hread
  dsimp only at hread
  split at hread
  · next d a c n payload hbody =>
    obtain ⟨⟨hcrc, hmax, hlength, hdest, hsrc⟩, -⟩ := Option.ite_none_right_eq_some.mp hread
    rw [hbody] at hcrc
    obtain ⟨h, l, htail⟩ : ∃ h l, bytes.drop (bytes.length - 2) = [h, l] := ⟨_, _, hcrc⟩
    refine ⟨d, a, c, n, h, l, payload, ?_, htail ▸ hcrc, hlength, hlength ▸ hmax, hdest, hsrc⟩
    rw [← htail, ← hbody, List.take_append_drop]
  · cases hread

theorem readFrame_eq_none_iff (bytes : List Byte) :
    readFrame bytes = none ↔ ¬∃ d a c n h l payload, ValidBytes bytes d a c n h l payload := by
  constructor
  · rintro hnone ⟨d, a, c, n, h, l, payload, hvalid⟩
    rw [readFrame_valid hvalid] at hnone
    cases hnone
  · intro hinvalid
    by_contra hne
    obtain ⟨f, hread⟩ := Option.ne_none_iff_exists'.mp hne
    exact hinvalid (valid_of_readFrame hread)

/-! ## What a valid frame is read into (R163) -/

theorem itemCommand_ne_drop (d : DemandCtx) (x : ItemOp × DemandItem) : itemCommand d x ≠ .dropInvalidFrame := by
  obtain ⟨op, it⟩ := x
  cases op with
  | acquire level => cases level <;> exact nofun
  | _ => exact nofun

theorem stepCommand_ne_drop (x : DemandCtx × Option (ItemOp × DemandItem)) : stepCommand x ≠ .dropInvalidFrame := by
  unfold stepCommand
  split
  · exact itemCommand_ne_drop _ _
  · exact nofun

theorem manageCommand_ne_drop (m : ManageCtx) (payload : List Byte) : manageCommand m payload ≠ .dropInvalidFrame := by
  unfold manageCommand
  split
  · exact nofun
  · split <;> exact nofun

/-- No command of a valid frame drops it. -/
theorem drop_notMem_frameCommands (input : Ring) (f : Received) : .dropInvalidFrame ∉ frameCommands input f := by
  unfold frameCommands
  dsimp only
  repeat' split
  case isFalse.isFalse.isFalse.isFalse.isTrue => simp [demandCommands, stepCommand_ne_drop]
  case isFalse.isFalse.isFalse.isFalse.isFalse.isTrue => simpa using (manageCommand_ne_drop _ _).symm
  all_goals exact nofun

theorem receive_eq_drop_iff (input : Ring) (bytes : List Byte) :
    receive input bytes = [.dropInvalidFrame] ↔ readFrame bytes = none := by
  unfold receive
  cases readFrame bytes with
  | none => simp
  | some f =>
    refine ⟨fun heq => absurd ?_ (drop_notMem_frameCommands input f), nofun⟩
    change frameCommands input f = _ at heq
    rw [heq]
    exact List.mem_singleton_self _

/-! ## Frames read back (R159, R160) -/

theorem frameBytes_valid {dest src cls seq : Nat} {payload : List Byte} (hdest : dest ≤ 31) (hsrc : src ≤ 31)
    (hlength : payload.length ≤ 56) : ∃ h l, ValidBytes (frameBytes dest src cls seq payload)
      (byteOf dest) (byteOf src) (byteOf (cls * 16 + seq)) (byteOf payload.length) h l payload := by
  refine ⟨_, _, rfl, rfl, toNat_byteOf (by omega), hlength, ?_, ?_⟩
  · rw [toNat_byteOf (by omega)]
    exact hdest
  · rw [toNat_byteOf (by omega)]
    exact hsrc

/-- A frame's bytes are read back as the frame. -/
theorem readFrame_frameBytes {dest src cls seq : Nat} {payload : List Byte} (hdest : dest ≤ 31) (hsrc : src ≤ 31)
    (hcls : cls ≤ 15) (hseq : seq ≤ 15) (hlength : payload.length ≤ 56) :
    readFrame (frameBytes dest src cls seq payload) =
      some { dest := dest, src := src, cls := cls, seq := seq, payload := payload } := by
  obtain ⟨h, l, hvalid⟩ := frameBytes_valid (cls := cls) (seq := seq) hdest hsrc hlength
  have hclass : (cls * 16 + seq) / 16 = cls := by omega
  have hsequence : (cls * 16 + seq) % 16 = seq := by omega
  rw [readFrame_valid hvalid, toNat_byteOf (by omega), toNat_byteOf (by omega), toNat_byteOf (by omega), hclass,
    hsequence]

/-- Settles O3: the reading of bytes taken apart, and the contents read back as the LOADs have them. -/
theorem frameBytesReadOrDropped : Obligations.FrameBytesReadOrDropped := by
  refine ⟨fun input bytes s => ⟨?_, rfl⟩, fun dest src cls seq payload hdest hsrc hcls hseq hlength =>
    readFrame_frameBytes hdest hsrc hcls hseq hlength, fun items hitems => ?_⟩
  · rw [receive_eq_drop_iff, readFrame_eq_none_iff]
    rfl
  · have hplain : ∀ it ∈ items, it.Plain := hitems
    rw [parseContents_bytes fun it hit => (hplain it hit).fits, map_asRead_of_plain hplain]

end Sys2Proof.Machine
end


-- ==== Sys2Proof/Proofs/Markers.lean ====
section
/-! PROOFS OF OBLIGATIONS. The markers sent at a marker timer expiry, and the paired round (R169, R170, R172). -/

namespace Sys2Proof.Machine

variable {s t u : State}

/-! ## One marker (R169) -/

/-- The MARKER frame that leaves on a ring while the marker number is `n` (R162, R169; log 8). -/
def markerFrame (ring : Ring) (n : Nat) : TxFrame :=
  ⟨ring, 31, .marker
    { number := carriedNumber n, sentOn := ring, hops := 0, forwardWrap := none, reverseWrap := none }⟩

/-- The marker outstanding once it has been sent in the state `s` while the marker number was `n` (R169; log 8). -/
def markerSent (role : MarkerRole) (n : Nat) (s : State) : Outstanding :=
  { number := carriedNumber n, role := role, sentAt := s.now, watch := .running (s.now + 100 * s.lpu.returnLimit) }

theorem sendMarker_sent (ring : Ring) (role : MarkerRole) (s : State) :
    (sendMarker ring role s).sent = s.sent ++ [markerFrame ring s.lpu.markerNumber] := by
  cases ring <;> rfl

theorem sendMarker_forward (role : MarkerRole) (s : State) : (sendMarker .forward role s).lpu =
    { s.lpu with forwardMarker := some (markerSent role s.lpu.markerNumber s),
                 markerNumber := (s.lpu.markerNumber + 1) % 256 } := rfl

/-! ## The paired round (R172) -/

/-- The state in which the markers of a round are sent. -/
def roundOpened (s : State) : State := { abandonMarkers s with lpu.round := some ⟨none, none⟩ }

/-- From `s` to `t` a paired round has begun, the PAIRED marker of the ring `first` sent before that of `second`. -/
structure RoundSent (first second : Ring) (s t : State) : Prop where
  earlier : outstanding t first = some (markerSent .paired s.lpu.markerNumber s)
  later : outstanding t second = some (markerSent .paired ((s.lpu.markerNumber + 1) % 256) s)
  number : t.lpu.markerNumber = ((s.lpu.markerNumber + 1) % 256 + 1) % 256
  sent : t.sent =
    s.sent ++ [markerFrame first s.lpu.markerNumber, markerFrame second ((s.lpu.markerNumber + 1) % 256)]

theorem roundSent_forwardFirst (s : State) : RoundSent .forward .reverse s
    (sendMarker .reverse .paired (sendMarker .forward .paired (roundOpened s))) where
  earlier := rfl
  later := rfl
  number := rfl
  sent := by
    rw [sendMarker_sent, sendMarker_sent, List.append_assoc]
    rfl

theorem roundSent_reverseFirst (s : State) : RoundSent .reverse .forward s
    (sendMarker .forward .paired (sendMarker .reverse .paired (roundOpened s))) where
  earlier := rfl
  later := rfl
  number := rfl
  sent := by
    rw [sendMarker_sent, sendMarker_sent, List.append_assoc]
    rfl

theorem startRound_sent (s : State) :
    RoundSent .forward .reverse s (startRound s) ∨ RoundSent .reverse .forward s (startRound s) := by
  unfold startRound
  dsimp only
  split
  · exact .inl (roundSent_forwardFirst s)
  · exact .inr (roundSent_reverseFirst s)

theorem startRound_round (s : State) : (startRound s).lpu.round = some ⟨none, none⟩ := by
  unfold startRound
  dsimp only
  split <;> rfl

theorem startRound_recoveryCount (s : State) : (startRound s).lpu.recoveryCount = s.lpu.recoveryCount := by
  unfold startRound
  dsimp only
  split <;> rfl

/-! ## What the sending of markers leaves -/

/-- From `s` to `t` markers may have been sent: the clock, the loop state, the miss count, the marker timer and every
other block are as they were. -/
structure MarkersOnly (s t : State) : Prop where
  rest : { t with lpu := s.lpu, sent := s.sent } = s
  loop : t.lpu.loop = s.lpu.loop
  misses : t.lpu.missCount = s.lpu.missCount
  timer : t.lpu.markerTimer = s.lpu.markerTimer

theorem MarkersOnly.now (h : MarkersOnly s t) : t.now = s.now := by
  have hnow := congrArg State.now h.rest
  exact hnow

theorem MarkersOnly.trans (h : MarkersOnly u s) (h' : MarkersOnly s t) : MarkersOnly u t where
  rest := calc { t with lpu := u.lpu, sent := u.sent }
      _ = { { t with lpu := s.lpu, sent := s.sent } with lpu := u.lpu, sent := u.sent } := rfl
      _ = { s with lpu := u.lpu, sent := u.sent } := by rw [h'.rest]
      _ = u := h.rest
  loop := h'.loop.trans h.loop
  misses := h'.misses.trans h.misses
  timer := h'.timer.trans h.timer

theorem sendMarker_only (ring : Ring) (role : MarkerRole) (s : State) : MarkersOnly s (sendMarker ring role s) := by
  cases ring <;> exact ⟨rfl, rfl, rfl, rfl⟩

theorem roundOpened_only (s : State) : MarkersOnly s (roundOpened s) := ⟨rfl, rfl, rfl, rfl⟩


theorem startRound_only (s : State) : MarkersOnly s (startRound s) := by
  unfold startRound
  dsimp only
  split <;> exact ((roundOpened_only s).trans (sendMarker_only _ _ _)).trans (sendMarker_only _ _ _)

/-! ## The markers of an expiry, by the loop state (R170) -/

theorem sendMarkers_forward (h : s.lpu.loop ∈ [.forward, .wrapBoth, .wrapFwd]) :
    sendMarkers s = sendMarker .forward .regular s := by
  simp only [List.mem_cons, List.not_mem_nil, or_false] at h
  rcases h with h | h | h <;> simp only [sendMarkers, h]

/-- The state after the REGULAR marker of an expiry in REVERSE or WRAP-REV, its expiries counted. -/
def regularCounted (n : Nat) (s : State) : State :=
  { sendMarker .reverse .regular s with lpu.recoveryCount := n }

theorem sendMarkers_reverse (h : s.lpu.loop ∈ [.reverse, .wrapRev]) (hfew : s.lpu.recoveryCount + 1 < 10) :
    sendMarkers s = regularCounted (s.lpu.recoveryCount + 1) s := by
  have hcount : (sendMarker .reverse .regular s).lpu.recoveryCount + 1 < 10 := hfew
  simp only [List.mem_cons, List.not_mem_nil, or_false] at h
  rcases h with h | h <;> simp only [sendMarkers, h, if_pos hcount] <;> rfl

theorem sendMarkers_recovery (h : s.lpu.loop ∈ [.reverse, .wrapRev]) (htenth : 10 ≤ s.lpu.recoveryCount + 1) :
    sendMarkers s = sendMarker .forward .recovery (regularCounted 0 s) := by
  have hcount : ¬(sendMarker .reverse .regular s).lpu.recoveryCount + 1 < 10 := Nat.not_lt.mpr htenth
  simp only [List.mem_cons, List.not_mem_nil, or_false] at h
  rcases h with h | h <;> simp only [sendMarkers, h, if_neg hcount] <;> rfl

theorem sendMarkers_down (h : s.lpu.loop = .down) : sendMarkers s = startRound s := by
  simp only [sendMarkers, h]

theorem regularCounted_only (n : Nat) (s : State) : MarkersOnly s (regularCounted n s) := ⟨rfl, rfl, rfl, rfl⟩

theorem sendMarkers_only (s : State) : MarkersOnly s (sendMarkers s) := by
  cases h : s.lpu.loop
  case down =>
    rw [sendMarkers_down h]
    exact startRound_only s
  case reverse | wrapRev =>
    have hloop : s.lpu.loop ∈ [.reverse, .wrapRev] := by simp [h]
    by_cases hfew : s.lpu.recoveryCount + 1 < 10
    · rw [sendMarkers_reverse hloop hfew]
      exact regularCounted_only _ s
    · rw [sendMarkers_recovery hloop (Nat.not_lt.mp hfew)]
      exact (regularCounted_only 0 s).trans (sendMarker_only _ _ _)
  all_goals
    rw [sendMarkers_forward (by simp [h])]
    exact sendMarker_only _ _ s

/-! ## The expiry (R169, R170) -/

/-- The state at an expiry of the marker timer, the timer restarted. -/
def timerRestarted (d : Nat) (s : State) : State :=
  { s with now := max s.now d, lpu.markerTimer := .running (max s.now d + 100 * s.lpu.markerPeriod) }

/-- The state that an expiry leaves: markers sent unless a paired round is in progress. -/
def timerExpired (d : Nat) (s : State) : State :=
  if s.lpu.round.isSome then timerRestarted d s else sendMarkers (timerRestarted d s)

theorem exec_markerTimerExpiry_running {d : Nat} (h : s.lpu.markerTimer = .running d) :
    exec .markerTimerExpiry s = .next (timerExpired d s) := by
  change execMarkerTimerExpiry s = _
  simp only [execMarkerTimerExpiry, expire_running s h]
  rfl

theorem exec_markerTimerExpiry_idle (h : ∀ d, s.lpu.markerTimer ≠ .running d) :
    exec .markerTimerExpiry s = .next s := by
  change execMarkerTimerExpiry s = _
  simp only [execMarkerTimerExpiry, expire_none s h]

theorem timerExpired_only (d : Nat) (s : State) : MarkersOnly (timerRestarted d s) (timerExpired d s) := by
  unfold timerExpired
  split
  · exact ⟨rfl, rfl, rfl, rfl⟩
  · exact sendMarkers_only _

/-- Settles O7: the markers of the loop state are sent from the state at the expiry, the timer restarted. -/
theorem markersSentAtExpiry : Obligations.MarkersSentAtExpiry := by
  intro d s
  refine ⟨exec_markerTimerExpiry_idle, fun hrunning => ?_⟩
  have honly := timerExpired_only d s
  refine ⟨timerExpired d s, exec_markerTimerExpiry_running hrunning, ?_, honly.now, honly.loop, honly.misses,
    honly.timer, fun hround => ?_, fun hround => ?_⟩
  · exact congrArg (fun x : State => { x with lpu := s.lpu, now := s.now }) honly.rest
  · rw [timerExpired, if_pos hround]
    exact ⟨rfl, rfl⟩
  have hsent : timerExpired d s = sendMarkers (timerRestarted d s) := by
    rw [timerExpired, hround]
    rfl
  rw [hsent]
  refine ⟨fun hloop => ?_, fun hloop => ?_, fun hloop => ?_⟩
  · rw [sendMarkers_forward (s := timerRestarted d s) hloop, sendMarker_forward, sendMarker_sent]
    exact ⟨rfl, rfl, rfl, rfl, rfl⟩
  · have hfew := sendMarkers_reverse (s := timerRestarted d s) hloop
    have htenth := sendMarkers_recovery (s := timerRestarted d s) hloop
    refine ⟨?_, fun hcount => ?_, fun hcount => ?_⟩
    · rcases Nat.lt_or_ge (s.lpu.recoveryCount + 1) 10 with hcount | hcount
      · rw [hfew hcount]
        rfl
      · rw [htenth hcount]
        rfl
    · rw [hfew hcount]
      exact ⟨rfl, rfl, rfl, sendMarker_sent _ _ _⟩
    · rw [htenth hcount]
      refine ⟨rfl, rfl, rfl, ?_⟩
      rw [sendMarker_sent]
      exact (congrArg (· ++ _) (sendMarker_sent _ _ _)).trans (List.append_assoc _ _ _)
  · rw [sendMarkers_down (s := timerRestarted d s) hloop]
    rcases startRound_sent (timerRestarted d s) with h | h
    · exact ⟨startRound_round _, h.number, .inl ⟨h.earlier, h.later, h.sent⟩⟩
    · exact ⟨startRound_round _, h.number, .inr ⟨h.earlier, h.later, h.sent⟩⟩

end Sys2Proof.Machine
end


-- ==== Sys2Proof/Proofs/MarkersEnded.lean ====
section
/-! PROOFS OF OBLIGATIONS. The end of a marker, by its return or by its return watch, and what its role makes of it
(R166, R169, R171, R172). -/

namespace Sys2Proof.Machine

variable {s t : State} {ring : Ring} {o : Outstanding}

/-! ## A REGULAR marker (R171) -/

theorem regularMiss_counted (h : s.lpu.missCount + 1 < 3) :
    regularMiss s = { s with lpu.missCount := s.lpu.missCount + 1 } := by
  have hmin : min 3 (s.lpu.missCount + 1) = s.lpu.missCount + 1 := by omega
  simp only [regularMiss, hmin, if_pos h]

/-- What the third miss in a row makes of the loop state. -/
def thirdMiss (s : State) : State :=
  match s.lpu.loop with
  | .forward => changeLoop .reverse s
  | .reverse => startRound s
  | .wrapBoth | .wrapFwd | .wrapRev => changeLoop .down s
  | .down => s

theorem regularMiss_third (h : 3 ≤ s.lpu.missCount + 1) :
    regularMiss s = thirdMiss { s with lpu.missCount := 3 } := by
  have hmin : min 3 (s.lpu.missCount + 1) = 3 := by omega
  simp only [regularMiss, hmin, Nat.lt_irrefl, if_false]
  rfl

theorem thirdMiss_forward (h : s.lpu.loop = .forward) : thirdMiss s = changeLoop .reverse s := by
  simp only [thirdMiss, h]

theorem thirdMiss_reverse (h : s.lpu.loop = .reverse) : thirdMiss s = startRound s := by
  simp only [thirdMiss, h]

theorem thirdMiss_wrap (h : s.lpu.loop ∈ [.wrapBoth, .wrapFwd, .wrapRev]) : thirdMiss s = changeLoop .down s := by
  simp only [List.mem_cons, List.not_mem_nil, or_false] at h
  rcases h with h | h | h <;> simp only [thirdMiss, h]

theorem regularReturn_present {l : LoopState} (h : l = s.lpu.loop) :
    regularReturn (some l) s = { s with lpu.missCount := 0 } := by
  rw [regularReturn, if_pos h]

theorem regularReturn_other {l : LoopState} (h : l ≠ s.lpu.loop) : regularReturn (some l) s = changeLoop l s := by
  rw [regularReturn, if_neg h]

/-! ## A RECOVERY marker (R171) -/

theorem recoveryReturn_forward (h : s.lpu.loop ≠ .forward) :
    recoveryReturn (some .forward) s = changeLoop .forward s := by
  rw [recoveryReturn, if_pos ⟨rfl, h⟩]

theorem recoveryReturn_ignored {shown : Option LoopState} (h : shown ≠ some .forward ∨ s.lpu.loop = .forward) :
    recoveryReturn shown s = s := by
  rw [recoveryReturn, if_neg]
  rintro ⟨hshown, hloop⟩
  exact h.elim (· hshown) hloop

/-! ## A PAIRED marker (R172) -/

/-- The first row of R172's table that applies, as the statements write it. -/
theorem roundResult_eq (f v : Option LoopState) : roundResult f v =
    if f = some .forward then .forward
    else if v = some .reverse then .reverse
    else if f = some .wrapFwd then (if v = some .wrapRev then .wrapBoth else .wrapFwd)
    else if v = some .wrapRev then .wrapRev
    else .down := by
  unfold roundResult
  by_cases hf : f = some .wrapFwd
  · by_cases hv : v = some .wrapRev <;> simp [hf, hv]
  · simp [hf]

theorem decideRound_eq (f v : Option LoopState) (s : State) : decideRound f v s = roundDecided f v s := by
  unfold decideRound roundDecided
  rw [roundResult_eq]
  simp only [ne_eq, ite_not]

/-- The first of the two endings of a round is kept. -/
theorem pairedEnd_first {r : PairedRound} (shown : Option LoopState) (hround : s.lpu.round = some r) :
    (ring = .forward → r.reverseEnd = none →
      pairedEnd ring shown s = { s with lpu.round := some { r with forwardEnd := some shown } }) ∧
    (ring = .reverse → r.forwardEnd = none →
      pairedEnd ring shown s = { s with lpu.round := some { r with reverseEnd := some shown } }) := by
  refine ⟨?_, ?_⟩
  all_goals
    rintro rfl hother
    simp only [pairedEnd, hround, hother]

/-- The second of the two endings of a round decides it. -/
theorem pairedEnd_second {r : PairedRound} (shown other : Option LoopState) (hround : s.lpu.round = some r) :
    (ring = .forward → r.reverseEnd = some other → pairedEnd ring shown s = roundDecided shown other s) ∧
    (ring = .reverse → r.forwardEnd = some other → pairedEnd ring shown s = roundDecided other shown s) := by
  refine ⟨?_, ?_⟩
  all_goals
    rintro rfl hother
    simp only [pairedEnd, hround, hother, decideRound_eq]

/-! ## The end of a marker (R169) -/

/-- The outstanding marker of a ring has ended between `s` and `t`: the other ring's, the loop state, the counts, the timer
and the round are as they were. -/
structure MarkerEnded (ring : Ring) (s t : State) : Prop where
  loop : t.lpu.loop = s.lpu.loop
  misses : t.lpu.missCount = s.lpu.missCount
  expiries : t.lpu.recoveryCount = s.lpu.recoveryCount
  timer : t.lpu.markerTimer = s.lpu.markerTimer
  round : t.lpu.round = s.lpu.round
  ended : outstanding t ring = none
  others : ∀ x, x ≠ ring → outstanding t x = outstanding s x

theorem setOutstanding_ended (ring : Ring) (s : State) : MarkerEnded ring s (setOutstanding ring none s) := by
  cases ring <;> refine ⟨rfl, rfl, rfl, rfl, rfl, rfl, fun x hx => ?_⟩ <;> cases x
  exacts [absurd rfl hx, rfl, rfl, absurd rfl hx]

/-! ## A return (R166, R169) -/

/-- The state in which the return of an outstanding marker is judged: the marker ended, its return recorded (R169). -/
def cameHome (o : Outstanding) (m : MarkerFrame) (s : State) : State :=
  recordReturn (s.now - o.sentAt) m (setOutstanding m.sentOn none s)

theorem cameHome_ended (o : Outstanding) (m : MarkerFrame) (s : State) : MarkerEnded m.sentOn s (cameHome o m s) := by
  obtain ⟨hloop, hmisses, hexpiries, htimer, hround, hended, hothers⟩ := setOutstanding_ended m.sentOn s
  have hsame : ∀ x, outstanding (cameHome o m s) x = outstanding (setOutstanding m.sentOn none s) x := fun x => by
    cases x <;> rfl
  exact ⟨hloop, hmisses, hexpiries, htimer, hround, (hsame _).trans hended, fun x hx => (hsame x).trans (hothers x hx)⟩

theorem cameHome_rest (o : Outstanding) (m : MarkerFrame) (s : State) : { cameHome o m s with lpu := s.lpu } = s := by
  unfold cameHome
  cases m.sentOn <;> rfl

theorem cameHome_trips (o : Outstanding) (m : MarkerFrame) (s : State) :
    (cameHome o m s).lpu.minTrip = some (match s.lpu.minTrip with
      | some x => min x (s.now - o.sentAt)
      | none => s.now - o.sentAt) ∧
    (cameHome o m s).lpu.maxTrip = some (match s.lpu.maxTrip with
      | some x => max x (s.now - o.sentAt)
      | none => s.now - o.sentAt) := by
  unfold cameHome
  cases m.sentOn <;> exact ⟨rfl, rfl⟩

theorem cameHome_wraps (o : Outstanding) (m : MarkerFrame) (s : State) :
    (cameHome o m s).lpu.forwardWrap = m.forwardWrap.or s.lpu.forwardWrap ∧
      (cameHome o m s).lpu.reverseWrap = m.reverseWrap.or s.lpu.reverseWrap := by
  have hor : ∀ x y : Option Nat, (if x.isSome then x else y) = x.or y := fun x y => by cases x <;> rfl
  have hkept : (setOutstanding m.sentOn none s).lpu.forwardWrap = s.lpu.forwardWrap ∧
      (setOutstanding m.sentOn none s).lpu.reverseWrap = s.lpu.reverseWrap := by
    cases m.sentOn <;> exact ⟨rfl, rfl⟩
  exact ⟨(hor _ _).trans (congrArg _ hkept.1), (hor _ _).trans (congrArg _ hkept.2)⟩

theorem exec_markerReturn_relayed {input : Ring} {m : MarkerFrame} (h : s.lpu.loop = .wrapBoth ∧ input = .reverse) :
    exec (.markerReturn input m) s = .next (sendOn .reverse 31 (.marker m) s) := by
  change execMarkerReturn input m s = _
  rw [execMarkerReturn, if_pos h]

theorem exec_markerReturn_home {input : Ring} {m : MarkerFrame} (h : ¬(s.lpu.loop = .wrapBoth ∧ input = .reverse)) :
    exec (.markerReturn input m) s = .next (markerHome input m s) := by
  change execMarkerReturn input m s = _
  rw [execMarkerReturn, if_neg h]

theorem markerHome_unmatched (input : Ring) {m : MarkerFrame}
    (h : ∀ o, outstanding s m.sentOn = some o → o.number ≠ m.number) : markerHome input m s = s := by
  unfold markerHome
  split
  · rfl
  · next o ho => rw [if_neg (h o ho)]

theorem markerHome_matched (input : Ring) {m : MarkerFrame} (h : outstanding s m.sentOn = some o)
    (hnumber : o.number = m.number) : markerHome input m s =
      judgeReturn o.role m.sentOn (indicates m.sentOn input m.forwardWrap m.reverseWrap) (cameHome o m s) := by
  simp only [markerHome, h, if_pos hnumber]
  rfl

/-- Settles O6: the return that matches is judged, by its role, in the state that its recording leaves. -/
theorem markerReturnJudged : Obligations.MarkerReturnJudged := by
  intro input m s
  refine ⟨exec_markerReturn_relayed, fun hhome => ⟨fun hnone => ?_, fun o ho hnumber => ?_⟩⟩
  · rw [exec_markerReturn_home hhome, markerHome_unmatched input hnone]
  have hexec := (exec_markerReturn_home (m := m) hhome).trans
    (congrArg Host.Outcome.next (markerHome_matched input ho hnumber))
  obtain ⟨hloop, hmisses, hexpiries, htimer, hround, hended, hothers⟩ := cameHome_ended o m s
  refine ⟨cameHome o m s, cameHome_rest o m s, hloop, hmisses, hexpiries, htimer, hround, hended, hothers, rfl,
    (cameHome_trips o m s).1, (cameHome_trips o m s).2, rfl, (cameHome_wraps o m s).1, (cameHome_wraps o m s).2, ?_⟩
  intro shown into
  have hinto : ∀ t, judgeReturn o.role m.sentOn shown (cameHome o m s) = t → into t := fun t ht =>
    hexec.trans (congrArg Host.Outcome.next ht)
  clear_value shown
  generalize cameHome o m s = home at *
  refine ⟨fun hrole => ?_, fun hrole => ?_, fun hrole r hr => ?_⟩ <;> rw [hrole] at hinto
  · refine ⟨fun hshown => hinto _ ?_, fun l hshown hl => hinto _ ?_, fun hshown hfew => hinto _ ?_,
      fun hshown hthird => ⟨fun h => hinto _ ?_, fun h => hinto _ ?_, fun h => hinto _ ?_⟩⟩
    all_goals subst hshown
    · exact regularReturn_present hloop.symm
    · exact regularReturn_other (hloop ▸ hl)
    · exact (regularMiss_counted (hmisses ▸ hfew)).trans (by rw [hmisses])
    · exact (regularMiss_third (hmisses ▸ hthird)).trans (thirdMiss_forward (hloop.trans h))
    · exact (regularMiss_third (hmisses ▸ hthird)).trans (thirdMiss_reverse (hloop.trans h))
    · exact (regularMiss_third (hmisses ▸ hthird)).trans (thirdMiss_wrap (hloop.symm ▸ h))
  · refine ⟨fun hshown hl => hinto _ ?_, fun hignored => hinto _ ?_⟩
    · subst hshown
      exact recoveryReturn_forward (hloop ▸ hl)
    · exact recoveryReturn_ignored (hloop.symm ▸ hignored)
  · have hfirst := pairedEnd_first (ring := m.sentOn) shown (hround.trans hr)
    have hsecond := fun other => pairedEnd_second (ring := m.sentOn) shown other (hround.trans hr)
    exact ⟨fun h hother => hinto _ (hfirst.1 h hother), fun h hother => hinto _ (hfirst.2 h hother),
      fun other h hother => hinto _ ((hsecond other).1 h hother),
      fun other h hother => hinto _ ((hsecond other).2 h hother)⟩

/-! ## The expiry of a return watch (R171, R172) -/

theorem exec_returnWatchExpiry_idle (h : outstanding s ring = some o) (hwatch : ∀ d, o.watch ≠ .running d) :
    exec (.returnWatchExpiry ring) s = .next s := by
  change execReturnWatchExpiry ring s = _
  simp only [execReturnWatchExpiry, h, expire_none s hwatch]

theorem exec_returnWatchExpiry_running {d : Nat} (h : outstanding s ring = some o) (hwatch : o.watch = .running d) :
    exec (.returnWatchExpiry ring) s = .next (watchMissed ring o.role { s with now := max s.now d }) := by
  change execReturnWatchExpiry ring s = _
  simp only [execReturnWatchExpiry, h, expire_running s hwatch]

/-- A paired round begun: its markers outstanding on both rings, and two frames sent. -/
theorem startRound_markers (s : State) :
    (∃ f, (startRound s).lpu.forwardMarker = some f ∧ f.role = .paired) ∧
      (∃ v, (startRound s).lpu.reverseMarker = some v ∧ v.role = .paired) ∧
      (startRound s).sent.length = s.sent.length + 2 := by
  rcases startRound_sent s with h | h
  · exact ⟨⟨_, h.earlier, rfl⟩, ⟨_, h.later, rfl⟩, by simp [h.sent]⟩
  · exact ⟨⟨_, h.later, rfl⟩, ⟨_, h.earlier, rfl⟩, by simp [h.sent]⟩

/-- Settles O8: the marker ends in the state at the deadline, and its role decides. -/
theorem returnWatchExpiryCounted : Obligations.ReturnWatchExpiryCounted := by
  intro ring o d s ho
  refine ⟨exec_returnWatchExpiry_idle ho, fun hwatch => ?_⟩
  intro ended into
  have hended : MarkerEnded ring { s with now := max s.now d } ended := setOutstanding_ended ring _
  have hrest : { ended with lpu := s.lpu, sent := s.sent, now := s.now } = s := by
    cases ring <;> rfl
  have hsame : ended.sent = s.sent := by
    cases ring <;> rfl
  obtain ⟨hloop, hmisses, hexpiries, -, hround, -, -⟩ := hended
  have hinto : ∀ t, watchMissed ring o.role { s with now := max s.now d } = t → into t := fun t ht =>
    (exec_returnWatchExpiry_running ho hwatch).trans (congrArg Host.Outcome.next ht)
  refine ⟨fun hrole => ?_, fun hrole hfew => ?_, fun hrole hthird => ?_, fun hrole r hr => ?_⟩ <;> rw [hrole] at hinto
  · exact hinto _ rfl
  · exact hinto _ ((regularMiss_counted (s := ended) (hmisses ▸ hfew)).trans (by rw [hmisses]))
  · have hmissed : ∀ t, thirdMiss { ended with lpu.missCount := 3 } = t → into t := fun t ht =>
      hinto _ ((regularMiss_third (s := ended) (hmisses ▸ hthird)).trans ht)
    refine ⟨fun h => hmissed _ (thirdMiss_forward (hloop.trans h)),
      fun h => hmissed _ (thirdMiss_wrap (hloop.symm ▸ h)), fun h => ?_⟩
    have honly := startRound_only { ended with lpu.missCount := 3 }
    obtain ⟨hforward, hreverse, hsent⟩ := startRound_markers { ended with lpu.missCount := 3 }
    refine ⟨_, hmissed _ (thirdMiss_reverse (hloop.trans h)), ?_, honly.loop.trans (hloop.trans h), honly.misses,
      (startRound_recoveryCount _).trans hexpiries, startRound_round _, hforward, hreverse, hsent.trans (by rw [hsame])⟩
    exact (congrArg (fun x : State => { x with lpu := s.lpu, sent := s.sent, now := s.now }) honly.rest).trans hrest
  · have hfirst := pairedEnd_first (s := ended) (ring := ring) none (hround.trans hr)
    have hsecond := fun other => pairedEnd_second (s := ended) (ring := ring) none other (hround.trans hr)
    exact ⟨fun h hother => hinto _ (hfirst.1 h hother), fun h hother => hinto _ (hfirst.2 h hother),
      fun other h hother => hinto _ ((hsecond other).1 h hother),
      fun other h hother => hinto _ ((hsecond other).2 h hother)⟩

end Sys2Proof.Machine
end


-- ==== Sys2Proof/Proofs/Intercepts.lean ====
section
/-! PROOFS OF OBLIGATIONS. COMMAND frames: forwarded, or intercepted and converted into items (R47, R165, R167). -/

namespace Sys2Proof.Machine

variable {s t u : State}

/-! ## What the items of a frame leave -/

/-- Items and probes may have been taken between `s` and `t`: every client's entry is as it was, and so is every count
but DEMAND_ITEMS, DEMANDS_DENIED and REVOCATIONS. -/
structure ItemsTaken (s t : State) : Prop where
  entry : ∀ c, (t.client c).entry = (s.client c).entry
  count : ∀ k, k ∉ [Count.demandItems, .demandsDenied, .revocations] → t.count k = s.count k

namespace ItemsTaken

theorem refl (s : State) : ItemsTaken s s := ⟨fun _ => rfl, fun _ _ => rfl⟩

/-- An operation that leaves the clients and the counts. -/
theorem same (h : ItemsTaken u s) (hclients : t.din.clients = s.din.clients) (hcounts : t.alc.counts = s.alc.counts) :
    ItemsTaken u t := by
  refine ⟨fun c => ?_, fun k hk => ?_⟩
  · rw [← h.entry c, State.client, hclients, State.client]
  · rw [← h.count k hk, State.count, hcounts, State.count]

theorem countEvent (h : ItemsTaken u s) {k : Count} (hk : k ∈ [Count.demandItems, .demandsDenied, .revocations]) :
    ItemsTaken u (countEvent k s) := by
  refine ⟨h.entry, fun j hj => ?_⟩
  have hne : k ≠ j := fun he => hj (he ▸ hk)
  rw [count_countEvent_ne s hne, h.count j hj]

/-- A client rewritten with its entry. -/
theorem setClient (h : ItemsTaken u s) {c : Nat} {x : Client} (hentry : x.entry = (s.client c).entry) :
    ItemsTaken u (s.setClient c x) := by
  refine ⟨fun j => ?_, h.count⟩
  rw [client_setClient, ← h.entry j]
  split
  · next hj => rw [hentry, hj.1]
  · rfl

/-! ### Holders, leases and records (chapter 4) -/

theorem moveHolder (h : ItemsTaken u s) (r c : Nat) (st : HolderState) : ItemsTaken u (moveHolder r c st s) :=
  h.same (by simp) (by simp)

theorem removePrf (h : ItemsTaken u s) (r c : Nat) : ItemsTaken u (removePrf r c s) := h.same rfl rfl

theorem notify (h : ItemsTaken u s) (c : Nat) (l : List Notice) : ItemsTaken u (notify c l s) :=
  h.same (by simp) (by simp)

theorem revoke (h : ItemsTaken u s) (cause : Cause) (r c : Nat) : ItemsTaken u (revoke cause r c s) := by
  refine ⟨fun j => ?_, fun k hk => ?_⟩
  · rw [← h.entry j, State.client, State.client, (revoke_keeps s cause r c).2.2.2.2.2.2.1]
  · rw [revoke_count, if_neg fun he => hk (by simp [he]), h.count k hk]

theorem revokeAll (h : ItemsTaken u s) (cause : Cause) (r : Nat) (cs : List Nat) :
    ItemsTaken u (revokeAll cause r cs s) :=
  forEach_induct _ h fun c _ _ ht => ht.revoke cause r c

theorem noticeClear (h : ItemsTaken u s) (k : Nat) : ItemsTaken u (noticeClear k s) := h.same (by simp) (by simp)

theorem renew (h : ItemsTaken u s) (r c : Nat) (p : Params) : ItemsTaken u (renew r c p s) := by
  have hwritten : ItemsTaken u (writeParams r c p s) := h.same rfl rfl
  have hstarted : ∀ x, ItemsTaken u ((writeParams r c p s).setHolder r c x) := fun x => hwritten.same rfl rfl
  exact (hstarted _).setClient rfl

theorem takeLevel (h : ItemsTaken u s) (level : Level) (r c : Nat) (p : Params) :
    ItemsTaken u (takeLevel level r c p s) := (h.moveHolder r c _).renew r c p

theorem waitFor (h : ItemsTaken u s) (level : Level) (r c : Nat) (p : Params) :
    ItemsTaken u (waitFor level r c p s) := by
  have htarget : ∀ x, ItemsTaken u ((Machine.moveHolder r c .waiting s).setHolder r c x) := fun x =>
    (h.moveHolder r c .waiting).same rfl rfl
  unfold Machine.waitFor
  exact ItemsTaken.renew ((htarget _).same (by exact rfl) (by exact rfl)) r c p

/-! ### Decisions (R67 to R75) -/

theorem acquireSharedNew (h : ItemsTaken u s) (r c : Nat) (p : Params) : ItemsTaken u (acquireSharedNew r c p s).1 := by
  simp only [Machine.acquireSharedNew]
  repeat' split
  case isFalse.isFalse.isTrue => exact h.takeLevel .shared r c p
  case isFalse.isFalse.isFalse.isTrue.isTrue => exact (h.revokeAll _ r _).waitFor _ r c p
  all_goals exact h

theorem acquireExclusiveNew (h : ItemsTaken u s) (r c : Nat) (p : Params) :
    ItemsTaken u (acquireExclusiveNew r c p s).1 := by
  simp only [Machine.acquireExclusiveNew]
  repeat' split
  case isFalse.isFalse.isTrue.isTrue.isTrue => exact h.waitFor _ r c p
  case isFalse.isFalse.isTrue.isFalse => exact h.takeLevel .exclusive r c p
  case isFalse.isFalse.isFalse.isTrue.isTrue => exact (h.revokeAll _ r _).waitFor _ r c p
  all_goals exact h

theorem decideAcquire (h : ItemsTaken u s) (level : Level) (r c : Nat) (p : Params) :
    ItemsTaken u (decideAcquire level r c p s).1 := by
  unfold Machine.decideAcquire
  dsimp only
  repeat' split
  · exact h.acquireSharedNew r c p
  · exact h.acquireExclusiveNew r c p
  · exact h
  · exact h.renew r c p

theorem decideUpgrade (h : ItemsTaken u s) (r c : Nat) : ItemsTaken u (decideUpgrade r c s).1 := by
  have hwait : ∀ x l, ItemsTaken u x → ItemsTaken u { Machine.moveHolder r c .upgrading x with din.prf := l } :=
    fun _ _ hx => (hx.moveHolder r c .upgrading).same rfl rfl
  simp only [Machine.decideUpgrade]
  repeat' split
  case isFalse.isFalse.isFalse.isTrue.isTrue.isTrue => exact hwait _ _ h
  case isFalse.isFalse.isFalse.isTrue.isFalse => exact h.moveHolder r c .exclusive
  case isFalse.isFalse.isFalse.isFalse.isTrue.isTrue => exact hwait _ _ (h.revokeAll _ r _)
  all_goals exact h

theorem decideYieldDone (h : ItemsTaken u s) (r c : Nat) : ItemsTaken u (decideYieldDone r c s).1 := by
  simp only [Machine.decideYieldDone]
  repeat' split
  · exact h.noticeClear _
  all_goals exact h

theorem decideItem (h : ItemsTaken u s) (op : ItemOp) (r c : Nat) (p : Params) :
    ItemsTaken u (decideItem op r c p s).1 := by
  have hreserved : ∀ x, ItemsTaken u (s.setClient c { s.client c with reservation := x }) := fun _ => h.setClient rfl
  cases op with
  | acquire level => exact h.decideAcquire level r c p
  | upgrade => exact h.decideUpgrade r c
  | downgrade =>
    simp only [Machine.decideItem, decideDowngrade]
    split
    · exact h.moveHolder r c .shared
    · exact h
  | refresh =>
    simp only [Machine.decideItem, decideRefresh]
    split
    · exact h
    · exact h
    · exact h.renew r c p
  | release =>
    simp only [Machine.decideItem, decideRelease]
    split
    · exact h
    · exact h.decideYieldDone r c
    · exact (h.removePrf r c).moveHolder r c .none
  | yieldDone => exact h.decideYieldDone r c
  | reserve => exact hreserved _
  | commitIf level generation =>
    simp only [Machine.decideItem, decideCommitIf]
    split
    · exact (hreserved none).decideAcquire level r c p
    · exact hreserved none
  | bad => exact h

/-! ### Items and probes (R44, R47, R84) -/

theorem takeClientItem (h : ItemsTaken u s) (c : Nat) (op : ItemOp) (it : DemandItem) :
    ItemsTaken u (takeClientItem c op it s).1 := by
  have hcounted : ItemsTaken u (Machine.countEvent .demandItems s) := h.countEvent (by decide)
  have hrefused : ∀ d : Decision, ItemsTaken u d.1 → ItemsTaken u (countRefusal d).1 := by
    intro d hd
    unfold countRefusal
    split
    · exact hd.countEvent (by decide)
    · exact hd
  refine hrefused _ ?_
  split
  · exact hcounted
  · exact hcounted.decideItem op _ c _

theorem takeConverted (h : ItemsTaken u s) (c setting : Nat) (m : Mapping) :
    ItemsTaken u (takeConverted c setting s m) := h.takeClientItem c _ _

theorem convertEntry (h : ItemsTaken u s) (c : Nat) (x : Intercept) (y : CommandEntry) :
    ItemsTaken u (convertEntry c x s y) := by
  unfold Machine.convertEntry
  split
  · exact h.countEvent (by decide)
  · exact StepClosed.foldl_keeps (fun _ m ht => ht.takeConverted c y.setting m) _ h

theorem act (h : ItemsTaken u s) (p : Probe) : ItemsTaken u (p.act s) := by
  unfold Probe.act
  split
  · unfold doEvict
    split
    · exact h.revoke .probe _ _
    · exact h
  · refine forEach_induct _ h fun c _ t ht => ?_
    unfold evictOne
    split
    · exact ((ht.removePrf _ c).moveHolder _ c .none).notify c _
    iterate 3 exact ht.revoke .probe _ c
    iterate 2 exact ht
  · exact h.same (by simp) (by simp)
  all_goals exact h.same rfl rfl

theorem testHead (h : ItemsTaken u s) : ItemsTaken u (testHead s) :=
  testHead_induct h fun t p rest ht _ _ => by
    have hleft : ItemsTaken u { t with gtb.probes := rest } := ht.same rfl rfl
    exact (hleft.act p).same (by exact rfl) (by exact rfl)

end ItemsTaken

/-! ## The conversion of an entry (R47) -/

/-- What a mapping of an entry's output gives: an item of client `c`, whose entry is `e`, with the quantity and the
operation of R47. -/
def mappedItem (c : Nat) (e : ClientEntry) (setting : Nat) (u : State) (m : Mapping) : State :=
  let q := convertedQuantity setting m.scale
  (takeClientItem c (convertedOp (u.holder m.resource c) q)
    { resource := m.resource, cls := e.defaultClass, weight := e.defaultWeight, q := q, floor := none,
      fallback := none } u).1

/-- What an entry of a COMMAND frame gives: an item for each mapping of its output, or one refusal. -/
def mappedEntry (c : Nat) (e : ClientEntry) (x : Intercept) (u : State) (y : CommandEntry) : State :=
  if ∃ m ∈ x.mappings, m.output = y.output then
    (x.mappings.filter fun m => m.output == y.output).foldl (mappedItem c e y.setting) u
  else countEvent .demandsDenied u

/-- Two steps that agree where a property holds, which one of them keeps, agree over a list. -/
theorem foldl_congr_of_keeps {α : Type} {P : State → Prop} {f g : State → α → State} (hkeeps : ∀ t x, P t → P (f t x))
    (hagree : ∀ t x, P t → f t x = g t x) (l : List α) (h : P s) : l.foldl f s = l.foldl g s := by
  induction l generalizing s with
  | nil => rfl
  | cons x l ih => rw [List.foldl_cons, List.foldl_cons, ← hagree s x h, ih (hkeeps s x h)]

theorem takeConverted_eq {c setting : Nat} {e : ClientEntry} (he : (s.client c).entry = some e) (m : Mapping) :
    takeConverted c setting s m = mappedItem c e setting s m := by
  simp only [takeConverted, he]
  rfl

theorem convertEntry_eq {c : Nat} {e : ClientEntry} (he : (s.client c).entry = some e) (x : Intercept)
    (y : CommandEntry) : convertEntry c x s y = mappedEntry c e x s y := by
  have hitems : ∀ l : List Mapping, l.foldl (takeConverted c y.setting) s = l.foldl (mappedItem c e y.setting) s :=
    fun l => foldl_congr_of_keeps (P := fun t => (t.client c).entry = some e)
      (fun t m ht => (((ItemsTaken.refl t).takeConverted c y.setting m).entry c).trans ht)
      (fun _ m ht => takeConverted_eq ht m) l he
  unfold mappedEntry
  split
  · next hnamed =>
    rw [← hitems]
    obtain ⟨m, hm, houtput⟩ := hnamed
    unfold convertEntry
    split
    · next hnil => exact absurd (List.filter_eq_nil_iff.mp hnil m hm) (by simp [houtput])
    · rfl
  · next hnone =>
    have hnil : (x.mappings.filter fun m => m.output == y.output) = [] :=
      List.filter_eq_nil_iff.mpr fun m hm hout => hnone ⟨m, hm, eq_of_beq hout⟩
    simp only [convertEntry, hnil]

/-- The entries of an intercepted frame, in their order. -/
theorem foldl_convertEntry {c : Nat} {e : ClientEntry} (he : (s.client c).entry = some e) (x : Intercept)
    (l : List CommandEntry) : l.foldl (convertEntry c x) s = l.foldl (mappedEntry c e x) s :=
  foldl_congr_of_keeps (P := fun t => (t.client c).entry = some e)
    (fun t y ht => (((ItemsTaken.refl t).convertEntry c x y).entry c).trans ht)
    (fun _ y ht => convertEntry_eq ht x y) l he

/-! ## The frame (R165, R167) -/

theorem exec_intercept_other {fr : RxFrame} (hsrc : fr.src ≠ 0) (s : State) :
    exec (.intercept fr) s = .next (commandFrame fr s) := by
  rw [exec, execIntercept, unlessOwn, if_neg hsrc]

theorem commandFrame_forwarded {fr : RxFrame} (h : interceptFor (arrive fr.src s) fr.src fr.dest = none) :
    commandFrame fr s = steerPlain 3 fr (arrive fr.src s) := by
  simp only [commandFrame, h, classCommand]

theorem commandFrame_intercepted {fr : RxFrame} {x : Intercept}
    (h : interceptFor (arrive fr.src s) fr.src fr.dest = some x) :
    commandFrame fr s = interceptFrame x fr (arrive fr.src s) := by
  simp only [commandFrame, h]

theorem interceptFrame_dropped {fr : RxFrame} (x : Intercept) (h : s.mgu.part ≠ .run ∨ takenClient fr.src s = none) :
    interceptFrame x fr s = countEvent .commandsIntercepted s := by
  have huntaken : takenClient fr.src (countEvent .commandsIntercepted s) = takenClient fr.src s := rfl
  simp only [interceptFrame, huntaken]
  split
  · next hrun => rw [h.resolve_left fun hne => hne hrun]
  · rfl

theorem interceptFrame_converted {fr : RxFrame} {c : Nat} (x : Intercept) (hrun : s.mgu.part = .run)
    (htaken : takenClient fr.src s = some c) : interceptFrame x fr s =
      testHead ((commandEntries fr.payload).foldl (convertEntry c x) (countEvent .commandsIntercepted s)) := by
  have htaken' : takenClient fr.src (countEvent .commandsIntercepted s) = some c := htaken
  simp only [interceptFrame, countEvent_mgu, if_pos hrun, htaken']

/-- An intercepted frame is counted, and its items keep the other counts. -/
theorem interceptFrame_items (x : Intercept) (fr : RxFrame) (s : State) :
    ItemsTaken (countEvent .commandsIntercepted s) (interceptFrame x fr s) := by
  by_cases hrun : s.mgu.part = .run
  · cases htaken : takenClient fr.src s with
    | none =>
      rw [interceptFrame_dropped x (.inr htaken)]
      exact .refl _
    | some c =>
      rw [interceptFrame_converted x hrun htaken]
      exact ItemsTaken.testHead (StepClosed.foldl_keeps (fun _ y ht => ht.convertEntry c x y) _ (.refl _))
  · rw [interceptFrame_dropped x (.inl hrun)]
    exact .refl _

/-- Settles O13: the frame by whether an entry matches it, by the part state, and by its client. -/
theorem commandFrameIntercepted : Obligations.CommandFrameIntercepted := by
  intro fr s hsrc s0 s1
  refine ⟨fun hnone => ?_, fun x hx => ?_⟩
  · rw [exec_intercept_other hsrc, commandFrame_forwarded hnone]
    rfl
  have hexec : exec (.intercept fr) s = .next (interceptFrame x fr s0) :=
    (exec_intercept_other hsrc s).trans (congrArg Host.Outcome.next (commandFrame_intercepted hx))
  refine ⟨fun hhalted => ?_, fun huntaken => ?_, ⟨_, hexec, ?_, ?_⟩, fun c e hrun htaken he => ?_⟩
  · rw [hexec, interceptFrame_dropped x (.inl (by simp [hhalted]))]
  · rw [hexec, interceptFrame_dropped x (.inr huntaken)]
  · rw [(interceptFrame_items x fr s0).count _ (by decide), count_countEvent_same]
  · rw [(interceptFrame_items x fr s0).count _ (by decide), count_countEvent_ne _ (by decide)]
  · rw [hexec, interceptFrame_converted x hrun htaken, foldl_convertEntry (s := s1) he]
    rfl

end Sys2Proof.Machine
end


-- ==== Sys2Proof/Proofs/AlertsRaised.lean ====
section
/-! PROOFS OF OBLIGATIONS. A raise of an alert number, with the ALERT frame of each change (R190, R192). -/

namespace Sys2Proof.Machine

/-- Settles O49, by what the raise did: nothing to a number listed, an entry more, one more overflow, or nothing at an
overflow count of 255. -/
theorem alertRaiseRule : Obligations.AlertRaiseRule := by
  intro c index s a changed
  rcases raiseAlert_cases s c index with ⟨hlisted, hsame⟩ | ⟨hnew, hroom, hjoined⟩ | ⟨hnew, hfull, hbelow, hcounted⟩ |
    ⟨hnew, hfull, hsaturated, hsame⟩
  · exact ⟨fun _ => hsame, fun hnew => absurd hlisted hnew, fun hnew => absurd hlisted hnew⟩
  · exact ⟨fun hlisted => absurd hlisted hnew, fun _ _ => hjoined, fun _ hfull => absurd hroom hfull.not_gt⟩
  · refine ⟨fun hlisted => absurd hlisted hnew, fun _ hroom => absurd hroom hfull.not_gt, fun _ _ => ?_⟩
    rw [if_pos hbelow]
    exact hcounted
  · refine ⟨fun hlisted => absurd hlisted hnew, fun _ hroom => absurd hroom hfull.not_gt, fun _ _ => ?_⟩
    rw [if_neg hsaturated.not_gt]
    exact hsame

end Sys2Proof.Machine
end


-- ==== Sys2Proof/Proofs/ReadAndStatus.lean ====
section
/-! PROOFS OF OBLIGATIONS. READ and STATUS: which of them have contents, and that nothing but the REPLY changes (R196,
R200). -/

namespace Sys2Proof.Machine

/-! ## READ -/

/-- READ of a table that is none, or of an index outside its range (R200; log 16). -/
theorem exec_read_missing {m : ManageCtx} {s : State} (h : FromManager m s) {table index : Nat}
    (hmissing : ¬∃ n, tableShape table = some n ∧ index < n.1) :
    exec (.read m table index) s = .next (replied m 2 .badIndex (arrive m.src s)) := by
  have htake : takeRead table index (arrive m.src s) = .of .badIndex (arrive m.src s) := by
    unfold takeRead
    split
    · rfl
    · next n classes hshape =>
        exact if_pos (Nat.not_lt.mp fun hindex => hmissing ⟨(n, classes), hshape, hindex⟩)
  show Host.Outcome.next (manage m 2 (takeRead table index) s) = _
  rw [manage_from h, htake, conclude_of]

/-! ## STATUS -/

/-- The items of R196 with the indices they take: the ones that take none at index 0, the ones with a record for each
index, and a station by its address (log 16). -/
def StatusItemExists (item index : Nat) (s : State) : Prop :=
  (item ∈ [1, 5, 6, 7, 8, 11, 13, 14] ∧ index = 0) ∨ (item ∈ [2, 4] ∧ index < 12) ∨ (item = 3 ∧ index < 48) ∨
    (item = 9 ∧ index < 16) ∨ (item = 10 ∧ index < 4) ∨ (item = 12 ∧ (stationRecord index s).isSome)

/-- A station item has contents at exactly the addresses of the station table (R196). -/
theorem statusContents_station_isSome (a : Nat) (s : State) :
    (statusContents 12 a s).isSome ↔ (stationRecord a s).isSome := by
  simp only [statusContents]
  cases hrecord : stationRecord a s with
  | none => rfl
  | some i =>
    obtain ⟨-, st, hst, -⟩ := stationRecord_some hrecord
    simp [hst]

/-- STATUS has contents for exactly the items that exist. -/
theorem statusContents_isSome_iff (item index : Nat) (s : State) :
    (statusContents item index s).isSome ↔ StatusItemExists item index s := by
  by_cases hstation : item = 12
  · subst hstation
    simp [statusContents_station_isSome, StatusItemExists]
  · unfold statusContents StatusItemExists
    split
    case h_12 => exact absurd rfl hstation
    case h_15 =>
      simp only [Option.isSome_none, Bool.false_eq_true, List.mem_cons, List.not_mem_nil, or_false]
      tauto
    all_goals simp [Option.isSome_ite]

/-- STATUS of an item that names nothing, or at an index it does not take (R196; log 16). -/
theorem exec_status_missing {m : ManageCtx} {s : State} (h : FromManager m s) {item index : Nat}
    (hnone : statusContents item index (arrive m.src s) = none) :
    exec (.status m item index) s = .next (replied m 3 .badIndex (arrive m.src s)) := by
  show Host.Outcome.next (manage m 3 (takeStatusItem item index) s) = _
  rw [manage_from h, takeStatusItem, hnone]
  rfl

/-- The part item's codes are the positions of the states in R196's list (log 12). -/
theorem codeIn_partStates (p : PartState) : codeIn partStates p =
    match p with | .config => 1 | .run => 2 | .halted => 3 := by
  cases p <;> rfl

/-- Settles O27: a table, a record or an item exists and is answered by its contents, or is answered BAD-INDEX. -/
theorem readAndStatusChangeNothing : Obligations.ReadAndStatusChangeNothing := by
  intro m x index s hm s0 got
  refine ⟨⟨readContents x index s0, ?_⟩, ⟨(statusContents x index s0).getD [], ?_⟩,
    exec_read hm rfl Nat.one_pos, exec_read hm rfl Nat.one_pos, exec_read hm rfl Nat.one_pos, ?_⟩
  · by_cases hexists : ∃ n, tableShape x = some n ∧ index < n.1
    · obtain ⟨n, hshape, hindex⟩ := id hexists
      rw [if_pos hexists]
      exact exec_read hm hshape hindex
    · rw [if_neg hexists]
      exact exec_read_missing hm hexists
  · have hiff : (statusContents x index s0).isSome ↔ _ := statusContents_isSome_iff x index s0
    unfold StatusItemExists at hiff
    cases hcontents : statusContents x index s0 with
    | none =>
      rw [hcontents] at hiff
      rw [if_neg (mt hiff.mpr Bool.false_ne_true)]
      exact exec_status_missing hm hcontents
    | some c =>
      rw [hcontents] at hiff
      rw [if_pos (hiff.mp rfl)]
      exact exec_status hm hcontents
  · have hpart : statusContents 1 0 s0 = some (statusPart s0) := rfl
    rw [exec_status hm hpart]
    simp only [statusPart, codeIn_partStates, codeIn_returnModes]
    rfl

end Sys2Proof.Machine
end

