-- ==== Sys2Proof/Proofs/QueueStep.lean ====
section
/-! PROOFS OF OBLIGATIONS. What one step does with the queue of waiting commands (logs 1, 28). -/

namespace Sys2Proof.Machine

theorem step_of_pending_cons {s : State} {c : Instr} {rest : List Instr} (hqueue : s.pending = c :: rest) :
    step s = exec c { s with pending := rest } := by
  rw [step, hqueue]

theorem step_of_pending_nil {s : State} (hqueue : s.pending = []) : step s = .next (tick s) := by
  rw [step, hqueue]

/-- Settles O1: a queue has a front command or is empty, and `tick` moves the clock of an idle step alone. -/
theorem stepRunsFrontCommandOrIdles : Obligations.StepRunsFrontCommandOrIdles := by
  intro s
  constructor
  · intro c rest hqueue
    exact step_of_pending_cons hqueue
  · intro hqueue
    exact step_of_pending_nil hqueue

end Sys2Proof.Machine
end
